-- ==== Sys2Proof/Word.lean ====
section
/-! DEFINITION. The words of the DQ2540 and the plain data its commands carry: octets, 64-bit register
words (R9), instants, masters (Table 2.12), register pages (Table 2.1), frames as they lie on a wire.
Nothing here has a behaviour. -/

namespace Sys2Proof

/-- One octet of a frame, one byte of a memory. -/
abbrev Byte := BitVec 8

/-- One register, one word of a table entry (R9: all registers are 64 bits wide). -/
abbrev W64 := BitVec 64

/-- An instant, in periods of CLK_FAB (0.625 ns) counted by the root clock since cold reset.
Every clock of Table 1.4 has a whole number of these periods (R32). -/
abbrev Instant := Nat

/-- The masters of CHIP_AERR_INFO, in the order of their codes 0 to 6 (Table 2.12). -/
inductive Master where
  | scarab | app | host | spi | inband | lighter | debug
deriving DecidableEq, Repr

/-- Every register page of Table 2.1, with its instance and its page index. Ports 26 to 28 have page 0
only; `Page.Exists` in WellFormed says so. -/
inductive Page where
  | chip | clk | pwr
  | fcn (i : Fin 4)
  | quay (n : Fin 4) (i : Fin 3)
  | port (p : Fin 29) (i : Fin 4)
  | bwt (i : Fin 2)
  | time (i : Fin 2)
  | ferry
  | can (k : Fin 24)
  | lin (l : Fin 8)
  | xwe
  | buoy (i : Fin 4)
  | lighter (i : Fin 5)
  | host (i : Fin 3)
  | mbox (i : Fin 5)
  | carapace | manifest
  | scarab (i : Fin 2)
  | pair (i : Fin 2)
  | upd | dbg
deriving DecidableEq, Repr

/-- What the medium shows of a received frame beside its octets (Tables 3.6, 3.11): of the time since the last frame the codewords
corrected and not, errored blocks and mPackets with a wrong SMD; of the frame its fragments and errors of their assembly. -/
structure Media where
  fecCorrected : Nat := 0
  fecLost      : Nat := 0
  blockErr     : Nat := 0
  smdErr       : Nat := 0
  asmErr       : Nat := 0
  frags        : Nat := 1
deriving DecidableEq, Repr

/-- A frame as the MAC of a port hands it over: the octets from the DA to the last octet before the FCS,
whether it came as a preemptable mPacket, whether its preamble and SFD or SMD were as MAC_CTRL.PREAMBLE_CHECK
asks, the PLCA transmit opportunity it was received in (S ports under PLCA), and the capture of its timestamp
point at the reference point (R215), in units of 2^-16 ns of local time. -/
structure EthFrame where
  octets      : List Byte
  preemptable : Bool := false
  preambleOk  : Bool := true
  opportunity : Option Nat := none
  capture     : Nat := 0
  media       : Media := {}
deriving DecidableEq, Repr

/-- A CAN frame of any format (Table 8.2). `dlc` is the DLC field, `sec` the SEC bit of a CAN XL frame. -/
structure CanFrame where
  id   : Nat
  ide  : Bool := false
  fdf  : Bool := false
  xlf  : Bool := false
  rtr  : Bool := false
  brs  : Bool := false
  esi  : Bool := false
  dlc  : Nat := 0
  sdt  : Nat := 0
  vcid : Nat := 0
  af   : Nat := 0
  sec  : Bool := false
  fv   : Nat := 0
  data : List Byte := []
deriving DecidableEq, Repr

/-- A LIN frame: identifier 0 to 63, checksum kind and data. -/
structure LinFrame where
  fid      : Nat
  enhanced : Bool := false
  data     : List Byte := []
deriving DecidableEq, Repr

/-- How an SRAM or MRAM word reads under its code (R16 to R18, R37), and which word it is where its code shows an error. -/
inductive EccEvent where
  | clean | corrected (word : Nat) | uncorrectable (word : Nat)
deriving DecidableEq, Repr

/-- Whether a read gave an error that cannot be corrected. -/
def EccEvent.lost : EccEvent → Bool
  | .uncorrectable _ => true
  | _ => false

/-- What a port's selection meets: how the first buffer cells of the selected copy read (R16, R18), and of an S port the PLCA transmit
opportunity that begins, where one does (R87). -/
structure Selection where
  ecc : EccEvent
  op  : Option Nat := none
deriving DecidableEq, Repr

/-- A link loss (R77): the port, and whether the partner of a B port signals a remote fault (Table 3.5). -/
structure LostLink where
  port   : Fin 26
  remote : Bool := false
deriving DecidableEq, Repr

/-- A transmission on a CAN bus that is complete: its start of frame, and how its blocks in the message RAM read (R227). -/
structure CanSent where
  sof : Instant
  ecc : EccEvent
deriving DecidableEq, Repr

/-- An UPD_BLOCK message that is started: its channel, and whether the block reads back as it was written (R487). -/
structure BlockStart where
  ch     : Fin 4
  readOk : Bool
deriving DecidableEq, Repr

/-- A message that is started and makes MRAM be read: its channel, and how the words read (R37). -/
structure ReadStart where
  ch  : Fin 4
  ecc : EccEvent
deriving DecidableEq, Repr

/-- A boot of the ROM: its instant, and how the MRAM words that it reads read (R37). -/
structure BootStart where
  at0 : Instant
  ecc : EccEvent
deriving DecidableEq, Repr

/-- The noise events of an S segment (Table 3.11). -/
inductive NoiseKind where
  | symErr | esdErr | emptyCarrier
deriving DecidableEq, Repr

/-- The outcomes of a cable test (Table 3.13, STATUS 2 to 6). -/
inductive DiagOutcome where
  | noFault | openLine | short | mismatch | aborted
deriving DecidableEq, Repr

/-- The kinds of error a CAN controller sees on its bus (Table 8.20). -/
inductive CanErr where
  | bit | stuff | form | ack | crc
deriving DecidableEq, Repr

/-- The ways in which a LIN response fails (R238). -/
inductive LinErr where
  | checksum | framing | bit | sync
deriving DecidableEq, Repr

/-- What the Buoy's decoder makes of one frame on a watched channel (R277). -/
inductive Decoded where
  | valid (f : CanFrame)
  | error
deriving DecidableEq, Repr

/-- A queue pair of port H (`portC = false`, 0 to 15) or of port C (`portC = true`, 0 to 7). -/
structure QueueRef where
  portC : Bool
  q     : Fin 16
deriving DecidableEq, Repr

/-- The content of a PCIe read completion: descriptors (four words each) or frame data, or an error. -/
inductive Completion where
  | txDescs (words : List (List W64))
  | rxDescs (words : List (List W64))
  | data (octets : List Byte)
  | error
deriving DecidableEq, Repr

/-- Who a completion timeout is reported to (R320). -/
inductive PcieRequester where
  | txQueue (q : QueueRef)
  | rxQueue (q : QueueRef)
  | lighter (c : Fin 32)
deriving DecidableEq, Repr

/-- The PCIe link as the endpoint sees it (Table 12.13). -/
structure PcieLink where
  up    : Bool
  speed : Nat
  width : Nat
  bme   : Bool
  pm    : Nat
deriving DecidableEq, Repr

/-- One request of the debug-module interface (R402, R434): a trace or state read, a register-space read or
write, or an invasive action on a core (0 to 2 Scarab, 3 to 6 application). -/
inductive DmiReq where
  | trace
  | readCore (core : Fin 7)
  | readReg (addr : Nat)
  | writeReg (addr : Nat) (v : W64)
  | invasive (core : Fin 7)
deriving DecidableEq, Repr

/-- The supplies and conditions of sources 16 to 21 (R410), in the order of Table 15.2. -/
inductive Rail where
  | vddCore | vddSram | vddaHs | vdd18 | vdd33 | buoy08
deriving DecidableEq, Repr

/-- The straps sampled at power-on reset (R470, Table 17.1, Table 14.3). -/
structure Straps where
  bootSel    : Fin 4 := 0
  pairEn     : Bool := false
  pairUnit   : Bool := false
  scarabTrio : Bool := false
deriving DecidableEq, Repr

end Sys2Proof
end

