-- ==== Sys2Proof/Syntax.lean ====
section
/-! DEFINITION. The commands of the DQ2540: one constructor per row of spec/opcode_table.json. The first operand `t`
of each is the instant, in periods of CLK_FAB, at which the command reaches the block it acts on. -/

namespace Sys2Proof

/-- The commands (register writes and reads, bus and pin events, ends of timed work). Each docstring names the row and its rule. -/
inductive Instr where
  /-- REGISTER_WRITE (R513): a write of 2^width bytes by master m. -/
  | registerWrite (t : Instant) (m : Master) (addr : Nat) (width : Nat) (v : W64)
  /-- TABLE_WINDOW_WRITE (R514): a write of 2^width bytes to a table window. -/
  | tableWindowWrite (t : Instant) (m : Master) (addr : Nat) (width : Nat) (v : W64)
  /-- ERR_FORCE (R50): a write of ERR_FORCE of the page. -/
  | errForce (t : Instant) (m : Master) (pg : Page) (v : W64)
  /-- IRQ_FORCE (R49): a write of IRQ_FORCE of the page. -/
  | irqForce (t : Instant) (m : Master) (pg : Page) (v : W64)
  /-- PAGE_LOCK (R71): a write of PG_LOCK.LOCK = 1. -/
  | pageLock (t : Instant) (m : Master) (pg : Page)
  /-- BLOCK_ENABLE (R46): a write of PG_CTRL.ENABLE = 1. -/
  | blockEnable (t : Instant) (m : Master) (pg : Page)
  /-- BLOCK_DISABLE (R46): a write of PG_CTRL.ENABLE = 0. -/
  | blockDisable (t : Instant) (m : Master) (pg : Page)
  /-- BLOCK_QUIESCED (R46): the disabled block has ended its unit of work. -/
  | blockQuiesced (t : Instant) (pg : Page)
  /-- BLOCK_SOFT_RESET (R20): PG_CTRL.SRST written by a master, or a request of the FCN (none). -/
  | blockSoftReset (t : Instant) (m : Option Master) (pg : Page)
  /-- SOFT_RESET_END (R20): the soft reset of the page's block ends. -/
  | softResetEnd (t : Instant) (pg : Page)
  /-- RESET_TIMEOUT (R21): 100 µs have passed since the start of a soft reset. -/
  | resetTimeout (t : Instant) (pg : Page)
  /-- FREEZE (R47): a write of PG_CTRL.FREEZE. -/
  | freeze (t : Instant) (m : Master) (pg : Page) (on : Bool)
  /-- COMMIT_IMMEDIATE (R54): CFG_COMMIT written with MODE = 0. -/
  | commitImmediate (t : Instant) (m : Master) (pg : Page) (gen : BitVec 32)
  /-- TIDE_JOIN (R62): CFG_COMMIT written with MODE = 1. -/
  | tideJoin (t : Instant) (m : Master) (pg : Page) (gen : BitVec 32) (slot : Fin 8)
  /-- COMMIT_SWITCH (R57): the switch point of an accepted immediate commit. -/
  | commitSwitch (t : Instant) (pg : Page)
  /-- MIRROR_REFILL_END (R55): the refill of the page's shadow copies ends. -/
  | mirrorRefillEnd (t : Instant) (pg : Page)
  /-- SIGNATURE_PASS (R61): a CRC pass of the page ends. -/
  | signaturePass (t : Instant) (pg : Page)
  /-- TIDE_TIME_WRITE (R62): CHIP_TIDE_n_SEC or CHIP_TIDE_n_NS written. -/
  | tideTimeWrite (t : Instant) (m : Master) (slot : Fin 8) (isNs : Bool) (v : W64)
  /-- TIDE_ARM (R63): CHIP_TIDE_n_CTRL written with ARM = 1. -/
  | tideArm (t : Instant) (m : Master) (slot : Fin 8) (v : W64)
  /-- TIDE_CANCEL (R64): CHIP_TIDE_n_CTRL written with CANCEL = 1. -/
  | tideCancel (t : Instant) (m : Master) (slot : Fin 8) (v : W64)
  /-- TIDE_FIRE (R65): the slot's domain has reached the Tide time. -/
  | tideFire (t : Instant) (slot : Fin 8)
  /-- SCRUB_ACCESS (R19): the scrub reads a word of an SRAM region of Table 1.6. -/
  | scrubAccess (t : Instant) (region : Fin 15) (word : Nat) (e : EccEvent)
  /-- FREE_CELL_TEST (R416): a free buffer cell of the quay's share is tested. -/
  | freeCellTest (t : Instant) (q : Fin 4) (cell : Nat) (ok : Bool)
  /-- QUAY_RESET (R24): a reset of the quay is requested by a master or by the FCN (none). -/
  | quayReset (t : Instant) (m : Option Master) (q : Fin 4)
  /-- QUAY_DRAIN_END (R24): the isolate-and-drain of the quay ends (Table 1.3, steps 4 to 6). -/
  | quayDrainEnd (t : Instant) (q : Fin 4)
  /-- CLOCK_MONITOR_WINDOW (R34): the count of a clock over 64 cycles of CLK_BUOY, in the order of sources 8 to 14. -/
  | clockMonitorWindow (t : Instant) (clock : Fin 7) (count : Nat)
  /-- CLK_BUOY_MONITOR (R34): what the reverse monitor saw of CLK_BUOY: a stop, a deviation in parts per million. -/
  | clkBuoyMonitor (t : Instant) (stopped : Bool) (ppm : Nat)
  /-- HEADER_WINDOW_COMPLETE (R101): the header window of a frame on port p is complete, or the frame is presented. -/
  | headerWindowComplete (t : Instant) (p : Fin 29) (f : EthFrame)
  /-- PIPELINE_ENTRY (R102): the quay admits its next ready header. -/
  | pipelineEntry (t : Instant) (q : Fin 4)
  /-- FRAME_TAIL (R130): the last octet of the frame in reception on port p has arrived. -/
  | frameTail (t : Instant) (p : Fin 26) (fcsOk : Bool)
  /-- PAUSE_RECEIVED (R73): a PAUSE frame with this pause time. -/
  | pauseReceived (t : Instant) (p : Fin 26) (quanta : Nat)
  /-- LINK_LOSS (R77): the port reports link loss; of a B port, whether the partner signals a remote fault (Table 3.5). -/
  | linkLoss (t : Instant) (x : LostLink)
  /-- LINK_UP (R79): the link is up at a speed coded as MAC_MODE.SPEED, with the PHY latency of that speed. -/
  | linkUp (t : Instant) (p : Fin 26) (speed : Nat) (isMaster warm : Bool) (lat : W64)
  /-- PHY_WARM_SAVE (R80): PHY_WARM_CTRL.SAVE written. -/
  | phyWarmSave (t : Instant) (m : Master) (p : Fin 26)
  /-- PHY_WARM_FLUSH (R81): PHY_WARM_CTRL.FLUSH written. -/
  | phyWarmFlush (t : Instant) (m : Master) (p : Fin 26)
  /-- WARM_FB_PARTNER (R82): the partner cold-trains during a warm attempt. -/
  | warmFbPartner (t : Instant) (p : Fin 26)
  /-- FINGERPRINT_CHECK (R83): largest echo difference in 0.125 dB, SQI after load, timing offset in ppm. -/
  | fingerprintCheck (t : Instant) (p : Fin 26) (echoDiff sqi ppm : Nat)
  /-- WARM_TIMEOUT (R84): PHY_WARM_CTRL.TIMEOUT has passed in a warm attempt. -/
  | warmTimeout (t : Instant) (p : Fin 26)
  /-- BLOCK_LOCK_TIMEOUT (R85): no block lock 0.3 ms after the relock of a B port. -/
  | blockLockTimeout (t : Instant) (p : Fin 26)
  /-- PLCA_BEACON (R88): a valid beacon of another node is received. -/
  | plcaBeacon (t : Instant) (p : Fin 26)
  /-- PLCA_BEACON_LOSS (R88): no beacon for 4,000 bit times. -/
  | plcaBeaconLoss (t : Instant) (p : Fin 26)
  /-- PLCA_COLLISION (R87): a physical collision on the segment. -/
  | plcaCollision (t : Instant) (p : Fin 26) (late : Bool)
  /-- NOISE_EVENT (R91): a noise event on the segment. -/
  | noiseEvent (t : Instant) (p : Fin 26) (k : NoiseKind)
  /-- JABBER_RX (R91): a received transmission longer than 2 ms. -/
  | jabberRx (t : Instant) (p : Fin 26)
  /-- JABBER_TX (R91): 2 ms of continuous transmission by the port. -/
  | jabberTx (t : Instant) (p : Fin 26)
  /-- LPI_ENTRY (R93): the idle time before LPI has passed. -/
  | lpiEntry (t : Instant) (p : Fin 26)
  /-- LPI_WAKE (R93): the wake time TW has passed. -/
  | lpiWake (t : Instant) (p : Fin 26)
  /-- LPI_GATE_WAKE (R94): a gate opening is due TW from now. -/
  | lpiGateWake (t : Instant) (p : Fin 26)
  /-- TC10_SLEEP_REQ (R95): PHY_TC10_CTRL.SLEEP_REQ written. -/
  | tc10SleepReq (t : Instant) (m : Master) (p : Fin 26)
  /-- TC10_SLEEP_ACK (R95): the partner acknowledges. -/
  | tc10SleepAck (t : Instant) (p : Fin 26)
  /-- TC10_SLEEP_REJECT (R95): the partner rejects. -/
  | tc10SleepReject (t : Instant) (p : Fin 26)
  /-- TC10_SLEEP_TIMEOUT (R95): 16 ms without an answer. -/
  | tc10SleepTimeout (t : Instant) (p : Fin 26)
  /-- TC10_PARTNER_SLEEP_REQUEST (R96): the partner requests sleep. -/
  | tc10PartnerSleepRequest (t : Instant) (p : Fin 26)
  /-- TC10_WUR (R97): PHY_TC10_CTRL.WUR written. -/
  | tc10Wur (t : Instant) (m : Master) (p : Fin 26)
  /-- PHY_DIAG_START (R99): PHY_DIAG_CTRL.START written. -/
  | phyDiagStart (t : Instant) (m : Master) (p : Fin 26)
  /-- DIAG_DONE (R99): the cable test ends. -/
  | diagDone (t : Instant) (p : Fin 26) (r : DiagOutcome) (distance loss : Nat)
  /-- SQI_UPDATE (R99): the 1 ms SQI measurement. -/
  | sqiUpdate (t : Instant) (p : Fin 26) (sqi : Nat)
  /-- MERGE_VERIFY (R132): the 802.3br verification ends. -/
  | mergeVerify (t : Instant) (p : Fin 26) (ok : Bool)
  /-- AGING_SWEEP (R115): the MAC/VLAN aging sweep. -/
  | agingSweep (t : Instant)
  /-- SF_BLOCKED_CLEAR (R120): QUAY_SF_STATE written. -/
  | sfBlockedClear (t : Instant) (m : Master) (q : Fin 4) (v : W64)
  /-- FRER_RESET (R125): RESET_MS has passed without a passed frame. -/
  | frerReset (t : Instant) (fn : Fin 1024)
  /-- FLOW_SWEEP (R156): the flow sweep visits the table. -/
  | flowSweep (t : Instant)
  /-- FLOW_DELETE (R158): BWT_FLOW_CMD written with OP 1. -/
  | flowDelete (t : Instant) (m : Master) (v : W64)
  /-- FLOW_FLUSH_ALL (R158): BWT_FLOW_CMD written with OP 2. -/
  | flowFlushAll (t : Instant) (m : Master) (v : W64)
  /-- FLOW_FLUSH_ZONE (R158): BWT_FLOW_CMD written with OP 3. -/
  | flowFlushZone (t : Instant) (m : Master) (v : W64)
  /-- FLOW_FLUSH_RULE (R158): BWT_FLOW_CMD written with OP 4. -/
  | flowFlushRule (t : Instant) (m : Master) (v : W64)
  /-- FLOW_FLUSH_END (R158): the flush reaches the last bucket. -/
  | flowFlushEnd (t : Instant)
  /-- DIAG_TOKEN (R164): the message staged on the channel is started. -/
  | diagToken (t : Instant) (ch : Fin 4)
  /-- DIAG_CLOSE (R165): the message staged on the channel is started. -/
  | diagClose (t : Instant) (ch : Fin 4)
  /-- BWT_DIAG_CLOSE (R165): BWT_DIAG_s_CTRL.CLOSE written. -/
  | bwtDiagClose (t : Instant) (m : Master) (s : Fin 4)
  /-- DIAG_SESSION_EXPIRY (R165): a millisecond tick of local time. -/
  | diagSessionExpiry (t : Instant) (s : Fin 4)
  /-- PORT_SELECTION (R177): the port's transmitter can accept the next frame; how the buffer cells of the selected copy read (R16, R18); of an S
  port, the PLCA transmit opportunity that begins, where one does (R87). -/
  | portSelection (t : Instant) (p : Fin 29) (x : Selection)
  /-- TRANSMIT_END (R176): the frame in transmission has left; how the rest of its buffer cells read (R16, R18). -/
  | transmitEnd (t : Instant) (p : Fin 29) (e : EccEvent)
  /-- GATE_EVENT (R182): an entry of the operational gate list takes effect. -/
  | gateEvent (t : Instant) (p : Fin 27)
  /-- GCL_CONFIG_CHANGE (R186): the configuration change time is reached. -/
  | gclConfigChange (t : Instant) (p : Fin 27)
  /-- SHAPER_SLOT_RELEASE (R192): a fine slot of the wheel is reached. -/
  | shaperSlotRelease (t : Instant) (q : Fin 4)
  /-- COARSE_SLOT_MOVE (R192): the last fine slot before a coarse interval. -/
  | coarseSlotMove (t : Instant) (q : Fin 4)
  /-- SHAPER_BUCKET_EVAL (R193): the bucket-mode shapers are re-evaluated. -/
  | shaperBucketEval (t : Instant) (q : Fin 4)
  /-- SAMPLING_PASS (R196): a multiple of PERIOD_US is reached. -/
  | samplingPass (t : Instant) (q : Fin 4)
  /-- APERTURE_DRAIN_READ (R198): a read of 2^width bytes in a drain aperture. -/
  | apertureDrainRead (t : Instant) (m : Master) (addr : Nat) (width : Nat)
  /-- RATE_WRITE (R201): TIME_D_d_RATE written. -/
  | rateWrite (t : Instant) (m : Master) (d : Fin 4) (v : W64)
  /-- DOMAIN_ENABLE (R202): TIME_D_d_CTRL written with ENABLE = 1. -/
  | domainEnable (t : Instant) (m : Master) (d : Fin 4) (v : W64)
  /-- DOMAIN_DISABLE (R202): TIME_D_d_CTRL written with ENABLE = 0. -/
  | domainDisable (t : Instant) (m : Master) (d : Fin 4) (v : W64)
  /-- SYNC_SET (R205): TIME_D_d_CTRL written with SYNC = 1. -/
  | syncSet (t : Instant) (m : Master) (d : Fin 4) (v : W64)
  /-- STEP_ABS (R203): TIME_D_d_CMD written with STEP_ABS = 1. -/
  | stepAbs (t : Instant) (m : Master) (d : Fin 4) (v : W64)
  /-- STEP_REL (R203): TIME_D_d_CMD written with STEP_REL = 1. -/
  | stepRel (t : Instant) (m : Master) (d : Fin 4) (v : W64)
  /-- TIME_STEP_APPLY (R203): the CLK_TS edge of the pending step. -/
  | timeStepApply (t : Instant) (d : Fin 4)
  /-- SYNC_WATCHDOG (R205): SYNC_WD_MS has passed. -/
  | syncWatchdog (t : Instant) (d : Fin 4)
  /-- TIME_SNAP (R206): TIME_SNAP written. -/
  | timeSnap (t : Instant) (m : Master) (v : W64)
  /-- CTR_MISMATCH (R208): the duplicate counters differ. -/
  | ctrMismatch (t : Instant)
  /-- TOUT_ARM (R210): TOUT_n_CTRL written with ARM = 1. -/
  | toutArm (t : Instant) (m : Master) (n : Fin 8) (v : W64)
  /-- TOUT_STOP (R211): TOUT_n_CTRL written with STOP = 1. -/
  | toutStop (t : Instant) (m : Master) (n : Fin 8) (v : W64)
  /-- TOUT_EDGE (R211): a programmed edge of the output is reached. -/
  | toutEdge (t : Instant) (n : Fin 8)
  /-- TCAP_EDGE (R213): an edge at the capture input. -/
  | tcapEdge (t : Instant) (n : Fin 8) (rising : Bool)
  /-- CAN_FRAME_RECEIVED (R228): a frame of another node ends its ACK delimiter. -/
  | canFrameReceived (t : Instant) (k : Fin 24) (f : CanFrame) (sof : Instant)
  /-- FERRY_START (R240): the Ferry takes its next ready work; how its message RAM reads (R227). -/
  | ferryStart (t : Instant) (e : EccEvent)
  /-- FERRY_VERDICT_RETURN (R243): the oldest DECIDE or CARRY presentation has its verdicts. -/
  | ferryVerdictReturn (t : Instant)
  /-- AGG_WINDOW_CLOSE (R250): a closing condition of the stream's window holds. -/
  | aggWindowClose (t : Instant) (s : Fin 64)
  /-- CARRIER_RECEIVED (R253): Quay 3 hands the head copy of port 28 to the Ferry. -/
  | carrierReceived (t : Instant)
  /-- CAN_LATE_ERROR (R248): an error in the first six bits of the end-of-frame field; the channels on which a copy of the
  frame is being transmitted. -/
  | canLateError (t : Instant) (k : Fin 24) (onBus : List (Fin 24))
  /-- CAN_ARBITRATION_LOST (R229): the frame in transmission loses arbitration. -/
  | canArbitrationLost (t : Instant) (k : Fin 24)
  /-- CAN_TX_COMPLETE (R229): the frame in transmission since `x.sof` is complete and acknowledged; how its blocks in the message RAM
  read (R227). -/
  | canTxComplete (t : Instant) (k : Fin 24) (x : CanSent)
  /-- CAN_BUS_ERROR (R230): a bus error, seen as transmitter or as receiver. -/
  | canBusError (t : Instant) (k : Fin 24) (e : CanErr) (transmitter : Bool)
  /-- CAN_TX_AGE_EXPIRY (R229): a pending frame reaches TX_MAX_AGE_MS; the start of the transmission in progress, if any. -/
  | canTxAgeExpiry (t : Instant) (k : Fin 24) (sof : Option Instant)
  /-- CAN_RECOVER (R230): CAN_CMD.RECOVER written. -/
  | canRecover (t : Instant) (m : Master) (k : Fin 24)
  /-- BUS_OFF_RECOVERY (R230): 128 occurrences of 11 recessive bits have been seen. -/
  | busOffRecovery (t : Instant) (k : Fin 24)
  /-- CAN_PROTOCOL_EXCEPTION (R231): a reserved bit or an unsupported format. -/
  | canProtocolException (t : Instant) (k : Fin 24)
  /-- BUS_INTEGRATION_END (R231): bus integration is complete. -/
  | busIntegrationEnd (t : Instant) (k : Fin 24)
  /-- CAN_XCVR_FAULT (R232): RXD stayed recessive for 16 dominant transmitted bits. -/
  | canXcvrFault (t : Instant) (k : Fin 24)
  /-- LIN_SLOT_START (R236): the master's next slot begins. -/
  | linSlotStart (t : Instant) (l : Fin 8)
  /-- LIN_HEADER_RECEIVED (R235): a slave receives a header. -/
  | linHeaderReceived (t : Instant) (l : Fin 8) (fid : Fin 64) (baud : Nat)
  /-- LIN_FRAME_RECEIVED (R238): a response of another node completes. -/
  | linFrameReceived (t : Instant) (l : Fin 8) (f : LinFrame) (e : Option LinErr) (start : Instant)
  /-- LIN_NO_RESPONSE (R238): 1.4 times the nominal length has passed. -/
  | linNoResponse (t : Instant) (l : Fin 8)
  /-- LIN_GOTO_SLEEP (R239): LIN_CMD.GOTO_SLEEP written. -/
  | linGotoSleep (t : Instant) (m : Master) (l : Fin 8)
  /-- LIN_WAKE (R239): LIN_CMD.WAKE written. -/
  | linWake (t : Instant) (m : Master) (l : Fin 8)
  /-- LIN_RESUME (R239): RESUME_MS has passed after a wake. -/
  | linResume (t : Instant) (l : Fin 8)
  /-- LIN_WAKE_RX (R239): a wake pulse is received with PD_EDGE on. -/
  | linWakeRx (t : Instant) (l : Fin 8)
  /-- LIN_BUS_STUCK (R239): the RX line was dominant for 20 ms. -/
  | linBusStuck (t : Instant) (l : Fin 8)
  /-- FERRY_STALL (R240): ready work has waited more than 10 µs. -/
  | ferryStall (t : Instant)
  /-- XWE_TAP_PROCESS (R260): the XWE takes its next tap. -/
  | xweTapProcess (t : Instant)
  /-- XWE_TICK (R267): a multiple of TICK_MS in the time of a domain (4: local time). -/
  | xweTick (t : Instant) (d : Fin 5)
  /-- CAN_WUP (R276): RXD was dominant for this many microseconds. -/
  | canWup (t : Instant) (k : Fin 24) (us : Nat)
  /-- BUOY_FRAME_DECODED (R277): the decoder ends a frame at its CRC delimiter. -/
  | buoyFrameDecoded (t : Instant) (k : Fin 24) (r : Decoded)
  /-- LIN_WAKE_PULSE (R280): a dominant phase of this length ends. -/
  | linWakePulse (t : Instant) (l : Fin 8) (us : Nat)
  /-- PHY_WAKE_DETECT (R281): the wake detector of the port sees wake-up signalling or energy. -/
  | phyWakeDetect (t : Instant) (p : Fin 26)
  /-- WAKE_PIN_EVENT (R282): the pin has held the active or the opposite condition for DEBOUNCE_US. -/
  | wakePinEvent (t : Instant) (n : Fin 8) (active : Bool)
  /-- KEEP_ALIVE (R288): a keep-alive indication of the cluster. -/
  | keepAlive (t : Instant) (n : Fin 32)
  /-- NM_LOCAL_WRITE (R289): BUOY_NM_LOCAL written. -/
  | nmLocalWrite (t : Instant) (m : Master) (v : W64)
  /-- NM_TIMEOUT (R289): NM_TIMEOUT_MS has passed. -/
  | nmTimeout (t : Instant) (n : Fin 32)
  /-- READY_SLEEP_EXPIRY (R289): READY_SLEEP_MS has passed. -/
  | readySleepExpiry (t : Instant) (n : Fin 32)
  /-- FALSE_WAKE_EXPIRY (R289): FALSE_WAKE_MS has passed. -/
  | falseWakeExpiry (t : Instant) (n : Fin 32)
  /-- SLEEP_CONDITIONS_MET (R290): steps 2 and 3 of Table 10.4. -/
  | sleepConditionsMet (t : Instant) (n : Fin 32)
  /-- MODE_CHANGE_WINDOW_END (R295): XCVR_SETTLE_US has passed. -/
  | modeChangeWindowEnd (t : Instant) (n : Fin 32)
  /-- KEEPER_KICK (R297): BUOY_KEEP_CTRL.KICK written. -/
  | keeperKick (t : Instant) (m : Master)
  /-- KEEPER_RELEASE (R298): BUOY_KEEP_CTRL.RELEASE written. -/
  | keeperRelease (t : Instant) (m : Master)
  /-- KEEPER_PERIOD (R297): a 100 ms keeper period ends. -/
  | keeperPeriod (t : Instant)
  /-- QUAY_CLOCK_GATE (R304): the quay has been P1-idle for 1 µs. -/
  | quayClockGate (t : Instant) (q : Fin 4)
  /-- QUAY_POWER_GATE (R305): the quay has been P2-idle for P2_IDLE_US. -/
  | quayPowerGate (t : Instant) (q : Fin 4)
  /-- QUAY_RESTORE (R306): a trigger of R306. -/
  | quayRestore (t : Instant) (q : Fin 4)
  /-- QUAY_RESTORE_DONE (R306): the restoration time of Table 11.4 has passed. -/
  | quayRestoreDone (t : Instant) (q : Fin 4)
  /-- DEEP_DELAY_EXPIRY (R309): deep_ok has held for DEEP_DELAY_MS. -/
  | deepDelayExpiry (t : Instant)
  /-- HOST_ACCESS_WAKE (R316): a host access in P3. -/
  | hostAccessWake (t : Instant) (addr : Nat)
  /-- TX_DOORBELL (R321): the TX doorbell of a queue pair written. -/
  | txDoorbell (t : Instant) (q : QueueRef) (v : W64)
  /-- RX_DOORBELL (R321): the RX doorbell of a queue pair written. -/
  | rxDoorbell (t : Instant) (q : QueueRef) (v : W64)
  /-- PCIE_READ_COMPLETION (R320): a read completion for the queue pair. -/
  | pcieReadCompletion (t : Instant) (q : QueueRef) (c : Completion)
  /-- PCIE_COMPLETION_TIMEOUT (R320): a memory request times out. -/
  | pcieCompletionTimeout (t : Instant) (r : PcieRequester)
  /-- COALESCE_TIMEOUT (R328): COAL_US has passed. -/
  | coalesceTimeout (t : Instant) (q : QueueRef) (isRx : Bool)
  /-- HOST_QUEUE_ENABLE (R322): a queue CFG register written with EN = 1. -/
  | hostQueueEnable (t : Instant) (m : Master) (q : QueueRef) (isRx : Bool) (v : W64)
  /-- PCIE_LINK_CHANGE (R318): the PCIe link changes state. -/
  | pcieLinkChange (t : Instant) (k : PcieLink)
  /-- SPI_TRANSACTION (R332): the octets shifted in between the edges of SPI_CS_N, and the words read. -/
  | spiTransaction (t : Instant) (mosi : List Byte) (words : Nat)
  /-- INBAND_REQUEST (R334): an in-band frame, from VERSION to TAG. -/
  | inbandRequest (t : Instant) (octets : List Byte)
  /-- MBOX_REQ_WRITE (R335): a 64-bit write in the request aperture. -/
  | mboxReqWrite (t : Instant) (m : Master) (ch : Fin 4) (v : W64)
  /-- MBOX_RING (R336): MBOX_CH_CTRL.RING written. -/
  | mboxRing (t : Instant) (m : Master) (ch : Fin 4)
  /-- MBOX_ACK (R336): MBOX_CH_CTRL.ACK written. -/
  | mboxAck (t : Instant) (m : Master) (ch : Fin 4)
  /-- VERSION (R337): the message staged on the channel is started. -/
  | version (t : Instant) (ch : Fin 4)
  /-- KEY_WRITE (R363): the message staged on the channel is started. -/
  | keyWrite (t : Instant) (ch : Fin 4)
  /-- KEY_GENERATE (R363): the message staged on the channel is started. -/
  | keyGenerate (t : Instant) (ch : Fin 4)
  /-- KEY_ATTEST (R368): the message staged on the channel is started. -/
  | keyAttest (t : Instant) (ch : Fin 4)
  /-- DEV_ATTEST (R368): the message staged on the channel is started. -/
  | devAttest (t : Instant) (ch : Fin 4)
  /-- UPD_OPEN (R484): the message staged on the channel is started. -/
  | updOpen (t : Instant) (ch : Fin 4)
  /-- UPD_BLOCK (R487): the message staged on the channel is started; whether the block reads back as it was written. -/
  | updBlock (t : Instant) (x : BlockStart)
  /-- UPD_FINISH (R488): the message staged on the channel is started; how the MRAM words of the body read (R37). -/
  | updFinish (t : Instant) (x : ReadStart)
  /-- UPD_ACTIVATE (R489): the message staged on the channel is started; how the MRAM words of the header read (R37). -/
  | updActivate (t : Instant) (x : ReadStart)
  /-- UPD_ABORT (R486): the message staged on the channel is started. -/
  | updAbort (t : Instant) (ch : Fin 4)
  /-- DBG_CHALLENGE (R436): the message staged on the channel is started. -/
  | dbgChallenge (t : Instant) (ch : Fin 4)
  /-- DBG_UNLOCK (R437): the message staged on the channel is started. -/
  | dbgUnlock (t : Instant) (ch : Fin 4)
  /-- PAIR_STATUS (R468): the message staged on the channel is started. -/
  | pairStatus (t : Instant) (ch : Fin 4)
  /-- PAIR_YIELD (R468): the message staged on the channel is started. -/
  | pairYield (t : Instant) (ch : Fin 4)
  /-- MANIFEST_SEAL (R385): the message staged on the channel is started. -/
  | manifestSeal (t : Instant) (ch : Fin 4)
  /-- MANIFEST_READ (R385): the message staged on the channel is started; how the MRAM words of the records read (R37). -/
  | manifestRead (t : Instant) (x : ReadStart)
  /-- LC_TRANSITION (R348): the message staged on the channel is started. -/
  | lcTransition (t : Instant) (ch : Fin 4)
  /-- LC_TRANSITION_RESET (R349): 10 ms after an accepted transition. -/
  | lcTransitionReset (t : Instant)
  /-- LIGHTER_ARM (R340): LT_SH_ARM.ARM written. -/
  | lighterArm (t : Instant) (m : Master) (c : Fin 32)
  /-- LIGHTER_HANDOVER (R341): an armed shadow set meets the idle active set. -/
  | lighterHandover (t : Instant) (c : Fin 32)
  /-- LIGHTER_BURST (R342): the channel is granted one burst; the octets a host source answers (none: an error completion). -/
  | lighterBurst (t : Instant) (c : Fin 32) (hostData : Option (List Byte))
  /-- LIGHTER_STOP (R344): LT_CMD.STOP written. -/
  | lighterStop (t : Instant) (m : Master) (c : Fin 32)
  /-- LIGHTER_RESUME (R344): LT_CMD.RESUME written. -/
  | lighterResume (t : Instant) (m : Master) (c : Fin 32)
  /-- LIGHTER_ABORT_NOW (R344): LT_CMD.ABORT_NOW written. -/
  | lighterAbortNow (t : Instant) (m : Master) (c : Fin 32)
  /-- TAMPER_DETECT (R354): a tamper source of Table 13.7 is detected. -/
  | tamperDetect (t : Instant) (bit : Fin 16)
  /-- CAR_CMD_WRITE (R361): CAR_CMD written with OP 1 and GO. -/
  | carCmdWrite (t : Instant) (m : Master) (slot : Fin 256)
  /-- CAR_CMD_GENERATE (R361): CAR_CMD written with OP 2 and GO. -/
  | carCmdGenerate (t : Instant) (m : Master) (slot : Fin 256)
  /-- CAR_CMD_DESTROY (R361): CAR_CMD written with OP 3 and GO. -/
  | carCmdDestroy (t : Instant) (m : Master) (slot : Fin 256)
  /-- CAR_CMD_WRAP_EXPORT (R361): CAR_CMD written with OP 4 and GO. -/
  | carCmdWrapExport (t : Instant) (m : Master) (slot : Fin 256)
  /-- CAR_CMD_UNWRAP_IMPORT (R361): CAR_CMD written with OP 5 and GO. -/
  | carCmdUnwrapImport (t : Instant) (m : Master) (slot : Fin 256)
  /-- CAR_CMD_DERIVE (R361): CAR_CMD written with OP 6 and GO. -/
  | carCmdDerive (t : Instant) (m : Master) (slot : Fin 256)
  /-- CAR_CMD_DONE (R361): the command in progress completes. -/
  | carCmdDone (t : Instant)
  /-- SLOT_INTEGRITY_PASS (R360): the background pass, and the slot whose tag fails. -/
  | slotIntegrityPass (t : Instant) (bad : Option (Fin 256))
  /-- TRNG_HEALTH_FAIL (R372): a health test fails. -/
  | trngHealthFail (t : Instant)
  /-- TRNG_RECOVERY (R372): 1,024 consecutive samples have passed. -/
  | trngRecovery (t : Instant)
  /-- DRBG_RESEED (R372): 2^20 requests have been served. -/
  | drbgReseed (t : Instant)
  /-- MACSEC_KEY_RECHECK (R377): 100 ms have passed since the last recheck. -/
  | macsecKeyRecheck (t : Instant) (p : Fin 26)
  /-- MANIFEST_SUBMIT (R386): MAN_SUB_GO.GO written. -/
  | manifestSubmit (t : Instant) (m : Master)
  /-- MANIFEST_SUB_SEAL (R384): MAN_SUB_GO.SEAL written. -/
  | manifestSubSeal (t : Instant) (m : Master)
  /-- MANIFEST_RECORD_WRITE (R383): the oldest staged record is written to the journal, and verifies or not. -/
  | manifestRecordWrite (t : Instant) (ok : Bool)
  /-- SEAL_SIGNED (R384): the signature of a seal is complete. -/
  | sealSigned (t : Instant)
  /-- SCARAB_OUTPUT_MINORITY (R389): the aligned outputs of the three cores in a cycle in which they are not all equal. -/
  | scarabOutputMinority (t : Instant) (o0 o1 o2 : W64)
  /-- DIGEST_COMPARE (R391): the digests of the three cores. -/
  | digestCompare (t : Instant) (d0 d1 d2 : W64)
  /-- VOTER_MISMATCH (R390): the results of the two voters differ. -/
  | voterMismatch (t : Instant)
  /-- VOTER_SELFTEST (R398): SELFTEST_MS has passed; the outcome of the test. -/
  | voterSelftest (t : Instant) (ok : Bool)
  /-- SCARAB_SELFTEST_NOW (R398): SCARAB_CTRL.SELFTEST_NOW written; the outcome of the test. -/
  | scarabSelftestNow (t : Instant) (m : Master) (ok : Bool)
  /-- SCARAB_MODE_REQ (R401): SCARAB_MODE_REQ.TRIO written. -/
  | scarabModeReq (t : Instant) (m : Master)
  /-- KCOREINFO_READ (R405): a read of the CSR kcoreinfo. -/
  | kcoreinfoRead (t : Instant) (core : Fin 3)
  /-- FAULT_EVENT (R414): the condition of an FCN source occurs. -/
  | faultEvent (t : Instant) (src : Fin 512)
  /-- SUPPLY_OUT_OF_WINDOW (R410): a supply stayed outside its window for more than 1 µs. -/
  | supplyOutOfWindow (t : Instant) (r : Rail)
  /-- TJ_THRESHOLD (R409): Tj rises above 125 °C (false) or above 140 °C (true). -/
  | tjThreshold (t : Instant) (crit : Bool)
  /-- CHIP_RESET_ASSERT (R425): the seal is signed or 5 ms have passed. -/
  | chipResetAssert (t : Instant)
  /-- RESET_SHADOW_CLOSE (R421): SHADOW_US after the end of a reset of the page's block or quay. -/
  | resetShadowClose (t : Instant) (pg : Page)
  /-- FAULTN_MIN_END (R423): 808 cycles of CLK_BUOY of FAULT_N low have passed. -/
  | faultnMinEnd (t : Instant)
  /-- FAULTN_RELEASE (R423): FCN_FAULTN written with RELEASE = 1. -/
  | faultnRelease (t : Instant) (m : Master) (v : W64)
  /-- FAULTN_ASSERT (R423): FCN_FAULTN written with ASSERT = 1. -/
  | faultnAssert (t : Instant) (m : Master) (v : W64)
  /-- FCN_SELFTEST (R430): 100 ms have passed; the outcome of the test. -/
  | fcnSelftest (t : Instant) (ok : Bool)
  /-- FCN_SELFTEST_NOW (R430): FCN_SELFTEST.NOW written; the outcome of the test. -/
  | fcnSelftestNow (t : Instant) (m : Master) (ok : Bool)
  /-- FCN_SRC_WRITE (R412): FCN_SRC_s written. -/
  | fcnSrcWrite (t : Instant) (m : Master) (src : Fin 512) (v : W64)
  /-- EXTEST (R435): the TAP instruction EXTEST with the boundary-scan register. -/
  | extest (t : Instant) (bsr : List Bool)
  /-- IDCODE (R435): the TAP instruction IDCODE. -/
  | idcode (t : Instant)
  /-- SAMPLE_PRELOAD (R435): the TAP instruction SAMPLE/PRELOAD. -/
  | samplePreload (t : Instant) (bsr : List Bool)
  /-- CLAMP (R435): the TAP instruction CLAMP. -/
  | clamp (t : Instant)
  /-- DBG_CHAL (R436): the TAP instruction DBG_CHAL. -/
  | dbgChal (t : Instant)
  /-- DBG_TOKEN (R437): the TAP instruction DBG_TOKEN with a token. -/
  | dbgToken (t : Instant) (octets : List Byte)
  /-- DBG_CLOSE (R438): the TAP instruction DBG_CLOSE. -/
  | dbgClose (t : Instant)
  /-- DMI (R434): the TAP instruction DMI. -/
  | dmi (t : Instant) (r : DmiReq)
  /-- BYPASS (R435): the TAP instruction BYPASS. -/
  | bypass (t : Instant)
  /-- DBG_CTRL_CLOSE (R438): DBG_CTRL.CLOSE written. -/
  | dbgCtrlClose (t : Instant) (m : Master)
  /-- DBG_SESSION_EXPIRY (R438): a millisecond tick of local time. -/
  | dbgSessionExpiry (t : Instant)
  /-- DBG_NONCE_EXPIRY (R436): 60 s have passed since the nonce was drawn. -/
  | dbgNonceExpiry (t : Instant)
  /-- DBG_LOCKOUT_END (R439): 60 s have passed since the lockout began. -/
  | dbgLockoutEnd (t : Instant)
  /-- CLAIM_ROUND_START (R450): a start bit begins a round. -/
  | claimRoundStart (t : Instant)
  /-- CLAIM_ROUND_END (R451): the sampled levels of bits 1 to 8 (true: dominant). -/
  | claimRoundEnd (t : Instant) (bus : List Bool)
  /-- PAIR_KICK (R455): PAIR_KICK.KICK written. -/
  | pairKick (t : Instant) (m : Master)
  /-- HEARTBEAT_SEND (R455): 20 µs have passed since the last heartbeat instant. -/
  | heartbeatSend (t : Instant)
  /-- HEARTBEAT_RECEIVED (R456): a heartbeat payload arrives on a path. -/
  | heartbeatReceived (t : Instant) (path : Fin 2) (octets : List Byte)
  /-- HEARTBEAT_MISS (R456): a further 20 µs have passed on the path without an accepted heartbeat. -/
  | heartbeatMiss (t : Instant) (path : Fin 2)
  /-- DIGEST_INTERVAL_CLOSE (R462): 100 µs after the end of a digest interval; SYNC of the domain in both units. -/
  | digestIntervalClose (t : Instant) (syncOk : Bool)
  /-- ROT_BANK_ADVANCE (R463): 5 ms have passed in the rotation. -/
  | rotBankAdvance (t : Instant)
  /-- ROT_BANK_TEST (R463): the withdrawn bank is free and has been tested; a failing cell. -/
  | rotBankTest (t : Instant) (failing : Option Nat)
  /-- OFFLINE_TEST (R464): PAIR_CMD.OFFLINE_TEST written. -/
  | offlineTest (t : Instant) (m : Master)
  /-- OFFLINE_TEST_END (R464): the offline test ends. -/
  | offlineTestEnd (t : Instant)
  /-- YIELD_CLAIM_RELEASE (R468): step 2 of Table 17.5. -/
  | yieldClaimRelease (t : Instant)
  /-- PAIR_NONCE_EXPIRY (R468): 60 s have passed since the PAIR_STATUS nonce was drawn. -/
  | pairNonceExpiry (t : Instant)
  /-- BOOT_SELECT (R479): the ROM chooses an image; how the MRAM words that it reads read (R37). -/
  | bootSelect (x : BootStart)
  /-- UPD_CONFIRM (R480): UPD_CONFIRM.GO written. -/
  | updConfirm (t : Instant) (m : Master)
  /-- CONFIRM_TIMEOUT (R480): CONFIRM_MS has passed since hand-over. -/
  | confirmTimeout (t : Instant)
  /-- UPD_LOCK_TIMEOUT (R486): 5 s have passed without an accepted update command. -/
  | updLockTimeout (t : Instant)
  /-- ACTIVATION_RESET (R489): 10 ms after an UPD_ACTIVATE with MODE 1. -/
  | activationReset (t : Instant)
  /-- POWER_ON_RESET (R499): PORST_N or power-up. -/
  | powerOnReset (t : Instant) (straps : Straps)
  /-- RESET_N (R499): RESET_N low. -/
  | resetN (t : Instant)
  /-- PCIE_PERST_N (R499): PCIE_PERST_N low. -/
  | pciePerstN (t : Instant)
  /-- POWER_UP_TIMEOUT (R496): 10.2 ms without all supplies in regulation. -/
  | powerUpTimeout (t : Instant)
  /-- SUPPLY_LOSS (R497): the switched supplies (false) or VDD_AON_IN (true) are lost; VBAT holds or not. -/
  | supplyLoss (t : Instant) (aon : Bool) (vbatOk : Bool)
  /-- REGISTER_READ (R41): a read of 2^width bytes. -/
  | registerRead (t : Instant) (m : Master) (addr : Nat) (width : Nat)
  /-- RESYNC_DONE (R394): cycle 2,000 of a resynchronisation. -/
  | resyncDone (t : Instant)
  /-- POWER_STATE_REACHED (R310): the last step of an entry to P3 or P4. -/
  | powerStateReached (t : Instant)
  /-- EXIT_DONE (R312): the readiness points of an exit. -/
  | exitDone (t : Instant)
  /-- PAUSE_EXPIRY (R176): the pause time runs out. -/
  | pauseExpiry (t : Instant) (p : Fin 26)
  /-- RX_LPI_CHANGE (R304): the link partner enters or leaves LPI. -/
  | rxLpiChange (t : Instant) (p : Fin 26) (on : Bool)
  /-- CBS_CREDIT_RECOVERED (R189): the credit of the class rises to 0. -/
  | cbsCreditRecovered (t : Instant) (p : Fin 26) (tc : Fin 8)
deriving DecidableEq, Repr

end Sys2Proof
end

