-- ==== Sys2Proof/Config.lean ====
section
/-! DEFINITION. What an implementation fixes and what the manual leaves open: opaque constants with no body.
Nothing in Lean can evaluate one of them, so a theorem about the machine holds for every value of each. -/

namespace Sys2Proof

/-- The free values: the n-th value that the manual leaves open in a run (log 3). -/
opaque Config.freeValue : Nat → Nat

/-- A cryptographic function of octets, named by a number (log 4): signatures, digests, ciphers and key
derivations are functions that the manual names and does not restate. -/
opaque Config.crypto : Nat → List Byte → List Byte

/-- Whether a signature or tag over octets verifies under a key (log 4): algorithm, key, message, signature. -/
opaque Config.verify : Nat → List Byte → List Byte → List Byte → Bool

/-- The n-th draw of the TRNG and its DRBG: octets nothing constrains (log 4). -/
opaque Config.entropy : Nat → Nat → List Byte

/-- Values fixed at the factory (log 5): serial number, keys and key identifiers in mask ROM, silicon revision. -/
opaque Config.fused : Nat → List Byte

/-- The table bank that holds a word of the table array (R17, log 45). -/
opaque Config.tableBank : Nat → Nat

end Sys2Proof
end

