-- ==== Sys2Proof/Machine/Bits.lean ====
section
/-! DEFINITION. Bit fields of 64-bit words (R4), octet strings in both byte orders (R5), and the check sums whose
polynomials the manual states: CRC-32 (R60) and CRC-8 (Table 12.8). -/

namespace Sys2Proof.Machine

/-- Bits [lo + len - 1 : lo] of a word (R4). -/
def fld (v : W64) (lo len : Nat) : Nat := (v.extractLsb' lo len).toNat

/-- Bit i of a word. -/
def bit (v : W64) (i : Nat) : Bool := v.getLsbD i

/-- The word with ones at [lo + len - 1 : lo] only. -/
def maskOf (lo len : Nat) : W64 := (BitVec.ofNat 64 (2 ^ len - 1)) <<< lo

/-- `v` with bits [lo + len - 1 : lo] taken from `new`. -/
def mergeFld (v new : W64) (lo len : Nat) : W64 :=
  (v &&& ~~~(maskOf lo len)) ||| (new &&& maskOf lo len)

/-- `v` with the number x in bits [lo + len - 1 : lo]. -/
def setFld (v : W64) (lo len x : Nat) : W64 := mergeFld v (BitVec.ofNat 64 x <<< lo) lo len

/-- `v` with bit i set to b. -/
def setBit (v : W64) (i : Nat) (b : Bool) : W64 := setFld v i 1 b.toNat

/-- A word from a list of its fields (lo, value). -/
def mkWord (fs : List (Nat × Nat)) : W64 :=
  fs.foldl (fun v p => v ||| (BitVec.ofNat 64 p.2 <<< p.1)) 0

/-- The signed number that the low `len` bits of n spell in two's complement. -/
def toSigned (len n : Nat) : Int :=
  let m := n % 2 ^ len
  if m < 2 ^ (len - 1) then (m : Int) else (m : Int) - (2 ^ len : Nat)

/-- The low `len` bits of an integer in two's complement. -/
def ofSigned (len : Nat) (i : Int) : Nat := (i % (2 ^ len : Nat)).toNat

/-- The number that octets spell in network order, the first octet highest (R5, wire order). -/
def beNat (l : List Byte) : Nat := l.foldl (fun a b => a * 256 + b.toNat) 0

/-- The number that octets spell in little-endian order (R5). -/
def leNat : List Byte → Nat
  | [] => 0
  | b :: l => b.toNat + 256 * leNat l

/-- n in `k` octets, little-endian. -/
def leBytes : Nat → Nat → List Byte
  | 0, _ => []
  | k + 1, n => BitVec.ofNat 8 n :: leBytes k (n / 256)

/-- n in `k` octets, network order. -/
def beBytes (k n : Nat) : List Byte := (leBytes k n).reverse

/-- Octets `off` to `off + len - 1` of a string; absent octets are not there. -/
def slice (l : List Byte) (off len : Nat) : List Byte := (l.drop off).take len

/-- The octet at an offset, 0 where there is none. -/
def octetAt (l : List Byte) (off : Nat) : Nat := (l.getD off 0).toNat

/-- Two octets in network order at an offset. -/
def be16 (l : List Byte) (off : Nat) : Nat := octetAt l off * 256 + octetAt l (off + 1)

/-- The eight octets of a word, little-endian. -/
def wordBytes (v : W64) : List Byte := leBytes 8 v.toNat

/-- The word of up to eight octets, little-endian. -/
def bytesWord (l : List Byte) : W64 := BitVec.ofNat 64 (leNat (l.take 8))

/-- Octets as words of eight, little-endian, the last filled with zeros; `n` bounds the count of words. -/
def bytesWords : Nat → List Byte → List W64
  | 0, _ => []
  | _ + 1, [] => []
  | n + 1, l => bytesWord l :: bytesWords n (l.drop 8)

/-- One bit step of a reflected CRC. -/
def crcStepR (w poly c : Nat) : Nat := if c % 2 = 1 then (c / 2) ^^^ (poly % 2 ^ w) else c / 2

/-- One octet of a reflected CRC of width w with reflected polynomial `poly`. -/
def crcByteR (w poly c : Nat) (b : Byte) : Nat :=
  (List.range 8).foldl (fun a _ => crcStepR w poly a) (c ^^^ b.toNat)

/-- The CRC-32 of IEEE 802.3 (R60): polynomial 0x04C1_1DB7 reflected, initial value and final complement 0xFFFF_FFFF. -/
def crc32 (l : List Byte) : Nat := (l.foldl (crcByteR 32 0xEDB88320) 0xFFFFFFFF) ^^^ 0xFFFFFFFF

/-- One bit step of a CRC taken most significant bit first, of width w. -/
def crcStepL (w poly c : Nat) : Nat :=
  if c / 2 ^ (w - 1) % 2 = 1 then (c * 2 % 2 ^ w) ^^^ poly else c * 2 % 2 ^ w

/-- One octet of a CRC taken most significant bit first. -/
def crcByteL (w poly c : Nat) (b : Byte) : Nat :=
  (List.range 8).foldl (fun a _ => crcStepL w poly a) (c ^^^ (b.toNat * 2 ^ (w - 8)))

/-- The CRC-8 of SPI transactions (Table 12.8): polynomial 0x2F, initial value 0xFF. -/
def crc8 (l : List Byte) : Nat := l.foldl (crcByteL 8 0x2F) 0xFF

end Sys2Proof.Machine
end

