-- ==== Sys2Proof/Machine/Layout.lean ====
section
/-! DEFINITION. The register layout of the DQ2540: for every page the rows of its register tables, each with its
offset, its repetition and its fields (lowest bit, length, access type of Table 0.5, reset value). -/

namespace Sys2Proof

/-- The access types of Table 0.5; `ctr` is a statistics counter (R11). -/
inductive Kind where
  | ro | rw | rws | rwd | rwl | w1c | w1s | wo | ctr
deriving DecidableEq, Repr

/-- A field of a register: its lowest bit, its length, its access type and its reset value. -/
structure Fld where
  lo   : Nat
  len  : Nat
  kind : Kind
  rst  : Nat
deriving DecidableEq, Repr

/-- A row of a register table: `count` registers from `off`, `stride` bytes apart. -/
structure Row where
  off    : Nat
  count  : Nat
  stride : Nat
  flds   : List Fld
deriving DecidableEq, Repr

/-- The common page header (Tables 2.3 to 2.9). PG_ID, the ro part of PG_CAP and PG_STAT.DOMAIN_ON are computed where they are read. -/
def headerRows : List Row := [
  ⟨0x0, 1, 0x8, [⟨0, 64, .ro, 0⟩]⟩, -- PG_ID
  ⟨0x8, 1, 0x8, [⟨0, 2, .rwl, 0⟩, ⟨4, 4, .ro, 0⟩, ⟨8, 1, .ro, 0⟩, ⟨9, 1, .ro, 0⟩, ⟨10, 1, .rwl, 0⟩, ⟨16, 48, .ro, 0⟩]⟩, -- PG_CAP
  ⟨0x10, 1, 0x8, [⟨0, 1, .rw, 0⟩, ⟨1, 1, .w1s, 0⟩, ⟨2, 1, .rw, 0⟩, ⟨3, 1, .rws, 0⟩]⟩, -- PG_CTRL
  ⟨0x18, 1, 0x8, [⟨0, 1, .ro, 0⟩, ⟨1, 1, .ro, 1⟩, ⟨2, 1, .ro, 0⟩, ⟨3, 1, .w1c, 0⟩, ⟨4, 1, .ro, 0⟩, ⟨5, 1, .ro, 0⟩, ⟨6, 1, .w1c, 0⟩, ⟨7, 1, .w1c, 0⟩, ⟨8, 1, .ro, 0⟩, ⟨16, 4, .ro, 0⟩, ⟨20, 3, .ro, 0⟩, ⟨23, 1, .ro, 0⟩]⟩, -- PG_STAT
  ⟨0x20, 1, 0x8, [⟨0, 64, .w1c, 0⟩]⟩, -- IRQ_RAW
  ⟨0x28, 1, 0x8, [⟨0, 64, .rw, 0⟩]⟩, -- IRQ_EN
  ⟨0x30, 1, 0x8, [⟨0, 64, .ro, 0⟩]⟩, -- IRQ_PEND
  ⟨0x38, 1, 0x8, [⟨0, 64, .w1s, 0⟩]⟩, -- IRQ_FORCE
  ⟨0x40, 1, 0x8, [⟨0, 64, .w1c, 0⟩]⟩, -- ERR_RAW
  ⟨0x48, 1, 0x8, [⟨0, 64, .w1s, 0⟩]⟩, -- ERR_FORCE
  ⟨0x50, 1, 0x8, [⟨0, 32, .ro, 0⟩, ⟨32, 32, .ro, 0⟩]⟩, -- CFG_GEN
  ⟨0x58, 1, 0x8, [⟨0, 32, .rw, 0⟩, ⟨32, 1, .rw, 0⟩, ⟨33, 3, .rw, 0⟩]⟩, -- CFG_COMMIT
  ⟨0x60, 1, 0x8, [⟨0, 1, .w1s, 0⟩, ⟨1, 3, .ro, 0⟩]⟩, -- PG_LOCK
  ⟨0x68, 1, 0x8, [⟨0, 32, .rws, 0⟩, ⟨32, 32, .ro, 0⟩]⟩, -- PG_SIG
  ⟨0x70, 1, 0x8, [⟨0, 64, .rw, 0⟩]⟩] -- PG_SCRATCH

/-- CHIP page (Table 2.12). -/
def chipRows : List Row := [
  ⟨0x100, 1, 0x8, [⟨0, 64, .ro, 0⟩]⟩, -- CHIP_AERR_ADDR
  ⟨0x108, 1, 0x8, [⟨0, 3, .ro, 0⟩, ⟨4, 4, .ro, 0⟩, ⟨8, 1, .ro, 0⟩, ⟨9, 3, .ro, 0⟩]⟩, -- CHIP_AERR_INFO
  ⟨0x110, 1, 0x8, [⟨0, 64, .ctr, 0⟩]⟩, -- CHIP_AERR_CNT
  ⟨0x400, 8, 0x20, [⟨0, 64, .rw, 0⟩]⟩, -- CHIP_TIDE_n_SEC
  ⟨0x408, 8, 0x20, [⟨0, 32, .rw, 0⟩, ⟨32, 16, .rw, 0⟩, ⟨48, 3, .rw, 0⟩]⟩, -- CHIP_TIDE_n_NS
  ⟨0x410, 8, 0x20, [⟨0, 1, .w1s, 0⟩, ⟨1, 1, .w1s, 0⟩, ⟨2, 3, .ro, 0⟩, ⟨16, 16, .ro, 0⟩, ⟨32, 16, .ro, 0⟩]⟩, -- CHIP_TIDE_n_CTRL
  ⟨0x418, 8, 0x20, [⟨0, 2, .ro, 0⟩, ⟨4, 4, .ro, 0⟩, ⟨8, 1, .w1c, 0⟩, ⟨9, 3, .ro, 0⟩, ⟨12, 14, .ro, 0⟩]⟩] -- CHIP_TIDE_n_STAT

/-- The MAC page of ports 0 to 25, but for MAC_MODE and MAC_MERGE_CTRL (Tables 3.2 to 3.6, 3.14, 6.7 to 6.9). -/
def macCommonRows : List Row := [
  ⟨0x80, 1, 0x8, [⟨0, 1, .rw, 0⟩, ⟨1, 1, .rw, 0⟩, ⟨2, 1, .rws, 1⟩, ⟨3, 1, .rws, 1⟩, ⟨4, 1, .rws, 0⟩, ⟨5, 1, .rws, 1⟩, ⟨6, 1, .rws, 1⟩, ⟨8, 4, .rwd, 0⟩, ⟨12, 1, .rwd, 0⟩, ⟨13, 1, .rwd, 0⟩, ⟨14, 1, .rws, 1⟩]⟩, -- MAC_CTRL
  ⟨0x90, 1, 0x8, [⟨0, 14, .rws, 0x5f2⟩]⟩, -- MAC_MAXLEN
  ⟨0x98, 1, 0x8, [⟨0, 48, .rwd, 0⟩]⟩, -- MAC_ADDR
  ⟨0xb8, 1, 0x8, [⟨0, 1, .ro, 0⟩, ⟨1, 4, .ro, 0⟩, ⟨5, 1, .ro, 0⟩, ⟨6, 1, .ro, 0⟩, ⟨7, 1, .ro, 0⟩, ⟨8, 1, .ro, 0⟩, ⟨9, 1, .ro, 0⟩, ⟨10, 1, .ro, 0⟩, ⟨11, 1, .ro, 0⟩]⟩, -- MAC_LINK_STAT
  ⟨0xc0, 1, 0x8, [⟨0, 64, .ctr, 0⟩]⟩, -- MAC_LINK_CNT
  ⟨0x100, 7, 0x8, [⟨0, 64, .ctr, 0⟩]⟩, -- RX_OCTETS to RX_PAUSE
  ⟨0x150, 6, 0x8, [⟨0, 64, .ctr, 0⟩]⟩, -- RX_SIZE
  ⟨0x180, 4, 0x8, [⟨0, 64, .ctr, 0⟩]⟩, -- TX_OCTETS to TX_LINK_DROP
  ⟨0x1d0, 1, 0x8, [⟨0, 64, .ctr, 0⟩]⟩] -- RX_SIZE_1523_MAX

/-- Page 0 of ports 26 to 28: MAC_CTRL.RX_EN and TX_EN and five counters (chapter 3). -/
def internalRows : List Row := [
  ⟨0x80, 1, 0x8, [⟨0, 1, .rw, 0⟩, ⟨1, 1, .rw, 0⟩]⟩, -- MAC_CTRL
  ⟨0x100, 2, 0x8, [⟨0, 64, .ctr, 0⟩]⟩, -- RX_OCTETS_RX_FRAMES
  ⟨0x180, 2, 0x8, [⟨0, 64, .ctr, 0⟩]⟩, -- TX_OCTETS_TX_FRAMES
  ⟨0x198, 1, 0x8, [⟨0, 64, .ctr, 0⟩]⟩] -- TX_LINK_DROP

/-- MAC_EEE_CTRL of the M and G ports (Table 3.14, R73). -/
def eeeRows : List Row := [
  ⟨0xa0, 1, 0x8, [⟨0, 1, .rws, 0⟩, ⟨8, 16, .rws, 0x64⟩, ⟨24, 16, .rws, 0⟩]⟩, -- MAC_EEE_CTRL
  ⟨0x1c0, 2, 0x8, [⟨0, 64, .ctr, 0⟩]⟩] -- LPI counters

/-- MAC_MERGE_CTRL (Table 4.13); on S ports it exists, and PE_EN is invalid there. -/
def mergeCtrlRows : List Row := [
  ⟨0xa8, 1, 0x8, [⟨0, 1, .rws, 0⟩, ⟨1, 1, .rws, 0⟩, ⟨2, 7, .rws, 0⟩, ⟨9, 2, .rws, 0⟩, ⟨16, 8, .rws, 0⟩]⟩] -- MAC_MERGE_CTRL

/-- Frame preemption of the B, M and G ports: control, status and counters (Tables 3.2, 3.6, 4.13). -/
def mergeRows : List Row := mergeCtrlRows ++ [
  ⟨0xb0, 1, 0x8, [⟨0, 2, .ro, 0⟩, ⟨2, 1, .ro, 0⟩]⟩, -- MAC_MERGE_STAT
  ⟨0x138, 3, 0x8, [⟨0, 64, .ctr, 0⟩]⟩, -- RX_SMD_ERR, RX_ASSEMBLY_ERR, RX_FRAG
  ⟨0x1a0, 1, 0x8, [⟨0, 64, .ctr, 0⟩]⟩] -- TX_PREEMPTED

/-- The collision counters of the S ports (Table 3.6). -/
def collRows : List Row := [
  ⟨0x1a8, 3, 0x8, [⟨0, 64, .ctr, 0⟩]⟩] -- TX_COLL, TX_LATE_COLL, TX_EXCESS_COLL

/-- MAC_MODE of the B ports (Table 3.4). -/
def macModeBRows : List Row := [
  ⟨0x88, 1, 0x8, [⟨0, 4, .rwd, 6⟩, ⟨4, 2, .rwd, 0⟩, ⟨6, 2, .rwd, 2⟩, ⟨8, 1, .rwd, 1⟩, ⟨9, 2, .rwd, 0⟩]⟩] -- MAC_MODE

/-- MAC_MODE of the M ports (Table 3.4). -/
def macModeMRows : List Row := [
  ⟨0x88, 1, 0x8, [⟨0, 4, .rwd, 5⟩, ⟨4, 2, .rwd, 0⟩, ⟨6, 2, .rwd, 0⟩, ⟨8, 1, .rwd, 1⟩, ⟨9, 2, .rwd, 0⟩]⟩] -- MAC_MODE

/-- MAC_MODE of the G ports (Table 3.4). -/
def macModeGRows : List Row := [
  ⟨0x88, 1, 0x8, [⟨0, 4, .rwd, 2⟩, ⟨4, 2, .rwd, 0⟩, ⟨6, 2, .rwd, 0⟩, ⟨8, 1, .rwd, 1⟩, ⟨9, 2, .rwd, 0⟩]⟩] -- MAC_MODE

/-- MAC_MODE of the S ports (Table 3.4). -/
def macModeSRows : List Row := [
  ⟨0x88, 1, 0x8, [⟨0, 4, .rwd, 0⟩, ⟨4, 2, .rwd, 0⟩, ⟨6, 2, .rwd, 0⟩, ⟨8, 1, .rwd, 1⟩, ⟨9, 2, .rwd, 0⟩]⟩] -- MAC_MODE

/-- Gate and CBS registers of a MAC page (Tables 6.7 to 6.9). -/
def gateMacRows : List Row := [
  ⟨0x200, 1, 0x8, [⟨0, 1, .rws, 0⟩, ⟨1, 3, .rws, 0⟩, ⟨4, 1, .rws, 1⟩, ⟨8, 8, .rws, 0xff⟩, ⟨16, 11, .rws, 1⟩]⟩, -- GCL_CTRL
  ⟨0x208, 1, 0x8, [⟨0, 64, .rws, 0⟩]⟩, -- GCL_BASE_SEC
  ⟨0x210, 1, 0x8, [⟨0, 32, .rws, 0⟩]⟩, -- GCL_BASE_NS
  ⟨0x218, 1, 0x8, [⟨0, 32, .rws, 0xf4240⟩, ⟨32, 32, .rws, 0⟩]⟩, -- GCL_CYCLE
  ⟨0x220, 1, 0x8, [⟨0, 1, .ro, 0⟩, ⟨1, 1, .ro, 0⟩, ⟨2, 1, .w1c, 0⟩, ⟨8, 8, .ro, 0xff⟩, ⟨16, 11, .ro, 0⟩]⟩, -- GCL_STAT
  ⟨0x228, 1, 0x8, [⟨0, 64, .ro, 0⟩]⟩, -- GCL_START_SEC
  ⟨0x230, 1, 0x8, [⟨0, 32, .ro, 0⟩]⟩, -- GCL_START_NS
  ⟨0x238, 1, 0x8, [⟨0, 64, .ctr, 0⟩]⟩, -- GCL_OVERSIZE_DROP
  ⟨0x240, 8, 0x8, [⟨0, 32, .rws, 0⟩, ⟨32, 1, .rws, 0⟩, ⟨40, 24, .rws, 0⟩]⟩] -- CBS_t

/-- Gate and CBS registers of port 26 on QUAY 3 page 1 (Table 6.10). -/
def gateP26Rows : List Row := [
  ⟨0x400, 1, 0x8, [⟨0, 1, .rws, 0⟩, ⟨1, 3, .rws, 0⟩, ⟨4, 1, .rws, 1⟩, ⟨8, 8, .rws, 0xff⟩, ⟨16, 11, .rws, 1⟩]⟩, -- GCL_CTRL
  ⟨0x408, 1, 0x8, [⟨0, 64, .rws, 0⟩]⟩, -- GCL_BASE_SEC
  ⟨0x410, 1, 0x8, [⟨0, 32, .rws, 0⟩]⟩, -- GCL_BASE_NS
  ⟨0x418, 1, 0x8, [⟨0, 32, .rws, 0xf4240⟩, ⟨32, 32, .rws, 0⟩]⟩, -- GCL_CYCLE
  ⟨0x420, 1, 0x8, [⟨0, 1, .ro, 0⟩, ⟨1, 1, .ro, 0⟩, ⟨2, 1, .w1c, 0⟩, ⟨8, 8, .ro, 0xff⟩, ⟨16, 11, .ro, 0⟩]⟩, -- GCL_STAT
  ⟨0x428, 1, 0x8, [⟨0, 64, .ro, 0⟩]⟩, -- GCL_START_SEC
  ⟨0x430, 1, 0x8, [⟨0, 32, .ro, 0⟩]⟩, -- GCL_START_NS
  ⟨0x438, 1, 0x8, [⟨0, 64, .ctr, 0⟩]⟩, -- GCL_OVERSIZE_DROP
  ⟨0x440, 8, 0x8, [⟨0, 32, .rws, 0⟩, ⟨32, 1, .rws, 0⟩, ⟨40, 24, .rws, 0⟩]⟩] -- CBS_t

/-- Registers of a PCS/PHY page that every port type has (Table 3.9). -/
def phyCommonRows : List Row := [
  ⟨0x80, 1, 0x8, [⟨0, 1, .ro, 0⟩, ⟨1, 1, .ro, 0⟩, ⟨2, 1, .ro, 0⟩, ⟨3, 1, .ro, 0⟩]⟩, -- PHY_STAT
  ⟨0x98, 1, 0x8, [⟨0, 3, .ro, 0⟩, ⟨4, 3, .w1c, 0⟩]⟩, -- PHY_SQI
  ⟨0xb0, 1, 0x8, [⟨0, 1, .w1s, 0⟩]⟩, -- PHY_DIAG_CTRL
  ⟨0xb8, 1, 0x8, [⟨0, 3, .ro, 0⟩, ⟨8, 12, .ro, 0⟩, ⟨20, 8, .ro, 0⟩]⟩] -- PHY_DIAG_RESULT

/-- Warm relink registers and counters of B, M and G ports (Tables 3.9, 3.11, 3.12). -/
def phyWarmRows : List Row := [
  ⟨0xa0, 1, 0x8, [⟨0, 1, .rw, 1⟩, ⟨1, 1, .w1s, 0⟩, ⟨2, 1, .w1s, 0⟩, ⟨4, 8, .rw, 0x18⟩, ⟨12, 3, .rw, 5⟩, ⟨16, 16, .rw, 0x18⟩]⟩, -- PHY_WARM_CTRL
  ⟨0xa8, 1, 0x8, [⟨0, 1, .ro, 0⟩, ⟨1, 2, .ro, 0⟩]⟩, -- PHY_WARM_STAT
  ⟨0x200, 1, 0x8, [⟨0, 64, .ctr, 0⟩]⟩, -- WARM_OK
  ⟨0x208, 1, 0x8, [⟨0, 64, .ctr, 0⟩]⟩, -- WARM_FB_CHANNEL
  ⟨0x218, 1, 0x8, [⟨0, 64, .ctr, 0⟩]⟩, -- WARM_FB_TIMEOUT
  ⟨0x220, 1, 0x8, [⟨0, 64, .ctr, 0⟩]⟩, -- WARM_NO_RECORD
  ⟨0x238, 1, 0x8, [⟨0, 64, .ctr, 0⟩]⟩] -- BLOCK_ERR

/-- FEC counters of B and M ports (Table 3.11). -/
def phyFecRows : List Row := [
  ⟨0x228, 1, 0x8, [⟨0, 64, .ctr, 0⟩]⟩, -- FEC_CORRECTED
  ⟨0x230, 1, 0x8, [⟨0, 64, .ctr, 0⟩]⟩] -- FEC_UNCORRECTED

/-- B ports only (Table 3.9). -/
def phyBRows : List Row := [
  ⟨0xd0, 1, 0x8, [⟨0, 6, .rwd, 0⟩, ⟨8, 6, .rwd, 0x20⟩, ⟨16, 6, .rwd, 3⟩]⟩] -- HSS_TXEQ

/-- M and G ports only (Tables 3.9, 3.11). The reset of PHY_AN_ADV is per type and not stated: zero (log 6). -/
def phyMGRows : List Row := [
  ⟨0x88, 1, 0x8, [⟨0, 64, .rwd, 0⟩]⟩, -- PHY_AN_ADV
  ⟨0x90, 1, 0x8, [⟨0, 64, .ro, 0⟩]⟩, -- PHY_AN_LP
  ⟨0xc0, 1, 0x8, [⟨0, 1, .w1s, 0⟩, ⟨1, 1, .rw, 0⟩, ⟨2, 1, .w1s, 0⟩]⟩, -- PHY_TC10_CTRL
  ⟨0xc8, 1, 0x8, [⟨0, 3, .ro, 0⟩]⟩, -- PHY_TC10_STAT
  ⟨0x210, 1, 0x8, [⟨0, 64, .ctr, 0⟩]⟩, -- WARM_FB_PARTNER
  ⟨0x290, 1, 0x8, [⟨0, 64, .ctr, 0⟩]⟩, -- TC10_SLEEP_OK
  ⟨0x298, 1, 0x8, [⟨0, 64, .ctr, 0⟩]⟩] -- TC10_SLEEP_FAIL

/-- S ports only (Tables 3.9 to 3.11). -/
def phySRows : List Row := [
  ⟨0xd8, 1, 0x8, [⟨0, 1, .rws, 0⟩, ⟨1, 8, .rws, 0⟩, ⟨9, 8, .rws, 8⟩, ⟨17, 8, .rws, 0x20⟩, ⟨25, 8, .rws, 0⟩, ⟨33, 8, .rws, 0x80⟩, ⟨41, 1, .rws, 0⟩, ⟨42, 1, .rws, 0⟩]⟩, -- PLCA_CTRL
  ⟨0xe0, 1, 0x8, [⟨0, 1, .ro, 0⟩, ⟨1, 1, .ro, 0⟩, ⟨2, 1, .w1c, 0⟩, ⟨3, 5, .ro, 0⟩, ⟨8, 48, .ro, 0⟩]⟩, -- PLCA_STAT
  ⟨0xe8, 1, 0x8, [⟨0, 16, .rws, 0x40⟩, ⟨32, 16, .rws, 0x3e8⟩]⟩, -- S_NOISE_CTRL
  ⟨0x100, 32, 0x8, [⟨0, 48, .rws, 0⟩, ⟨48, 1, .rws, 0⟩, ⟨63, 1, .rws, 0⟩]⟩, -- S_NODE_n
  ⟨0x240, 10, 0x8, [⟨0, 64, .ctr, 0⟩]⟩] -- PLCA_LOSS_to_JABBER_TX

/-- Time-stamp page (Table 7.9). -/
def tsRows : List Row := [
  ⟨0x80, 1, 0x8, [⟨0, 1, .rw, 1⟩, ⟨1, 1, .rw, 1⟩]⟩, -- TS_CTRL
  ⟨0x88, 1, 0x8, [⟨0, 32, .ro, 0⟩, ⟨32, 32, .ro, 0⟩]⟩, -- TS_PHY_LAT
  ⟨0x90, 1, 0x8, [⟨0, 32, .rw, 0⟩, ⟨32, 32, .rw, 0⟩]⟩, -- TS_USER_LAT
  ⟨0x98, 1, 0x8, [⟨0, 6, .ro, 0⟩, ⟨8, 1, .w1c, 0⟩]⟩, -- TS_TXQ_STAT
  ⟨0xa0, 1, 0x8, [⟨0, 64, .ctr, 0⟩]⟩, -- TS_TXQ_LOST
  ⟨0x800, 256, 0x8, [⟨0, 64, .ro, 0⟩]⟩] -- TS_TXQ_DRAIN

/-- MACsec page (Table 13.15). -/
def macsecRows : List Row := [
  ⟨0x80, 1, 0x8, [⟨0, 1, .rws, 0⟩, ⟨1, 1, .rws, 0⟩, ⟨2, 2, .rws, 2⟩, ⟨4, 1, .rws, 1⟩, ⟨5, 1, .rws, 0⟩, ⟨6, 2, .rws, 0⟩, ⟨8, 1, .rws, 1⟩]⟩, -- MACSEC_CTRL
  ⟨0x88, 1, 0x8, [⟨0, 9, .rw, 0⟩]⟩, -- MACSEC_TX_SA
  ⟨0x90, 1, 0x8, [⟨0, 32, .rws, 0⟩]⟩, -- MACSEC_REPLAY
  ⟨0x98, 1, 0x8, [⟨0, 64, .rws, 0xc0000000⟩]⟩, -- MACSEC_PN_WARN
  ⟨0xa0, 1, 0x8, [⟨0, 16, .rws, 0x888e⟩, ⟨16, 1, .rws, 1⟩]⟩, -- MACSEC_BYPASS
  ⟨0x100, 9, 0x8, [⟨0, 64, .ctr, 0⟩]⟩] -- MACSEC_counters

/-- QUAY page 0 (Tables 4.20 to 4.22). -/
def quay0Rows : List Row := [
  ⟨0x80, 1, 0x8, [⟨0, 16, .rws, 0⟩, ⟨16, 1, .rws, 1⟩, ⟨17, 1, .rws, 1⟩]⟩, -- QUAY_PARSE_CTRL
  ⟨0x88, 1, 0x8, [⟨0, 1, .rws, 1⟩]⟩, -- QUAY_CT_CTRL
  ⟨0x90, 1, 0x8, [⟨0, 18, .rws, 0x4000⟩]⟩, -- QUAY_BUF_RSV
  ⟨0x98, 1, 0x8, [⟨0, 3, .rws, 4⟩, ⟨16, 16, .rws, 0x800⟩]⟩, -- QUAY_ADM_CTRL
  ⟨0xa0, 1, 0x8, [⟨0, 18, .ro, 0⟩, ⟨18, 18, .ro, 0⟩, ⟨36, 18, .ro, 0⟩]⟩, -- QUAY_BUF_STAT
  ⟨0xb0, 1, 0x8, [⟨0, 16, .rw, 0x12c⟩]⟩, -- QUAY_AGE_CTRL
  ⟨0xb8, 1, 0x8, [⟨0, 10, .rw, 0⟩]⟩, -- QUAY_SF_SEL
  ⟨0xc0, 1, 0x8, [⟨0, 1, .w1c, 0⟩]⟩, -- QUAY_SF_STATE
  ⟨0xc8, 4, 0x8, [⟨0, 64, .ctr, 0⟩]⟩, -- QUAY_SF_counters
  ⟨0x200, 18, 0x8, [⟨0, 64, .ctr, 0⟩]⟩] -- QUAY_counters

/-- QUAY_PORT_CFG_j of the n ports of a quay (Table 4.21). -/
def quayPortCfgRows : List Row := [
  ⟨0x100, 1, 0x8, [⟨0, 12, .rws, 1⟩, ⟨12, 3, .rws, 0⟩, ⟨16, 2, .rws, 1⟩, ⟨18, 1, .rws, 1⟩, ⟨19, 1, .rws, 1⟩, ⟨20, 1, .rws, 1⟩]⟩] -- QUAY_PORT_CFG_j

/-- QUAY page 1 (Table 6.10). -/
def quay1Rows : List Row := [
  ⟨0x80, 1, 0x8, [⟨0, 11, .rw, 0⟩]⟩, -- QUAY_SHP_SEL
  ⟨0x88, 1, 0x8, [⟨0, 1, .ro, 0⟩, ⟨1, 1, .ro, 0⟩, ⟨2, 1, .ro, 0⟩]⟩, -- QUAY_SHP_STATE
  ⟨0x90, 1, 0x8, [⟨0, 64, .ro, 0⟩]⟩, -- QUAY_SHP_NET
  ⟨0x98, 1, 0x8, [⟨0, 64, .ro, 0⟩]⟩, -- QUAY_SHP_BUCKETS
  ⟨0xa0, 1, 0x8, [⟨0, 9, .rw, 0⟩]⟩, -- QUAY_QC_SEL
  ⟨0xa8, 1, 0x8, [⟨0, 18, .ro, 0⟩, ⟨18, 18, .ro, 0⟩]⟩, -- QUAY_QC_STAT
  ⟨0xb0, 1, 0x8, [⟨0, 64, .ro, 0⟩]⟩, -- QUAY_QC_TAG
  ⟨0xb8, 1, 0x8, [⟨0, 12, .ro, 0⟩]⟩, -- QUAY_FB_ACTIVE
  ⟨0x100, 5, 0x8, [⟨0, 64, .ctr, 0⟩]⟩] -- QUAY_FB_counters

/-- QUAY page 2 (Table 6.11). -/
def quay2Rows : List Row := [
  ⟨0x80, 1, 0x8, [⟨0, 1, .rw, 0⟩, ⟨8, 10, .rw, 0x64⟩, ⟨20, 12, .rw, 0x40⟩]⟩, -- QUAY_SAMP_CTRL
  ⟨0x88, 1, 0x8, [⟨0, 13, .ro, 0⟩, ⟨16, 1, .w1c, 0⟩]⟩, -- QUAY_SAMP_STAT
  ⟨0x90, 1, 0x8, [⟨0, 64, .ctr, 0⟩]⟩, -- QUAY_SAMP_LOST
  ⟨0xc0, 8, 0x8, [⟨0, 64, .rw, 0⟩]⟩, -- QUAY_SAMP_MASK_m
  ⟨0x800, 256, 0x8, [⟨0, 64, .ro, 0⟩]⟩] -- QUAY_SAMP_DRAIN

/-- BWT page 0 (Tables 5.12, 5.18, 5.19). -/
def bwt0Rows : List Row := [
  ⟨0x80, 1, 0x8, [⟨0, 1, .rws, 1⟩, ⟨1, 1, .rws, 1⟩, ⟨2, 1, .rws, 1⟩, ⟨3, 1, .rws, 0⟩]⟩, -- BWT_CTRL
  ⟨0x88, 1, 0x8, [⟨0, 16, .rws, 0xa⟩, ⟨16, 16, .rws, 0x258⟩, ⟨32, 16, .rws, 0xa⟩]⟩, -- BWT_TMO_TCP
  ⟨0x90, 1, 0x8, [⟨0, 16, .rws, 0x1e⟩, ⟨16, 16, .rws, 0x78⟩, ⟨32, 16, .rws, 0x1e⟩]⟩, -- BWT_TMO_UDP
  ⟨0x98, 1, 0x8, [⟨0, 4, .rws, 0⟩, ⟨4, 1, .rws, 0⟩]⟩, -- BWT_QUAR_CTRL
  ⟨0xa0, 1, 0x8, [⟨0, 1, .rw, 1⟩, ⟨16, 11, .rw, 0x400⟩]⟩, -- BWT_LOG_CTRL
  ⟨0xa8, 1, 0x8, [⟨0, 11, .ro, 0⟩]⟩, -- BWT_LOG_HEAD
  ⟨0xb0, 1, 0x8, [⟨0, 11, .rw, 0⟩]⟩, -- BWT_LOG_TAIL
  ⟨0xb8, 1, 0x8, [⟨0, 3, .rw, 0⟩, ⟨3, 1, .rw, 0⟩, ⟨4, 15, .rw, 0⟩, ⟨19, 6, .rw, 0⟩, ⟨25, 11, .rw, 0⟩, ⟨63, 1, .ro, 0⟩]⟩, -- BWT_FLOW_CMD
  ⟨0xc0, 1, 0x8, [⟨0, 16, .ro, 0⟩]⟩, -- BWT_FLOW_USED
  ⟨0x100, 16, 0x8, [⟨0, 64, .ctr, 0⟩]⟩] -- BWT_counters

/-- BWT page 1 (Table 5.20). -/
def bwt1Rows : List Row := [
  ⟨0x80, 1, 0x8, [⟨0, 12, .rwl, 0⟩]⟩, -- BWT_SEAL_RULES
  ⟨0x88, 1, 0x8, [⟨0, 64, .rwl, 0⟩]⟩, -- BWT_SEAL_SRC
  ⟨0x90, 1, 0x8, [⟨0, 64, .rwl, 0⟩]⟩, -- BWT_SEAL_ZP
  ⟨0x100, 4, 0x18, [⟨0, 64, .rw, 0⟩]⟩, -- BWT_DIAG_s_ZONES
  ⟨0x108, 4, 0x18, [⟨0, 64, .rw, 0⟩]⟩, -- BWT_DIAG_s_EXP
  ⟨0x110, 4, 0x18, [⟨0, 1, .rw, 0⟩, ⟨1, 1, .w1s, 0⟩, ⟨32, 32, .rw, 0⟩]⟩] -- BWT_DIAG_s_CTRL

/-- TIME page 0 (Tables 7.2, 7.3). -/
def time0Rows : List Row := [
  ⟨0x80, 1, 0x8, [⟨0, 64, .ro, 0⟩]⟩, -- TIME_LOCAL_SEC
  ⟨0x88, 1, 0x8, [⟨0, 32, .ro, 0⟩, ⟨32, 16, .ro, 0⟩]⟩, -- TIME_LOCAL_NS
  ⟨0x90, 1, 0x8, [⟨0, 1, .w1s, 0⟩, ⟨1, 1, .ro, 0⟩]⟩, -- TIME_SNAP
  ⟨0xa0, 1, 0x8, [⟨0, 64, .ro, 0⟩]⟩, -- TIME_SNAP_LOCAL_SEC
  ⟨0xa8, 1, 0x8, [⟨0, 48, .ro, 0⟩]⟩, -- TIME_SNAP_LOCAL_NS
  ⟨0xb0, 4, 0x10, [⟨0, 64, .ro, 0⟩]⟩, -- TIME_SNAP_d_SEC
  ⟨0xb8, 4, 0x10, [⟨0, 48, .ro, 0⟩]⟩, -- TIME_SNAP_d_NS
  ⟨0x100, 4, 0x40, [⟨0, 1, .rw, 0⟩, ⟨1, 1, .rw, 0⟩, ⟨16, 16, .rw, 0⟩]⟩, -- TIME_D_d_CTRL
  ⟨0x108, 4, 0x40, [⟨0, 40, .rw, 0⟩]⟩, -- TIME_D_d_RATE
  ⟨0x110, 4, 0x40, [⟨0, 64, .rw, 0⟩]⟩, -- TIME_D_d_SET_SEC
  ⟨0x118, 4, 0x40, [⟨0, 32, .rw, 0⟩, ⟨32, 16, .rw, 0⟩]⟩, -- TIME_D_d_SET_NS
  ⟨0x120, 4, 0x40, [⟨0, 64, .rw, 0⟩]⟩, -- TIME_D_d_OFFSET
  ⟨0x128, 4, 0x40, [⟨0, 1, .w1s, 0⟩, ⟨1, 1, .w1s, 0⟩]⟩, -- TIME_D_d_CMD
  ⟨0x130, 4, 0x40, [⟨0, 1, .w1c, 0⟩, ⟨1, 1, .w1c, 0⟩, ⟨2, 1, .ro, 0⟩, ⟨8, 1, .ro, 0⟩, ⟨9, 1, .ro, 0⟩, ⟨10, 1, .ro, 0⟩, ⟨11, 1, .ro, 0⟩, ⟨12, 1, .ro, 0⟩]⟩, -- TIME_D_d_STAT
  ⟨0x138, 4, 0x40, [⟨0, 64, .ctr, 0⟩]⟩] -- TIME_D_d_STEPS

/-- TIME page 1 (Table 7.6). -/
def time1Rows : List Row := [
  ⟨0x80, 8, 0x30, [⟨0, 1, .w1s, 0⟩, ⟨1, 1, .w1s, 0⟩, ⟨2, 3, .rw, 0⟩, ⟨5, 1, .rw, 0⟩, ⟨6, 1, .rw, 0⟩]⟩, -- TOUT_n_CTRL
  ⟨0x88, 8, 0x30, [⟨0, 64, .rw, 0⟩]⟩, -- TOUT_n_START_SEC
  ⟨0x90, 8, 0x30, [⟨0, 32, .rw, 0⟩, ⟨32, 16, .rw, 0⟩]⟩, -- TOUT_n_START_NS
  ⟨0x98, 8, 0x30, [⟨0, 40, .rw, 0⟩]⟩, -- TOUT_n_PERIOD
  ⟨0xa0, 8, 0x30, [⟨0, 32, .rw, 0⟩]⟩, -- TOUT_n_WIDTH
  ⟨0xa8, 8, 0x30, [⟨0, 2, .ro, 0⟩, ⟨4, 3, .ro, 0⟩, ⟨8, 1, .w1c, 0⟩, ⟨32, 32, .ro, 0⟩]⟩, -- TOUT_n_STAT
  ⟨0x200, 8, 0x18, [⟨0, 1, .rw, 0⟩, ⟨1, 2, .rw, 0⟩, ⟨3, 3, .rw, 0⟩]⟩, -- TCAP_m_CTRL
  ⟨0x208, 8, 0x18, [⟨0, 4, .ro, 0⟩, ⟨4, 1, .w1c, 0⟩]⟩, -- TCAP_m_STAT
  ⟨0x210, 8, 0x18, [⟨0, 64, .ctr, 0⟩]⟩, -- TCAP_m_LOST
  ⟨0x800, 256, 0x8, [⟨0, 64, .ro, 0⟩]⟩] -- TCAP_m_DRAIN

/-- FERRY page (Tables 8.9, 8.10). -/
def ferryRows : List Row := [
  ⟨0x80, 1, 0x8, [⟨0, 1, .rws, 1⟩, ⟨1, 3, .rws, 4⟩]⟩, -- FERRY_CTRL
  ⟨0x88, 1, 0x8, [⟨0, 48, .rws, 0⟩]⟩, -- FERRY_MAC
  ⟨0x90, 4, 0x8, [⟨0, 5, .rws, 0⟩, ⟨8, 5, .rws, 0⟩, ⟨16, 5, .rws, 0⟩, ⟨24, 5, .rws, 0⟩, ⟨32, 5, .rws, 0⟩, ⟨40, 5, .rws, 0⟩, ⟨48, 5, .rws, 0⟩, ⟨56, 5, .rws, 0⟩]⟩, -- FERRY_BUSID_m
  ⟨0xb0, 1, 0x8, [⟨0, 64, .ctr, 0⟩]⟩, -- FERRY_WAIT_MAX
  ⟨0xb8, 1, 0x8, [⟨0, 7, .ro, 0⟩, ⟨7, 1, .ro, 0⟩]⟩, -- FERRY_STAT
  ⟨0x200, 16, 0x8, [⟨0, 64, .ctr, 0⟩]⟩] -- FERRY_counters

/-- CAN page (Tables 8.16 to 8.20). -/
def canRows : List Row := [
  ⟨0x80, 1, 0x8, [⟨0, 2, .rwd, 1⟩, ⟨2, 1, .rwd, 0⟩, ⟨3, 1, .rwd, 0⟩, ⟨4, 1, .rwd, 0⟩, ⟨5, 1, .rwd, 1⟩, ⟨6, 1, .rwd, 0⟩]⟩, -- CAN_MODE
  ⟨0x88, 1, 0x8, [⟨0, 6, .rwd, 2⟩, ⟨8, 9, .rwd, 0x7f⟩, ⟨24, 8, .rwd, 0x20⟩, ⟨32, 8, .rwd, 0x20⟩, ⟨40, 1, .rwd, 0⟩, ⟨48, 8, .rwd, 0⟩]⟩, -- CAN_NBT
  ⟨0x90, 1, 0x8, [⟨0, 6, .rwd, 1⟩, ⟨8, 9, .rwd, 0x3b⟩, ⟨24, 8, .rwd, 0x14⟩, ⟨32, 8, .rwd, 0x14⟩, ⟨40, 1, .rwd, 1⟩, ⟨48, 8, .rwd, 0x3c⟩]⟩, -- CAN_DBT
  ⟨0x98, 1, 0x8, [⟨0, 6, .rwd, 1⟩, ⟨8, 9, .rwd, 0xb⟩, ⟨24, 8, .rwd, 4⟩, ⟨32, 8, .rwd, 4⟩, ⟨40, 1, .rwd, 1⟩, ⟨48, 8, .rwd, 0xc⟩]⟩, -- CAN_XBT
  ⟨0xa0, 1, 0x8, [⟨0, 6, .rwd, 0⟩, ⟨8, 6, .rwd, 0⟩, ⟨16, 6, .rwd, 0⟩]⟩, -- CAN_XPWM
  ⟨0xa8, 1, 0x8, [⟨0, 16, .rw, 0⟩]⟩, -- CAN_TX_CTRL
  ⟨0xb0, 1, 0x8, [⟨0, 1, .rw, 1⟩, ⟨8, 1, .ro, 0⟩, ⟨9, 2, .ro, 0⟩]⟩, -- CAN_XCVR_CTRL
  ⟨0xb8, 1, 0x8, [⟨0, 1, .w1s, 0⟩]⟩, -- CAN_CMD
  ⟨0xc0, 1, 0x8, [⟨0, 8, .ro, 0⟩, ⟨8, 8, .ro, 0⟩, ⟨16, 2, .ro, 0⟩, ⟨18, 1, .ro, 0⟩, ⟨19, 1, .ro, 0⟩, ⟨24, 8, .ro, 0⟩, ⟨32, 10, .ro, 0⟩, ⟨48, 6, .ro, 0⟩]⟩, -- CAN_STAT
  ⟨0x100, 8, 0x18, [⟨0, 8, .rws, 0⟩, ⟨8, 2, .rws, 0⟩, ⟨10, 8, .rws, 0⟩, ⟨18, 1, .rws, 0⟩, ⟨19, 1, .rws, 0⟩, ⟨20, 1, .rws, 0⟩, ⟨63, 1, .rws, 0⟩]⟩, -- CAN_SEC_n_CFG
  ⟨0x108, 8, 0x18, [⟨0, 32, .ro, 0⟩, ⟨32, 32, .ro, 0⟩]⟩, -- CAN_SEC_n_FV
  ⟨0x110, 8, 0x18, [⟨0, 16, .rws, 0⟩]⟩, -- CAN_SEC_n_WIN
  ⟨0x200, 20, 0x8, [⟨0, 64, .ctr, 0⟩]⟩] -- CAN_counters

/-- LIN page (Table 8.21). -/
def linRows : List Row := [
  ⟨0x80, 1, 0x8, [⟨0, 1, .rwd, 1⟩, ⟨8, 16, .rwd, 0x4b00⟩, ⟨24, 5, .rwd, 0xd⟩, ⟨29, 1, .rwd, 0⟩]⟩, -- LIN_MODE
  ⟨0x88, 1, 0x8, [⟨0, 1, .rw, 0⟩]⟩, -- LIN_SCHED
  ⟨0x90, 1, 0x8, [⟨0, 1, .w1s, 0⟩, ⟨1, 1, .w1s, 0⟩]⟩, -- LIN_CMD
  ⟨0x98, 1, 0x8, [⟨0, 1, .rw, 1⟩, ⟨8, 1, .ro, 0⟩, ⟨9, 2, .ro, 0⟩]⟩, -- LIN_XCVR_CTRL
  ⟨0xa0, 1, 0x8, [⟨0, 13, .rw, 0x3e8⟩, ⟨32, 16, .rw, 0x64⟩]⟩, -- LIN_WAKE
  ⟨0xa8, 1, 0x8, [⟨0, 1, .ro, 0⟩, ⟨1, 1, .w1c, 0⟩, ⟨2, 6, .ro, 0⟩, ⟨8, 1, .ro, 0⟩, ⟨16, 16, .ro, 0⟩]⟩, -- LIN_STAT
  ⟨0x200, 8, 0x8, [⟨0, 64, .ctr, 0⟩]⟩, -- LIN_counters
  ⟨0x400, 64, 0x8, [⟨0, 64, .ro, 0⟩]⟩, -- LIN_PUB_f
  ⟨0x600, 1, 0x8, [⟨0, 64, .ro, 0⟩]⟩] -- LIN_PUB_VALID

/-- XWE page (Tables 9.4 to 9.8). -/
def xweRows : List Row := [
  ⟨0x80, 1, 0x8, [⟨0, 10, .rws, 0x64⟩]⟩, -- XWE_CTRL
  ⟨0x88, 1, 0x8, [⟨0, 7, .ro, 0⟩, ⟨8, 7, .ro, 0⟩]⟩, -- XWE_TAP_STAT
  ⟨0x90, 1, 0x8, [⟨0, 8, .rw, 0⟩]⟩, -- XWE_SIG_SEL
  ⟨0x98, 1, 0x8, [⟨0, 64, .ro, 0⟩]⟩, -- XWE_SIG_VAL
  ⟨0xa0, 1, 0x8, [⟨0, 64, .ro, 0⟩]⟩, -- XWE_SIG_SEC
  ⟨0xa8, 1, 0x8, [⟨0, 32, .ro, 0⟩, ⟨32, 16, .ro, 0⟩, ⟨48, 1, .ro, 0⟩, ⟨49, 2, .ro, 0⟩, ⟨63, 1, .ro, 0⟩]⟩, -- XWE_SIG_NS
  ⟨0xb0, 1, 0x8, [⟨0, 64, .ro, 0⟩]⟩, -- XWE_SIG_CNT
  ⟨0xb8, 1, 0x8, [⟨0, 6, .rw, 0⟩]⟩, -- XWE_CMP_SEL
  ⟨0xc0, 1, 0x8, [⟨0, 2, .ro, 0⟩, ⟨2, 1, .ro, 0⟩, ⟨3, 1, .ro, 0⟩, ⟨32, 32, .ro, 0⟩]⟩, -- XWE_CMP_STAT
  ⟨0xc8, 1, 0x8, [⟨0, 64, .ro, 0⟩]⟩, -- XWE_CMP_DEV
  ⟨0xd0, 1, 0x8, [⟨0, 64, .ro, 0⟩]⟩, -- XWE_VIOL_ACTIVE
  ⟨0xd8, 1, 0x8, [⟨0, 64, .w1c, 0⟩]⟩, -- XWE_VIOL_LATCH
  ⟨0x100, 64, 0x18, [⟨0, 1, .rws, 0⟩, ⟨1, 2, .rws, 0⟩, ⟨3, 1, .rws, 0⟩, ⟨8, 8, .rws, 0⟩, ⟨16, 8, .rws, 0⟩, ⟨24, 8, .rws, 0⟩, ⟨32, 8, .rws, 0⟩, ⟨63, 1, .rws, 0⟩]⟩, -- XWE_CMP_c_CTRL
  ⟨0x108, 64, 0x18, [⟨0, 32, .rws, 0x1000000⟩, ⟨32, 32, .rws, 0⟩]⟩, -- XWE_CMP_c_CORR
  ⟨0x110, 64, 0x18, [⟨0, 24, .rws, 0⟩, ⟨24, 8, .rws, 0⟩, ⟨32, 12, .rws, 0x64⟩, ⟨44, 12, .rws, 0⟩, ⟨56, 8, .rws, 0⟩]⟩, -- XWE_CMP_c_TOL
  ⟨0x700, 6, 0x8, [⟨0, 64, .ctr, 0⟩]⟩] -- XWE_counters

/-- BUOY page 0 (Tables 10.6, 10.7). -/
def buoy0Rows : List Row := [
  ⟨0x80, 1, 0x8, [⟨0, 8, .rws, 0⟩, ⟨8, 8, .rws, 0x32⟩]⟩, -- BUOY_CTRL
  ⟨0x100, 24, 0x8, [⟨0, 2, .rws, 2⟩, ⟨2, 1, .rws, 0⟩, ⟨3, 1, .rws, 0⟩, ⟨4, 8, .rws, 0x20⟩, ⟨12, 8, .rws, 5⟩, ⟨20, 1, .rws, 0⟩]⟩, -- BUOY_CAN_k
  ⟨0x1c0, 8, 0x8, [⟨0, 13, .rws, 0x96⟩, ⟨16, 1, .rws, 0⟩]⟩, -- BUOY_LIN_l
  ⟨0x200, 8, 0x8, [⟨0, 1, .rws, 0⟩, ⟨1, 2, .rws, 0⟩, ⟨8, 16, .rws, 0x3e8⟩]⟩, -- BUOY_PIN_m
  ⟨0x240, 1, 0x8, [⟨0, 22, .rws, 0⟩]⟩, -- BUOY_PHY_WAKE
  ⟨0x280, 1, 0x8, [⟨0, 1, .rwl, 0⟩, ⟨1, 1, .w1s, 0⟩, ⟨2, 1, .w1s, 0⟩, ⟨4, 3, .rwl, 0⟩]⟩, -- BUOY_KEEP_CTRL
  ⟨0x288, 1, 0x8, [⟨0, 2, .ro, 0⟩, ⟨2, 1, .ro, 0⟩, ⟨3, 1, .ro, 0⟩, ⟨4, 1, .w1c, 0⟩]⟩, -- BUOY_KEEP_STAT
  ⟨0x2c0, 1, 0x8, [⟨0, 7, .ro, 0⟩, ⟨7, 2, .ro, 0⟩, ⟨9, 1, .ro, 0⟩, ⟨32, 32, .ro, 0⟩]⟩, -- BUOY_LAST_WAKE
  ⟨0x2d0, 1, 0x8, [⟨0, 7, .rw, 0⟩]⟩, -- BUOY_SRC_SEL
  ⟨0x2d8, 3, 0x8, [⟨0, 64, .ctr, 0⟩]⟩, -- BUOY_SRC_counters
  ⟨0x300, 32, 0x8, [⟨0, 3, .ro, 0⟩, ⟨3, 1, .ro, 0⟩, ⟨4, 1, .ro, 0⟩, ⟨32, 32, .ro, 0⟩]⟩, -- BUOY_NM_STAT_n
  ⟨0x400, 1, 0x8, [⟨0, 32, .rw, 0⟩]⟩, -- BUOY_NM_LOCAL
  ⟨0x480, 4, 0x8, [⟨0, 64, .ctr, 0⟩]⟩] -- BUOY_counters

/-- BUOY page 1: the 64 filters of three words (Table 10.8). -/
def buoy1Rows : List Row := [
  ⟨0x80, 64, 0x18, [⟨0, 29, .rws, 0⟩, ⟨29, 29, .rws, 0⟩, ⟨58, 1, .rws, 0⟩, ⟨59, 4, .rws, 0⟩, ⟨63, 1, .rws, 0⟩]⟩, -- FILTER_0
  ⟨0x88, 64, 0x18, [⟨0, 64, .rws, 0⟩]⟩, -- FILTER_1
  ⟨0x90, 64, 0x18, [⟨0, 24, .rws, 0⟩, ⟨24, 1, .rws, 0⟩]⟩] -- FILTER_2

/-- BUOY page 2: the 128 action entries (Table 10.9). -/
def buoy2Rows : List Row := [
  ⟨0x80, 128, 0x8, [⟨0, 2, .rws, 0⟩, ⟨2, 3, .rws, 0⟩, ⟨32, 32, .rws, 0⟩]⟩] -- ACTION

/-- BUOY page 3: the 32 NM clusters (Table 10.10). -/
def buoy3Rows : List Row := [
  ⟨0x80, 32, 0x20, [⟨0, 1, .rws, 0⟩, ⟨1, 1, .rws, 0⟩, ⟨2, 5, .rws, 0⟩, ⟨8, 8, .rws, 0⟩, ⟨16, 12, .rws, 0⟩]⟩, -- NM_0
  ⟨0x88, 32, 0x20, [⟨0, 29, .rws, 0⟩, ⟨29, 29, .rws, 0⟩, ⟨58, 1, .rws, 0⟩]⟩, -- NM_1
  ⟨0x90, 32, 0x20, [⟨0, 16, .rws, 0x7d0⟩, ⟨16, 16, .rws, 0x5dc⟩, ⟨32, 16, .rws, 0x1f4⟩]⟩] -- NM_2

/-- PWR page (Tables 11.10 to 11.12). -/
def pwrRows : List Row := [
  ⟨0x80, 1, 0x8, [⟨0, 3, .rw, 2⟩, ⟨3, 1, .rw, 1⟩, ⟨4, 3, .rw, 0⟩, ⟨16, 16, .rw, 0x3e8⟩, ⟨32, 16, .rw, 0x64⟩]⟩, -- PWR_CTRL
  ⟨0x88, 1, 0x8, [⟨0, 3, .ro, 0⟩, ⟨3, 3, .ro, 0⟩, ⟨6, 1, .ro, 0⟩, ⟨8, 4, .ro, 0⟩, ⟨12, 4, .ro, 0⟩, ⟨16, 1, .ro, 0⟩, ⟨17, 1, .ro, 0⟩, ⟨18, 1, .ro, 0⟩, ⟨19, 1, .ro, 0⟩, ⟨20, 1, .ro, 0⟩, ⟨21, 1, .ro, 0⟩]⟩, -- PWR_STAT
  ⟨0x90, 1, 0x8, [⟨0, 3, .ro, 1⟩, ⟨3, 3, .ro, 1⟩, ⟨6, 3, .ro, 1⟩, ⟨9, 3, .ro, 1⟩, ⟨12, 3, .ro, 1⟩, ⟨15, 3, .ro, 1⟩, ⟨18, 3, .ro, 1⟩, ⟨21, 3, .ro, 1⟩, ⟨24, 3, .ro, 1⟩, ⟨27, 3, .ro, 1⟩, ⟨30, 3, .ro, 1⟩, ⟨33, 3, .ro, 1⟩, ⟨36, 3, .ro, 1⟩, ⟨39, 3, .ro, 1⟩, ⟨42, 3, .ro, 1⟩]⟩, -- PWR_DOM_STAT
  ⟨0x98, 1, 0x8, [⟨0, 3, .ro, 0⟩, ⟨3, 1, .ro, 0⟩, ⟨4, 3, .ro, 0⟩, ⟨32, 32, .ro, 0⟩]⟩, -- PWR_LAST_EXIT
  ⟨0xc0, 8, 0x8, [⟨0, 16, .rw, 0⟩, ⟨16, 1, .rw, 0⟩, ⟨17, 1, .rw, 0⟩, ⟨18, 1, .rw, 0⟩]⟩, -- PWR_WCLASS_c
  ⟨0x100, 4, 0x8, [⟨0, 64, .ctr, 0⟩]⟩] -- PWR_counters

/-- HOST page 0 (Table 12.13). -/
def host0Rows : List Row := [
  ⟨0x80, 1, 0x8, [⟨0, 3, .ro, 0⟩, ⟨3, 3, .ro, 0⟩, ⟨6, 1, .ro, 0⟩, ⟨7, 1, .ro, 0⟩, ⟨8, 2, .ro, 0⟩]⟩, -- HOST_PCIE_STAT
  ⟨0x88, 1, 0x8, [⟨0, 1, .rw, 1⟩]⟩, -- HOST_SPI_CTRL
  ⟨0x90, 3, 0x8, [⟨0, 64, .ctr, 0⟩]⟩] -- HOST_counters

/-- HOST page 1 (Tables 12.13, 12.14). -/
def host1Rows : List Row := [
  ⟨0x80, 1, 0x8, [⟨0, 4, .rw, 0⟩, ⟨4, 4, .rw, 0⟩, ⟨8, 4, .rw, 0⟩, ⟨12, 4, .rw, 0⟩, ⟨16, 4, .rw, 0⟩, ⟨20, 4, .rw, 0⟩, ⟨24, 4, .rw, 0⟩, ⟨28, 4, .rw, 0⟩]⟩, -- HOST_RXQ_MAP
  ⟨0x100, 16, 0x40, [⟨12, 52, .rw, 0⟩]⟩, -- TXQ_q_BASE
  ⟨0x108, 16, 0x40, [⟨0, 4, .rw, 0⟩, ⟨4, 1, .rw, 0⟩, ⟨5, 1, .rw, 0⟩, ⟨8, 6, .rw, 0⟩, ⟨16, 6, .rw, 0⟩, ⟨32, 16, .rw, 0⟩]⟩, -- TXQ_q_CFG
  ⟨0x110, 16, 0x40, [⟨0, 15, .ro, 0⟩, ⟨15, 1, .ro, 0⟩, ⟨16, 1, .ro, 1⟩, ⟨17, 15, .ro, 0⟩, ⟨32, 32, .ro, 0⟩]⟩, -- TXQ_q_STAT
  ⟨0x120, 16, 0x40, [⟨12, 52, .rw, 0⟩]⟩, -- RXQ_q_BASE
  ⟨0x128, 16, 0x40, [⟨0, 4, .rw, 0⟩, ⟨4, 1, .rw, 0⟩, ⟨5, 1, .rw, 0⟩, ⟨8, 6, .rw, 0⟩, ⟨16, 6, .rw, 0⟩, ⟨32, 16, .rw, 0⟩]⟩, -- RXQ_q_CFG
  ⟨0x130, 16, 0x40, [⟨0, 15, .ro, 0⟩, ⟨15, 1, .ro, 0⟩, ⟨16, 1, .ro, 1⟩, ⟨17, 15, .ro, 0⟩, ⟨32, 32, .ro, 0⟩]⟩] -- RXQ_q_STAT

/-- HOST page 2 (Table 12.13, R329). -/
def host2Rows : List Row := [
  ⟨0x80, 32, 0x8, [⟨0, 6, .rw, 0⟩, ⟨7, 1, .rw, 0⟩, ⟨8, 6, .rw, 0⟩, ⟨15, 1, .rw, 0⟩, ⟨16, 6, .rw, 0⟩, ⟨23, 1, .rw, 0⟩, ⟨24, 6, .rw, 0⟩, ⟨31, 1, .rw, 0⟩, ⟨32, 6, .rw, 0⟩, ⟨39, 1, .rw, 0⟩, ⟨40, 6, .rw, 0⟩, ⟨47, 1, .rw, 0⟩, ⟨48, 6, .rw, 0⟩, ⟨55, 1, .rw, 0⟩, ⟨56, 6, .rw, 0⟩, ⟨63, 1, .rw, 0⟩]⟩] -- HOST_IRQ_ROUTE_r

/-- MBOX page 0 (Table 12.15). -/
def mbox0Rows : List Row := [
  ⟨0x80, 1, 0x8, [⟨0, 6, .rwl, 0⟩, ⟨8, 6, .rwl, 0⟩, ⟨16, 6, .rwl, 0⟩, ⟨24, 6, .rwl, 0⟩]⟩, -- MBOX_PRIV
  ⟨0x88, 1, 0x8, [⟨0, 1, .rwl, 0⟩, ⟨8, 8, .rwl, 0⟩, ⟨16, 16, .rwl, 0x88b5⟩]⟩, -- MBOX_INB_CTRL
  ⟨0x90, 1, 0x8, [⟨0, 64, .ctr, 0⟩]⟩] -- MBOX_DB_REJECT

/-- MBOX page of a channel (Table 12.15). -/
def mboxChRows : List Row := [
  ⟨0x80, 1, 0x8, [⟨0, 1, .w1s, 0⟩, ⟨1, 1, .w1s, 0⟩]⟩, -- MBOX_CH_CTRL
  ⟨0x88, 1, 0x8, [⟨0, 2, .ro, 0⟩, ⟨2, 1, .w1c, 0⟩, ⟨3, 14, .ro, 0⟩, ⟨17, 15, .ro, 0⟩]⟩, -- MBOX_CH_STAT
  ⟨0x800, 128, 0x8, [⟨0, 64, .wo, 0⟩]⟩, -- MBOX_CH_REQ
  ⟨0xc00, 128, 0x8, [⟨0, 64, .ro, 0⟩]⟩] -- MBOX_CH_RESP

/-- LIGHTER pages 1 to 4: eight channel slots (Tables 12.16, 12.17). -/
def lighterRows : List Row := [
  ⟨0x100, 8, 0x100, [⟨0, 64, .ro, 0⟩]⟩, -- LT_SRC
  ⟨0x108, 8, 0x100, [⟨0, 64, .ro, 0⟩]⟩, -- LT_DST
  ⟨0x110, 8, 0x100, [⟨0, 64, .ro, 0⟩]⟩, -- LT_LEN
  ⟨0x118, 8, 0x100, [⟨0, 64, .ro, 0⟩]⟩, -- LT_CFG
  ⟨0x120, 8, 0x100, [⟨0, 1, .w1s, 0⟩, ⟨1, 1, .w1s, 0⟩, ⟨2, 1, .w1s, 0⟩]⟩, -- LT_CMD
  ⟨0x128, 8, 0x100, [⟨0, 2, .ro, 0⟩, ⟨2, 4, .ro, 0⟩, ⟨6, 1, .ro, 0⟩, ⟨7, 1, .w1c, 0⟩, ⟨8, 3, .ro, 0⟩]⟩, -- LT_STAT
  ⟨0x130, 8, 0x100, [⟨0, 64, .ro, 0⟩]⟩, -- LT_DONE_BYTES
  ⟨0x140, 8, 0x100, [⟨0, 64, .rw, 0⟩]⟩, -- LT_SH_SRC
  ⟨0x148, 8, 0x100, [⟨0, 64, .rw, 0⟩]⟩, -- LT_SH_DST
  ⟨0x150, 8, 0x100, [⟨0, 64, .rw, 0⟩]⟩, -- LT_SH_LEN
  ⟨0x158, 8, 0x100, [⟨0, 9, .rw, 0⟩, ⟨9, 5, .rw, 0⟩, ⟨14, 1, .rw, 0⟩, ⟨15, 1, .rw, 0⟩, ⟨16, 6, .rw, 0⟩, ⟨26, 1, .rw, 0⟩]⟩, -- LT_SH_CFG
  ⟨0x160, 8, 0x100, [⟨0, 1, .w1s, 0⟩]⟩] -- LT_SH_ARM

/-- CARAPACE page (Table 13.19). -/
def carapaceRows : List Row := [
  ⟨0x80, 1, 0x8, [⟨0, 3, .ro, 0⟩, ⟨3, 1, .ro, 0⟩, ⟨4, 1, .ro, 0⟩, ⟨5, 1, .ro, 0⟩, ⟨6, 1, .ro, 1⟩, ⟨32, 32, .ro, 0⟩]⟩, -- CAR_LC_STAT
  ⟨0x88, 1, 0x8, [⟨0, 64, .ro, 0⟩]⟩, -- CAR_SERIAL
  ⟨0x90, 2, 0x8, [⟨0, 64, .ro, 0⟩]⟩, -- CAR_DEVICE_ID
  ⟨0xa0, 1, 0x8, [⟨0, 16, .rw, 0⟩, ⟨16, 4, .rw, 0⟩]⟩, -- CAR_TAMP_EN
  ⟨0xa8, 1, 0x8, [⟨0, 16, .ro, 0⟩, ⟨32, 32, .ro, 0⟩]⟩, -- CAR_TAMP_STAT
  ⟨0xb0, 1, 0x8, [⟨0, 8, .rw, 0⟩]⟩, -- CAR_SLOT_SEL
  ⟨0xb8, 1, 0x8, [⟨0, 64, .ro, 0⟩]⟩, -- CAR_SLOT_ATTR
  ⟨0xc0, 1, 0x8, [⟨0, 1, .ro, 0⟩, ⟨1, 1, .ro, 0⟩, ⟨2, 1, .ro, 0⟩, ⟨16, 16, .ro, 0⟩, ⟨32, 32, .ro, 0⟩]⟩, -- CAR_SLOT_INFO
  ⟨0x100, 1, 0x8, [⟨0, 4, .rw, 0⟩, ⟨4, 8, .rw, 0⟩, ⟨12, 1, .w1s, 0⟩, ⟨63, 1, .ro, 0⟩]⟩, -- CAR_CMD
  ⟨0x108, 1, 0x8, [⟨0, 64, .rw, 0⟩]⟩, -- CAR_CMD_ATTR
  ⟨0x110, 1, 0x8, [⟨0, 64, .ro, 0⟩]⟩, -- CAR_CMD_RESULT
  ⟨0x140, 8, 0x8, [⟨0, 64, .wo, 0⟩]⟩, -- CAR_DATA_i
  ⟨0x180, 12, 0x8, [⟨0, 64, .ro, 0⟩]⟩, -- CAR_OUT_i
  ⟨0x200, 3, 0x8, [⟨0, 64, .ctr, 0⟩]⟩] -- CAR_counters

/-- MANIFEST page (Table 13.20). -/
def manifestRows : List Row := [
  ⟨0x80, 1, 0x8, [⟨0, 64, .ro, 0⟩]⟩, -- MAN_HEAD
  ⟨0x88, 1, 0x8, [⟨0, 64, .ro, 0⟩]⟩, -- MAN_OLDEST
  ⟨0x90, 1, 0x8, [⟨0, 64, .ro, 0⟩]⟩, -- MAN_ACK
  ⟨0x98, 1, 0x8, [⟨0, 64, .ro, 0⟩]⟩, -- MAN_LAST_SEAL
  ⟨0xa0, 1, 0x8, [⟨0, 1, .ro, 0⟩, ⟨1, 1, .ro, 0⟩, ⟨2, 1, .ro, 0⟩, ⟨8, 8, .ro, 0⟩]⟩, -- MAN_STAT
  ⟨0xa8, 1, 0x8, [⟨0, 64, .ro, 0⟩]⟩, -- MAN_LINK
  ⟨0xb0, 1, 0x8, [⟨0, 16, .rw, 0⟩, ⟨16, 8, .rw, 0⟩]⟩, -- MAN_SUB_TYPE
  ⟨0xb8, 5, 0x8, [⟨0, 64, .rw, 0⟩]⟩, -- MAN_SUB_BODY_i
  ⟨0xe0, 1, 0x8, [⟨0, 1, .w1s, 0⟩, ⟨1, 1, .w1s, 0⟩]⟩, -- MAN_SUB_GO
  ⟨0xe8, 1, 0x8, [⟨0, 1, .ro, 0⟩, ⟨1, 1, .ro, 0⟩, ⟨32, 32, .ro, 0⟩]⟩, -- MAN_SUB_STAT
  ⟨0x100, 4, 0x8, [⟨0, 64, .ctr, 0⟩]⟩] -- MAN_counters

/-- SCARAB page 0 (Tables 14.6, 14.7). -/
def scarab0Rows : List Row := [
  ⟨0x80, 1, 0x8, [⟨0, 2, .ro, 0⟩, ⟨2, 1, .ro, 0⟩, ⟨3, 2, .ro, 0⟩, ⟨5, 1, .ro, 0⟩, ⟨6, 2, .ro, 0⟩, ⟨8, 1, .ro, 1⟩, ⟨9, 1, .ro, 0⟩, ⟨10, 1, .ro, 0⟩]⟩, -- SCARAB_STAT
  ⟨0x88, 1, 0x8, [⟨0, 7, .rw, 0x32⟩, ⟨8, 1, .w1s, 0⟩]⟩, -- SCARAB_CTRL
  ⟨0x90, 1, 0x8, [⟨0, 1, .w1s, 0⟩]⟩, -- SCARAB_MODE_REQ
  ⟨0x98, 1, 0x8, [⟨0, 2, .ro, 0⟩, ⟨2, 3, .ro, 0⟩, ⟨32, 32, .ro, 0⟩]⟩, -- SCARAB_LAST_EVENT
  ⟨0xa0, 5, 0x8, [⟨0, 64, .ctr, 0⟩]⟩, -- SCARAB_counters
  ⟨0xc8, 3, 0x8, [⟨0, 64, .ro, 0⟩]⟩, -- SCARAB_DIGEST_Cn
  ⟨0x100, 12, 0x8, [⟨0, 64, .rw, 0⟩]⟩] -- SCARAB_IRQ_EN_c_r

/-- SCARAB page 1: the port C rings and doorbells (R328). -/
def scarab1Rows : List Row := [
  ⟨0x100, 8, 0x40, [⟨12, 52, .rw, 0⟩]⟩, -- TXQ_q_BASE
  ⟨0x108, 8, 0x40, [⟨0, 4, .rw, 0⟩, ⟨4, 1, .rw, 0⟩, ⟨5, 1, .rw, 0⟩, ⟨8, 6, .rw, 0⟩, ⟨16, 6, .rw, 0⟩, ⟨32, 16, .rw, 0⟩]⟩, -- TXQ_q_CFG
  ⟨0x110, 8, 0x40, [⟨0, 15, .ro, 0⟩, ⟨15, 1, .ro, 0⟩, ⟨16, 1, .ro, 1⟩, ⟨17, 15, .ro, 0⟩, ⟨32, 32, .ro, 0⟩]⟩, -- TXQ_q_STAT
  ⟨0x120, 8, 0x40, [⟨12, 52, .rw, 0⟩]⟩, -- RXQ_q_BASE
  ⟨0x128, 8, 0x40, [⟨0, 4, .rw, 0⟩, ⟨4, 1, .rw, 0⟩, ⟨5, 1, .rw, 0⟩, ⟨8, 6, .rw, 0⟩, ⟨16, 6, .rw, 0⟩, ⟨32, 16, .rw, 0⟩]⟩, -- RXQ_q_CFG
  ⟨0x130, 8, 0x40, [⟨0, 15, .ro, 0⟩, ⟨15, 1, .ro, 0⟩, ⟨16, 1, .ro, 1⟩, ⟨17, 15, .ro, 0⟩, ⟨32, 32, .ro, 0⟩]⟩, -- RXQ_q_STAT
  ⟨0x800, 8, 0x10, [⟨0, 15, .wo, 0⟩]⟩, -- TXDB_q
  ⟨0x808, 8, 0x10, [⟨0, 15, .wo, 0⟩]⟩] -- RXDB_q

/-- FCN page 0 (Tables 15.11, 15.12). -/
def fcn0Rows : List Row := [
  ⟨0x80, 1, 0x8, [⟨0, 10, .rwl, 0xa⟩]⟩, -- FCN_CTRL
  ⟨0x88, 1, 0x8, [⟨0, 1, .ro, 0⟩, ⟨1, 1, .ro, 0⟩, ⟨2, 1, .ro, 0⟩, ⟨3, 1, .ro, 0⟩, ⟨4, 1, .ro, 0⟩, ⟨5, 2, .ro, 0⟩]⟩, -- FCN_STAT
  ⟨0x90, 1, 0x8, [⟨0, 1, .w1s, 0⟩, ⟨1, 1, .w1s, 0⟩, ⟨8, 1, .ro, 0⟩, ⟨9, 1, .ro, 0⟩, ⟨10, 1, .ro, 0⟩, ⟨11, 1, .ro, 1⟩]⟩, -- FCN_FAULTN
  ⟨0x98, 1, 0x8, [⟨0, 9, .ro, 0⟩, ⟨9, 3, .ro, 0⟩, ⟨12, 1, .ro, 0⟩, ⟨32, 32, .ro, 0⟩]⟩, -- FCN_LAST
  ⟨0xa0, 1, 0x8, [⟨0, 32, .ro, 0⟩]⟩, -- FCN_LAST_NS
  ⟨0xa8, 1, 0x8, [⟨0, 1, .w1s, 0⟩, ⟨32, 32, .ro, 0⟩]⟩, -- FCN_SELFTEST
  ⟨0xb0, 1, 0x8, [⟨0, 16, .ro, 0⟩, ⟨16, 16, .ro, 0⟩]⟩, -- FCN_BLOCK_ID
  ⟨0x100, 10, 0x8, [⟨0, 64, .ctr, 0⟩]⟩] -- FCN_counters

/-- FCN page 3 (Table 15.13). -/
def fcn3Rows : List Row := [
  ⟨0x80, 8, 0x8, [⟨0, 64, .w1c, 0⟩]⟩, -- FCN_PEND_r
  ⟨0x800, 256, 0x8, [⟨0, 64, .ro, 0⟩]⟩] -- FCN_LOG_DRAIN

/-- DBG page (Tables 16.8, 16.9). -/
def dbgRows : List Row := [
  ⟨0x80, 1, 0x8, [⟨0, 2, .ro, 2⟩, ⟨2, 3, .ro, 7⟩, ⟨5, 3, .ro, 4⟩, ⟨8, 1, .ro, 0⟩, ⟨9, 1, .ro, 0⟩, ⟨12, 4, .ro, 0⟩]⟩, -- DBG_STAT
  ⟨0x88, 1, 0x8, [⟨0, 64, .ro, 0⟩]⟩, -- DBG_EXP
  ⟨0x90, 1, 0x8, [⟨0, 1, .w1s, 0⟩, ⟨1, 3, .rw, 0⟩]⟩, -- DBG_CTRL
  ⟨0x98, 3, 0x8, [⟨0, 64, .ctr, 0⟩]⟩] -- DBG_counters

/-- PAIR page 0 (Tables 17.9 to 17.11). -/
def pair0Rows : List Row := [
  ⟨0x80, 1, 0x8, [⟨0, 1, .rwl, 0⟩, ⟨1, 1, .rw, 0⟩, ⟨2, 1, .rw, 0⟩]⟩, -- PAIR_CTRL
  ⟨0x88, 1, 0x8, [⟨0, 5, .rw, 0⟩]⟩, -- PAIR_CLAIM_CFG
  ⟨0x90, 1, 0x8, [⟨0, 1, .w1s, 0⟩]⟩, -- PAIR_KICK
  ⟨0x98, 1, 0x8, [⟨0, 1, .w1s, 0⟩]⟩, -- PAIR_CMD
  ⟨0xa0, 1, 0x8, [⟨0, 6, .rwl, 0⟩, ⟨6, 12, .rwl, 0⟩, ⟨18, 3, .rwl, 7⟩, ⟨32, 16, .rwl, 0x88b6⟩]⟩, -- PAIR_HB_CFG
  ⟨0xa8, 1, 0x8, [⟨0, 48, .rwl, 0⟩]⟩, -- PAIR_HB_DA
  ⟨0xb0, 1, 0x8, [⟨0, 8, .rwl, 0⟩]⟩, -- PAIR_CFG
  ⟨0xb8, 1, 0x8, [⟨0, 32, .rwl, 0⟩, ⟨32, 3, .rwl, 0⟩, ⟨35, 1, .rwl, 0⟩, ⟨40, 6, .rwl, 0x14⟩, ⟨48, 4, .rwl, 3⟩]⟩, -- PAIR_DIGEST_CFG
  ⟨0xc0, 1, 0x8, [⟨0, 1, .ro, 0⟩, ⟨1, 8, .ro, 0⟩, ⟨9, 2, .ro, 0⟩, ⟨11, 1, .ro, 0⟩, ⟨12, 1, .ro, 0⟩, ⟨13, 4, .ro, 0⟩, ⟨17, 4, .ro, 0⟩, ⟨21, 1, .ro, 0⟩]⟩, -- PAIR_STAT
  ⟨0xc8, 1, 0x8, [⟨0, 1, .ro, 0⟩, ⟨1, 1, .ro, 0⟩, ⟨2, 1, .ro, 0⟩, ⟨3, 1, .ro, 0⟩, ⟨4, 1, .ro, 0⟩, ⟨8, 8, .ro, 0⟩, ⟨16, 4, .ro, 0⟩]⟩, -- PAIR_HEALTH
  ⟨0xd0, 1, 0x8, [⟨0, 64, .ro, 0⟩]⟩, -- PAIR_PARTNER
  ⟨0x100, 5, 0x8, [⟨0, 64, .ctr, 0⟩]⟩] -- PAIR_counters

/-- PAIR page 1 (Table 17.12). -/
def pair1Rows : List Row := [
  ⟨0x80, 1, 0x8, [⟨0, 2, .rw, 0⟩]⟩] -- PAIR_VIEW

/-- UPD page (Table 18.9). -/
def updRows : List Row := [
  ⟨0x80, 1, 0x8, [⟨0, 1, .ro, 0⟩, ⟨1, 2, .ro, 0⟩, ⟨3, 2, .ro, 0⟩, ⟨5, 1, .ro, 0⟩, ⟨6, 1, .ro, 0⟩, ⟨8, 2, .ro, 0⟩, ⟨10, 2, .ro, 0⟩, ⟨16, 8, .ro, 0⟩, ⟨32, 32, .ro, 0⟩]⟩, -- UPD_BOOT
  ⟨0x88, 2, 0x8, [⟨0, 3, .ro, 0⟩, ⟨32, 32, .ro, 0⟩]⟩, -- UPD_SLOT
  ⟨0x98, 2, 0x8, [⟨0, 64, .ro, 0⟩]⟩, -- UPD_VER
  ⟨0xa8, 1, 0x8, [⟨0, 32, .ro, 0⟩]⟩, -- UPD_ROLLBACK
  ⟨0xb0, 1, 0x8, [⟨0, 1, .ro, 0⟩, ⟨1, 2, .ro, 0⟩, ⟨3, 2, .ro, 0⟩, ⟨16, 10, .ro, 0⟩, ⟨32, 10, .ro, 0⟩, ⟨48, 16, .ro, 0⟩]⟩, -- UPD_SESSION
  ⟨0xb8, 1, 0x8, [⟨0, 1, .w1s, 0⟩, ⟨32, 32, .ro, 0⟩]⟩, -- UPD_CONFIRM
  ⟨0xc0, 1, 0x8, [⟨0, 4, .ro, 0⟩, ⟨4, 4, .ro, 0⟩, ⟨8, 2, .ro, 0⟩, ⟨10, 1, .ro, 0⟩]⟩, -- UPD_OWNER_KEYS
  ⟨0x100, 5, 0x8, [⟨0, 64, .ctr, 0⟩]⟩] -- UPD_counters

end Sys2Proof
end

