-- ==== Sys2Proof/Machine/Pages.lean ====
section
/-! DEFINITION. The pages of the register space (Tables 2.1 to 2.5): their addresses, block types, owners, domains,
interrupt sources (Table 12.7), FCN sources (Tables 15.2, 15.3) and register rows; the table windows of Table 2.2. -/

namespace Sys2Proof

open Sys2Proof.Machine

/-- The quay of a port (Table 1.2). -/
def quayOfPort (p : Nat) : Nat :=
  if p < 2 then 0 else if p < 4 then 1 else if p < 6 then 0 else if p < 8 then 1
  else if p < 16 then 2 else 3

/-- The quays as numbers 0 to 3. -/
def quayFin (n : Nat) : Fin 4 := ⟨n % 4, Nat.mod_lt _ (by decide)⟩

/-- A port number, 0 to 28. -/
def portFin (p : Nat) : Fin 29 := ⟨p % 29, Nat.mod_lt _ (by decide)⟩

/-- The types of Ethernet port (Table 0.2). -/
inductive PortType where
  | b | m | g | s | internal
deriving DecidableEq, Repr

/-- The type of a port (Table 0.2). -/
def portType (p : Nat) : PortType :=
  if p < 4 then .b else if p < 12 then .m else if p < 20 then .g else if p < 26 then .s else .internal

/-- Base address of a page (Table 2.1). -/
def Page.base : Page → Nat
  | .chip => 0x00000000
  | .clk => 0x00001000
  | .pwr => 0x00002000
  | .fcn i => 0x00003000 + i.val * 0x1000
  | .quay n i => 0x00100000 + n.val * 0x40000 + i.val * 0x1000
  | .port p i => 0x00200000 + p.val * 0x4000 + i.val * 0x1000
  | .bwt i => 0x00300000 + i.val * 0x1000
  | .time i => 0x00400000 + i.val * 0x1000
  | .ferry => 0x00410000
  | .can k => 0x00420000 + k.val * 0x1000
  | .lin l => 0x00440000 + l.val * 0x1000
  | .xwe => 0x00450000
  | .buoy i => 0x00460000 + i.val * 0x1000
  | .lighter i => 0x00470000 + i.val * 0x1000
  | .host i => 0x00480000 + i.val * 0x1000
  | .mbox i => 0x00490000 + i.val * 0x1000
  | .carapace => 0x00500000
  | .manifest => 0x00510000
  | .scarab i => 0x00520000 + i.val * 0x1000
  | .pair i => 0x00530000 + i.val * 0x1000
  | .upd => 0x00540000
  | .dbg => 0x00550000

/-- Whether a page exists: ports 26 to 28 have page 0 only (Table 2.1). -/
def Page.present : Page → Bool
  | .port p i => p.val < 26 || i.val == 0
  | _ => true

/-- An index below n from a number, if it is one. -/
def finOf (n x : Nat) : Option (Fin n) := if h : x < n then some ⟨x, h⟩ else none

/-- The page at page number k (address divided by 4 KiB), if one exists there (R41, R42). -/
def pageAt (k : Nat) : Option Page :=
  if k = 0 then some .chip
  else if k = 1 then some .clk
  else if k = 2 then some .pwr
  else if k < 7 then (finOf 4 (k - 3)).map .fcn
  else if k < 0x100 then none
  else if k < 0x200 then
    (finOf 4 ((k - 0x100) / 0x40)).bind fun n => (finOf 3 ((k - 0x100) % 0x40)).map (.quay n)
  else if k < 0x274 then
    (finOf 29 ((k - 0x200) / 4)).bind fun p => (finOf 4 ((k - 0x200) % 4)).bind fun i =>
      if (Page.port p i).present then some (.port p i) else none
  else if k < 0x300 then none
  else if k < 0x302 then (finOf 2 (k - 0x300)).map .bwt
  else if k < 0x400 then none
  else if k < 0x402 then (finOf 2 (k - 0x400)).map .time
  else if k = 0x410 then some .ferry
  else if k < 0x420 then none
  else if k < 0x438 then (finOf 24 (k - 0x420)).map .can
  else if k < 0x440 then none
  else if k < 0x448 then (finOf 8 (k - 0x440)).map .lin
  else if k = 0x450 then some .xwe
  else if k < 0x460 then none
  else if k < 0x464 then (finOf 4 (k - 0x460)).map .buoy
  else if k < 0x470 then none
  else if k < 0x475 then (finOf 5 (k - 0x470)).map .lighter
  else if k < 0x480 then none
  else if k < 0x483 then (finOf 3 (k - 0x480)).map .host
  else if k < 0x490 then none
  else if k < 0x495 then (finOf 5 (k - 0x490)).map .mbox
  else if k = 0x500 then some .carapace
  else if k = 0x510 then some .manifest
  else if k < 0x520 then none
  else if k < 0x522 then (finOf 2 (k - 0x520)).map .scarab
  else if k < 0x530 then none
  else if k < 0x532 then (finOf 2 (k - 0x530)).map .pair
  else if k = 0x540 then some .upd
  else if k = 0x550 then some .dbg
  else none

/-- The page that holds an address of the register space. -/
def pageOf (addr : Nat) : Option Page := pageAt (addr / 0x1000)

/-- BLOCK_TYPE (Table 2.1). -/
def Page.blockType : Page → Nat
  | .chip => 0x01 | .clk => 0x02 | .pwr => 0x03 | .fcn _ => 0x04
  | .quay _ _ => 0x10 | .port _ _ => 0x11 | .bwt _ => 0x12 | .time _ => 0x13
  | .ferry => 0x20 | .can _ => 0x21 | .lin _ => 0x22 | .xwe => 0x23 | .buoy _ => 0x24
  | .lighter _ => 0x30 | .host _ => 0x31 | .mbox _ => 0x32
  | .carapace => 0x40 | .manifest => 0x41 | .scarab _ => 0x42 | .pair _ => 0x43 | .upd => 0x44 | .dbg => 0x45

/-- INSTANCE (Table 2.4). -/
def Page.instanceNo : Page → Nat
  | .quay n _ => n.val | .port p _ => p.val | .can k => k.val | .lin l => l.val | _ => 0

/-- PAGE_INDEX (Table 2.4). -/
def Page.index : Page → Nat
  | .fcn i => i.val | .quay _ i => i.val | .port _ i => i.val | .bwt i => i.val | .time i => i.val
  | .buoy i => i.val | .lighter i => i.val | .host i => i.val | .mbox i => i.val | .scarab i => i.val
  | .pair i => i.val | _ => 0

/-- PAGE_COUNT of the page's block (R42). -/
def Page.pageCount : Page → Nat
  | .fcn _ => 4 | .quay _ _ => 3 | .port p _ => if p.val < 26 then 4 else 1 | .bwt _ => 2 | .time _ => 2
  | .buoy _ => 4 | .lighter _ => 5 | .host _ => 3 | .mbox _ => 5 | .scarab _ => 2 | .pair _ => 2 | _ => 1

/-- Every page of the block that a page belongs to. -/
def Page.blockPages : Page → List Page
  | .fcn _ => [.fcn 0, .fcn 1, .fcn 2, .fcn 3]
  | .quay n _ => [.quay n 0, .quay n 1, .quay n 2]
  | .port p _ => if p.val < 26 then [.port p 0, .port p 1, .port p 2, .port p 3] else [.port p 0]
  | .bwt _ => [.bwt 0, .bwt 1]
  | .time _ => [.time 0, .time 1]
  | .buoy _ => [.buoy 0, .buoy 1, .buoy 2, .buoy 3]
  | .lighter _ => [.lighter 0, .lighter 1, .lighter 2, .lighter 3, .lighter 4]
  | .host _ => [.host 0, .host 1, .host 2]
  | .mbox _ => [.mbox 0, .mbox 1, .mbox 2, .mbox 3, .mbox 4]
  | .scarab _ => [.scarab 0, .scarab 1]
  | .pair _ => [.pair 0, .pair 1]
  | p => [p]

/-- Default owner (Table 2.1): 0 host, 1 device, 2 shared. -/
def Page.defaultOwner : Page → Nat
  | .chip => 2 | .clk => 1 | .pwr => 2 | .fcn _ => 1 | .quay _ _ => 0 | .port _ _ => 0 | .bwt _ => 1
  | .time _ => 2 | .ferry => 0 | .can _ => 0 | .lin _ => 0 | .xwe => 1 | .buoy _ => 2 | .lighter _ => 2
  | .host _ => 0 | .mbox _ => 2 | .carapace => 1 | .manifest => 1 | .scarab _ => 1 | .pair _ => 1 | .upd => 1 | .dbg => 1

/-- Whether the owner is fixed (Table 2.1; BWT page 1: R166). -/
def Page.ownerFixed : Page → Bool
  | .quay _ _ => false | .port _ _ => false | .bwt i => i.val == 1 | .time _ => false | .ferry => false
  | .can _ => false | .lin _ => false | .xwe => false | .buoy _ => false | _ => true

/-- PG_CAP.DOMAIN (Table 2.5, Table 3.15). The BWT pages report PD_BUF, which holds their tables (log 7). -/
def Page.domain : Page → Nat
  | .chip => 1 | .clk => 1 | .pwr => 1 | .fcn _ => 1
  | .quay n _ => 5 + n.val
  | .port p i =>
      if i.val = 1 then (if p.val < 4 then 10 else if p.val < 12 then 12 else 13) else 5 + quayOfPort p.val
  | .bwt _ => 9 | .time _ => 3 | .ferry => 14 | .can _ => 14 | .lin _ => 14 | .xwe => 14 | .buoy _ => 1
  | .lighter _ => 4 | .host _ => 11 | .mbox _ => 2 | .carapace => 2 | .manifest => 2 | .scarab _ => 3
  | .pair _ => 2 | .upd => 2 | .dbg => 1

/-- PG_CAP.HAS_SHADOW, as the owning chapters state it. -/
def Page.hasShadow : Page → Bool
  | .quay _ i => i.val < 2
  | .port _ i => i.val != 2
  | .bwt i => i.val == 0
  | .ferry => true | .can _ => true | .xwe => true | .buoy _ => true
  | _ => false

/-- PG_CAP.TIDE, as the owning chapters state it. -/
def Page.tide : Page → Bool
  | .quay _ i => i.val < 2
  | .port _ i => i.val != 2
  | .bwt i => i.val == 0
  | .ferry => true | .xwe => true
  | _ => false

/-- Interrupt source of a page (Table 12.7, R329). -/
def Page.irqSource : Page → Nat
  | .chip => 0 | .clk => 1 | .pwr => 2 | .fcn i => 3 + i.val
  | .quay n i => 8 + 3 * n.val + i.val
  | .port p i => 32 + 4 * p.val + i.val
  | .bwt i => 148 + i.val | .time i => 150 + i.val | .ferry => 152 | .can k => 153 + k.val
  | .lin l => 177 + l.val | .xwe => 185 | .buoy i => 186 + i.val | .lighter i => 190 + i.val
  | .host i => 195 + i.val | .mbox i => 198 + i.val
  | .carapace => 203 | .manifest => 204 | .scarab _ => 205 | .pair _ => 206 | .upd => 207 | .dbg => 208

/-- FCN source of ERR_RAW[63] SIG_MISMATCH of a page (Tables 15.2, 15.3). -/
def Page.sigSource : Page → Nat
  | .fcn i => 3 + i.val
  | .chip => 320 | .clk => 321 | .pwr => 322
  | .quay n i => 323 + 3 * n.val + i.val
  | .port p i => if p.val < 26 then 335 + 4 * p.val + i.val else 439 + (p.val - 26)
  | .bwt i => 442 + i.val | .time i => 444 + i.val | .ferry => 446 | .can k => 447 + k.val
  | .lin l => 471 + l.val | .xwe => 479 | .buoy i => 480 + i.val | .lighter i => 484 + i.val
  | .host i => 489 + i.val | .mbox i => 492 + i.val
  | .carapace => 497 | .manifest => 498 | .scarab i => 499 + i.val | .pair i => 501 + i.val | .upd => 503 | .dbg => 504

/-- FCN source of an ERR_RAW bit of a page (Table 15.2); none for a bit that is no source. -/
def Page.errSource (pg : Page) (b : Nat) : Option Nat :=
  if b = 63 then some pg.sigSource
  else match pg with
  | .fcn i => if i.val = 0 ∧ b < 3 then some b else none
  | .clk => if b < 8 then some (8 + b) else none
  | .pwr => if b < 8 then some (16 + b) else none
  | .scarab i => if i.val = 0 ∧ b < 7 then some (24 + b) else none
  | .chip => if b < 38 then some (32 + b) else none
  | .time i => if i.val = 0 ∧ b = 0 then some 72 else none
  | .carapace => if b < 3 then some (73 + b) else none
  | .manifest => if b = 0 then some 76 else none
  | .buoy i => if i.val = 0 ∧ b = 0 then some 77 else none
  | .ferry => if b = 0 then some 78 else none
  | .xwe => if b = 0 then some 79 else none
  | .quay n i => if i.val = 0 ∧ b < 3 then some (80 + 4 * n.val + b) else none
  | .can k => if b < 3 then some (96 + 3 * k.val + b) else none
  | .lin l => if b < 2 then some (168 + 2 * l.val + b) else none
  | .port p i => if p.val < 26 ∧ i.val = 1 ∧ b < 3 then some (184 + 4 * p.val + b) else none
  | .pair i => if i.val = 0 ∧ b < 8 then some (288 + b) else none
  | .upd => if b < 4 then some (296 + b) else none
  | .dbg => if b < 3 then some (300 + b) else none
  | _ => none

/-- Every page of the device, in the order of the addresses. -/
def allPages : List Page :=
  [.chip, .clk, .pwr] ++ (List.finRange 4).map .fcn
  ++ (List.finRange 4).flatMap (fun n => (List.finRange 3).map (.quay n))
  ++ ((List.finRange 29).flatMap (fun p => (List.finRange 4).map (.port p))).filter Page.present
  ++ (List.finRange 2).map .bwt ++ (List.finRange 2).map .time ++ [.ferry]
  ++ (List.finRange 24).map .can ++ (List.finRange 8).map .lin ++ [.xwe]
  ++ (List.finRange 4).map .buoy ++ (List.finRange 5).map .lighter ++ (List.finRange 3).map .host
  ++ (List.finRange 5).map .mbox ++ [.carapace, .manifest]
  ++ (List.finRange 2).map .scarab ++ (List.finRange 2).map .pair ++ [.upd, .dbg]

/-- A page and bit from a number that lies at `base` + stride × index + bit. -/
def srcGroup (n stride x : Nat) (mk : Fin n → Page) : Option (Page × Nat) :=
  (finOf n (x / stride)).map fun i => (mk i, x % stride)

/-- The page and the ERR_RAW bit of an FCN source (Tables 15.2, 15.3); none for a reserved source. -/
def sourcePage (s : Nat) : Option (Page × Nat) :=
  if s < 3 then some (.fcn 0, s)
  else if s < 7 then (finOf 4 (s - 3)).map fun i => (.fcn i, 63)
  else if s < 8 then none
  else if s < 16 then some (.clk, s - 8)
  else if s < 24 then some (.pwr, s - 16)
  else if s < 31 then some (.scarab 0, s - 24)
  else if s < 32 then none
  else if s < 70 then some (.chip, s - 32)
  else if s < 72 then none
  else if s = 72 then some (.time 0, 0)
  else if s < 76 then some (.carapace, s - 73)
  else if s = 76 then some (.manifest, 0)
  else if s = 77 then some (.buoy 0, 0)
  else if s = 78 then some (.ferry, 0)
  else if s = 79 then some (.xwe, 0)
  else if s < 96 then if (s - 80) % 4 = 3 then none else srcGroup 4 4 (s - 80) (fun n => .quay n 0)
  else if s < 168 then srcGroup 24 3 (s - 96) .can
  else if s < 184 then srcGroup 8 2 (s - 168) .lin
  else if s < 288 then
    if (s - 184) % 4 = 3 then none else srcGroup 29 4 (s - 184) (fun p => .port p 1)
  else if s < 296 then some (.pair 0, s - 288)
  else if s < 300 then some (.upd, s - 296)
  else if s < 303 then some (.dbg, s - 300)
  else if s < 320 then none
  else if s = 320 then some (.chip, 63)
  else if s = 321 then some (.clk, 63)
  else if s = 322 then some (.pwr, 63)
  else if s < 335 then (finOf 4 ((s - 323) / 3)).bind fun n => (finOf 3 ((s - 323) % 3)).map fun i => (.quay n i, 63)
  else if s < 439 then (finOf 29 ((s - 335) / 4)).bind fun p => (finOf 4 ((s - 335) % 4)).map fun i => (.port p i, 63)
  else if s < 442 then (finOf 29 (26 + (s - 439))).map fun p => (.port p 0, 63)
  else if s < 444 then (finOf 2 (s - 442)).map fun i => (.bwt i, 63)
  else if s < 446 then (finOf 2 (s - 444)).map fun i => (.time i, 63)
  else if s = 446 then some (.ferry, 63)
  else if s < 471 then (finOf 24 (s - 447)).map fun k => (.can k, 63)
  else if s < 479 then (finOf 8 (s - 471)).map fun l => (.lin l, 63)
  else if s = 479 then some (.xwe, 63)
  else if s < 484 then (finOf 4 (s - 480)).map fun i => (.buoy i, 63)
  else if s < 489 then (finOf 5 (s - 484)).map fun i => (.lighter i, 63)
  else if s < 492 then (finOf 3 (s - 489)).map fun i => (.host i, 63)
  else if s < 497 then (finOf 5 (s - 492)).map fun i => (.mbox i, 63)
  else if s = 497 then some (.carapace, 63)
  else if s = 498 then some (.manifest, 63)
  else if s < 501 then (finOf 2 (s - 499)).map fun i => (.scarab i, 63)
  else if s < 503 then (finOf 2 (s - 501)).map fun i => (.pair i, 63)
  else if s = 503 then some (.upd, 63)
  else if s = 504 then some (.dbg, 63)
  else none

/-- The quay of a page of a quay or of a port, where it has one (R411). -/
def Page.quayOf : Page → Option (Fin 4)
  | .quay n _ => some n
  | .port p _ => some (quayFin (quayOfPort p.val))
  | _ => none

/-- SCOPE of the sources of a page (R411): 0 chip, 1 block, 2 block in a quay. -/
def Page.scope : Page → Nat
  | .port _ _ => 2 | .quay _ _ => 2
  | .can _ => 1 | .lin _ => 1 | .ferry => 1 | .xwe => 1 | .lighter _ => 1 | .buoy _ => 1
  | _ => 0

/-- Reset class, reactions and minimum class of a source (Table 15.2). -/
structure SrcDefault where
  cls      : Nat
  irq      : Bool := false
  nmi      : Bool := false
  blockRst : Bool := false
  quayRst  : Bool := false
  chipRst  : Bool := false
  faultN   : Bool := false
  minCls   : Nat
  fixed    : Bool := false
deriving DecidableEq, Repr

/-- Table 15.2, with the PAIR, UPD and DBG sources of Tables 17.8, 18.9 and of the DBG page. -/
def srcDefault (s : Nat) : SrcDefault :=
  if s < 7 then { cls := 4, minCls := 4, fixed := true }
  else if s < 22 then { cls := 3, faultN := true, minCls := 3 }
  else if s = 22 then { cls := 0, irq := true, minCls := 0 }
  else if s = 23 then { cls := 4, minCls := 3 }
  else if s = 24 then { cls := 1, minCls := 1 }
  else if s = 28 then { cls := 4, minCls := 4, fixed := true }
  else if s = 30 then { cls := 0, irq := true, minCls := 0 }
  else if s < 31 then { cls := 3, faultN := true, minCls := 3 }
  else if s < 48 then { cls := 1, minCls := 1 }
  else if s = 50 ∨ s = 60 ∨ s = 61 ∨ s = 62 then { cls := 3, faultN := true, minCls := 3 }
  else if s < 65 then { cls := 2, irq := true, minCls := 2 }
  else if s = 65 then { cls := 3, chipRst := true, minCls := 3, fixed := true }
  else if s = 66 then { cls := 3, minCls := 3, fixed := true }
  else if s = 67 then { cls := 4, minCls := 4, fixed := true }
  else if s = 68 then { cls := 2, irq := true, nmi := true, minCls := 2 }
  else if s = 69 then { cls := 0, minCls := 0 }
  else if s = 72 then { cls := 3, faultN := true, minCls := 3 }
  else if s < 75 then { cls := 2, irq := true, minCls := 2 }
  else if s = 75 then { cls := 0, irq := true, nmi := true, minCls := 0 }
  else if s = 76 then { cls := 2, irq := true, minCls := 2 }
  else if s = 77 then { cls := 2, irq := true, nmi := true, minCls := 2 }
  else if s = 78 then { cls := 2, blockRst := true, minCls := 2 }
  else if s = 79 then { cls := 2, irq := true, minCls := 1 }
  else if s < 96 then { cls := 2, quayRst := true, irq := true, minCls := 2 }
  else if s < 168 then
    if (s - 96) % 3 = 1 then { cls := 2, irq := true, minCls := 2 } else { cls := 0, irq := true, minCls := 0 }
  else if s < 184 then
    if (s - 168) % 2 = 1 then { cls := 2, irq := true, minCls := 2 } else { cls := 0, irq := true, minCls := 0 }
  else if s < 288 then
    if (s - 184) % 4 = 1 then { cls := 2, blockRst := true, irq := true, minCls := 2 }
    else { cls := 0, irq := true, minCls := 0 }
  else if s = 288 then { cls := 2, irq := true, nmi := true, minCls := 2 }
  else if s = 289 then { cls := 0, irq := true, minCls := 0 }
  else if s = 290 then { cls := 2, irq := true, nmi := true, minCls := 0 }
  else if s = 291 then { cls := 2, irq := true, nmi := true, minCls := 2 }
  else if s = 292 then { cls := 2, irq := true, minCls := 2 }
  else if s = 293 then { cls := 2, irq := true, minCls := 0 }
  else if s = 294 then { cls := 2, irq := true, minCls := 2 }
  else if s = 295 then { cls := 2, irq := true, minCls := 0 }
  else if s = 296 then { cls := 0, irq := true, minCls := 0 }
  else if s = 297 then { cls := 2, irq := true, minCls := 0 }
  else if s = 298 then { cls := 2, irq := true, minCls := 2 }
  else if s = 299 then { cls := 2, irq := true, minCls := 0 }
  else if s < 302 then { cls := 0, irq := true, minCls := 0 }
  else if s = 302 then { cls := 3, faultN := true, minCls := 0 }
  else { cls := 3, faultN := true, minCls := 2 }

/-- Reset value of FCN_SRC_s (Table 15.9 with Table 15.2 and R411); 0 for a reserved source. -/
def fcnSrcReset (s : Nat) : W64 :=
  match sourcePage s with
  | none => 0
  | some (pg, _) =>
    let d := srcDefault s
    let sc := if s = 65 then 0 else pg.scope
    let q := if sc = 2 then (match pg.quayOf with | some n => n.val | none => 0) else 0
    mkWord [(0, d.cls), (4, d.irq.toNat), (5, d.nmi.toNat), (6, d.blockRst.toNat), (7, d.quayRst.toNat),
      (8, d.chipRst.toNat), (9, d.faultN.toNat), (12, d.minCls), (15, d.fixed.toNat), (16, sc), (18, q)]

/-- The fields of FCN_SRC_s (Table 15.9); R412 judges a write as a whole, so the row only says what can be read. -/
def fcnSrcRow (s : Nat) : Row :=
  let v := fcnSrcReset s
  ⟨0x800 + s % 256 * 8, 1, 8, [⟨0, 3, .rwl, fld v 0 3⟩, ⟨4, 6, .rwl, fld v 4 6⟩, ⟨12, 8, .ro, fld v 12 8⟩]⟩

/-- Number of ports of a quay, ports 26 to 28 included (Table 1.2). -/
def portsOfQuay (n : Nat) : List Nat :=
  if n = 0 then [0, 1, 4, 5] else if n = 1 then [2, 3, 6, 7]
  else if n = 2 then [8, 9, 10, 11, 12, 13, 14, 15]
  else [16, 17, 18, 19, 20, 21, 22, 23, 24, 25, 26, 27, 28]

/-- The block-specific rows of a page. -/
def Page.ownRows : Page → List Row
  | .chip => chipRows
  | .clk => []
  | .pwr => pwrRows
  | .fcn i => if i.val = 0 then fcn0Rows else if i.val = 3 then fcn3Rows else []
  | .quay n i =>
      if i.val = 0 then quay0Rows ++ quayPortCfgRows.map (fun r => { r with count := (portsOfQuay n.val).length })
      else if i.val = 1 then (if n.val = 3 then quay1Rows ++ gateP26Rows else quay1Rows) else quay2Rows
  | .port p i =>
      if 26 ≤ p.val then (if i.val = 0 then internalRows else [])
      else if i.val = 0 then
        macCommonRows ++ gateMacRows ++ (match portType p.val with
          | .b => macModeBRows ++ mergeRows
          | .m => macModeMRows ++ eeeRows ++ mergeRows
          | .g => macModeGRows ++ eeeRows ++ mergeRows
          | _ => macModeSRows ++ mergeCtrlRows ++ collRows)
      else if i.val = 1 then
        phyCommonRows ++ (match portType p.val with
          | .b => phyWarmRows ++ phyFecRows ++ phyBRows
          | .m => phyWarmRows ++ phyFecRows ++ phyMGRows
          | .g => phyWarmRows ++ phyMGRows
          | _ => phySRows)
      else if i.val = 2 then tsRows else macsecRows
  | .bwt i => if i.val = 0 then bwt0Rows else bwt1Rows
  | .time i => if i.val = 0 then time0Rows else time1Rows
  | .ferry => ferryRows
  | .can _ => canRows
  | .lin _ => linRows
  | .xwe => xweRows
  | .buoy i => if i.val = 0 then buoy0Rows else if i.val = 1 then buoy1Rows else if i.val = 2 then buoy2Rows else buoy3Rows
  | .lighter i => if i.val = 0 then [] else lighterRows
  | .host i => if i.val = 0 then host0Rows else if i.val = 1 then host1Rows else host2Rows
  | .mbox i => if i.val = 0 then mbox0Rows else mboxChRows
  | .carapace => carapaceRows
  | .manifest => manifestRows
  | .scarab i => if i.val = 0 then scarab0Rows else scarab1Rows
  | .pair i => if i.val = 0 then pair0Rows else pair1Rows
  | .upd => updRows
  | .dbg => dbgRows

/-- Whether a row holds a register at an offset. -/
def Row.holds (r : Row) (off : Nat) : Bool :=
  r.off ≤ off && off < r.off + r.count * r.stride && (off - r.off) % r.stride == 0

/-- The row of the register at an offset of a page; none where the offset is reserved. -/
def Page.rowAt (pg : Page) (off : Nat) : Option Row :=
  if off < 0x80 then headerRows.find? (·.holds off)
  else match pg with
  | .fcn i =>
      if (i.val = 1 ∨ i.val = 2) ∧ 0x800 ≤ off ∧ off < 0x1000 ∧ off % 8 = 0 then
        some (fcnSrcRow ((i.val - 1) * 256 + (off - 0x800) / 8))
      else (pg.ownRows).find? (·.holds off)
  | _ => (pg.ownRows).find? (·.holds off)

/-- The reset value that the fields of a row spell. -/
def Row.resetWord (r : Row) : W64 := mkWord (r.flds.map fun f => (f.lo, f.rst))

/-- The reset value of the register at an offset of a page, PG_CAP.OWNER from Table 2.1. -/
def Page.resetAt (pg : Page) (off : Nat) : W64 :=
  if off = 0x8 then BitVec.ofNat 64 pg.defaultOwner
  else match pg.rowAt off with
  | some r => r.resetWord
  | none => 0

/-- The reset value of the register at an address: what a store of registers reads where nothing is listed. -/
def regReset (addr : Nat) : W64 :=
  match pageOf addr with
  | some pg => pg.resetAt (addr % 0x1000)
  | none => 0

/-- Bits of a row whose fields are of a kind that `p` accepts. -/
def Row.bits (r : Row) (p : Kind → Bool) : W64 :=
  r.flds.foldl (fun a f => if p f.kind then a ||| maskOf f.lo f.len else a) 0

end Sys2Proof
end

