-- ==== Sys2Proof/Machine/State.lean ====
section
/-! DEFINITION. The state of the DQ2540 as plain data: registers, tables, queues, engines, pins, and the queue of
commands that wait. Each structure names the chapter and the rules of spec/ that give it. -/

namespace Sys2Proof.Machine

/-- Why the machine stops with a fault: the block model has no such case (log 2). -/
inductive Fault where
  /-- Nobody raises it: every effect of the manual is a next state. Safe. -/
  | none
deriving DecidableEq, Repr

/-- Why a command has no meaning. -/
inductive Refusal where
  /-- Raised by an arm of `exec` whose instruction has no meaning yet. Safe. -/
  | notModelled (mnemonic : String)
deriving DecidableEq, Repr

/-- Words by address in one canonical form: addresses strictly rise, and no entry equals what an unlisted address reads as. -/
abbrev Store := List (Nat × W64)

/-- An event on its way to the Fault Concentrator (R409): its source, whether it was forced (R50), whether it is
an escalation (R429), and the block whose soft reset timed out (R411, source 65). -/
structure FcnEv where
  src    : Nat
  forced : Bool := false
  esc    : Bool := false
  blk    : Option Page := none
deriving DecidableEq, Repr

/-- A reset shadow (R421): the page that names the block (page 0) or quay, and when it closes, once known. -/
structure Shadow where
  base   : Nat
  quay   : Bool
  closes : Option Instant := none
deriving DecidableEq, Repr

/-- The Fault Concentrator (chapter 15) beyond its registers. -/
structure Fcn where
  safe        : Bool := false
  chipRst     : Option Instant := none
  shadows     : List Shadow := []
  blkHist     : List (Nat × Nat) := []
  chipHist    : List Nat := []
  log         : List (W64 × W64) := []
  logHalf     : Bool := false
  faultLow    : Bool := true
  minUntil    : Option Instant := none
  relPend     : Bool := false
  held        : Bool := true
  secBroken   : Bool := false
  cycle       : Nat := 0
  cycleSrcs   : List Nat := []
  cycleRst    : List (Nat × Bool) := []
  lastTest    : Nat := 0
  exitTest    : Bool := false
  lockBroken  : Bool := false
  onBuoyClk   : Bool := false
deriving DecidableEq, Repr

/-- What a counter of the time base does at a CLK_TS edge to come (R201, R202). -/
inductive TimeEv where
  | rate (r : Int)
  | load
deriving DecidableEq, Repr

/-- A step that waits for its CLK_TS edge (R203, R204). -/
structure TimeStep where
  edge : Nat
  abs  : Bool
  val  : Int
deriving DecidableEq, Repr

/-- A gPTP domain counter (R201): its value in units of 2^-56 ns, its effective rate, whether it runs. -/
structure TimeDom where
  ctr    : Nat := 0
  rate   : Int := 0
  on     : Bool := false
  evs    : List (Nat × TimeEv) := []
  steps  : List TimeStep := []
  wdFrom : Instant := 0
deriving DecidableEq, Repr

/-- A timed output (R210 to R212) as it was armed: state 0 idle, 1 armed, 2 running, 3 done. Times in 2^-16 ns. -/
structure Tout where
  state    : Nat := 0
  dom      : Nat := 0
  periodic : Bool := false
  lowIdle  : Bool := true
  start    : Nat := 0
  period   : Nat := 0
  width    : Nat := 0
  active   : Bool := false
  next     : Nat := 0
  pulses   : Nat := 0
deriving DecidableEq, Repr

/-- A change of a domain counter (R228): the domain, the instant, local time at its CLK_TS edge, and the counter from then on. -/
structure DomPast where
  dom  : Nat
  at0  : Instant
  loc  : Nat
  ctr  : TimeDom
deriving DecidableEq, Repr

/-- The time base (chapter 7) beyond its registers. Local time in units of 2^-16 ns, at the last CLK_TS edge. `past`: the changes of domain
counters that a frame still being received can ask for (R228). -/
structure TimeBase where
  loc     : Nat := 0
  doms    : List (Nat × TimeDom) := []
  stopped : Bool := false
  snapDue : Option Nat := none
  touts   : List (Nat × Tout) := []
  tcaps   : List (Nat × List (List W64)) := []
  tcapAt  : List (Nat × Nat) := []
  txqs    : List (Nat × List (W64 × W64)) := []
  txqHalf : List Nat := []
  past    : List DomPast := []
deriving DecidableEq, Repr

/-- What leaves the device at its pins and ports in answer to a command. -/
inductive Out where
  /-- Data of a register read (R9, R41). -/
  | readData (v : W64)
  /-- A posted write to host memory over PCIe (R320 to R328). -/
  | hostWrite (addr : Nat) (octets : List Byte)
  /-- A read request to host memory: address and length. -/
  | hostRead (addr len : Nat)
  /-- An MSI-X message on a vector, of an interrupt source (R330). -/
  | msix (vector source : Nat)
  /-- A frame on the wire of an Ethernet port; stomped: ended with an inverted FCS (R18). -/
  | ethFrame (port : Nat) (octets : List Byte) (stomped : Bool)
  /-- A frame on a CAN bus, and the error frame of a controller: passive or active (R231, ISO 11898-1). -/
  | canFrame (k : Nat) (f : CanFrame)
  | canError (k : Nat) (passive : Bool)
  /-- A frame or a header on a LIN bus; a header with the bit times of its break and its bit rate (R235). -/
  | linFrame (l : Nat) (f : LinFrame)
  | linHeader (l fid breakBits baud : Nat)
  | linWakePulse (l us : Nat)
  /-- An answer on SPI_MISO (R331). -/
  | spi (octets : List Byte)
  /-- An answer of in-band management on port C, from VERSION to TAG (R333). -/
  | inband (octets : List Byte)
  /-- An answer on TDO or on the debug transport (R434 to R437). -/
  | tdo (octets : List Byte)
  /-- A non-maskable interrupt to the Scarab (R407). -/
  | nmi (src : Nat)
  /-- An edge on a timed output (R211). -/
  | tout (n : Nat) (active : Bool)
  /-- A TC10 signal of a port: 0 sleep request, 1 wake-up request, 2 acknowledgement, 3 rejection (R95 to R97). -/
  | tc10 (port what : Nat)
  /-- The remote fault that a B port signals (FAULT_SIGNAL), and a beacon of a PLCA coordinator (R88). -/
  | remoteFault (port : Nat)
  | beacon (port : Nat)
  /-- The bits that a unit drives in a round of the claim bus, true: dominant (R450). -/
  | claim (bits : List Bool)
  /-- A heartbeat payload on a path (R455). -/
  | heartbeat (path : Nat) (octets : List Byte)
  /-- A result that a core of the Scarab reads from one of its CSRs (R405). -/
  | csr (v : W64)
deriving DecidableEq, Repr

/-- An edge frame in the hands of the Ferry (R228, R238, R254): a bus frame of endpoint `src` (32 to 63), or an unpacked
message of receive stream `stream` with its bus_id, whose carrier came in at port `src`. Times in 2^-16 ns; `dom` is
absent where the TS_DOMAIN counter was disabled. `epoch`: generation of its carrier. `late`: withdrawn by R248. -/
structure EdgeWork where
  id     : Nat := 0
  src    : Nat
  stream : Option Nat := none
  busId  : Nat := 0
  can    : Option CanFrame := none
  lin    : Option LinFrame := none
  loc    : Nat := 0
  dom    : Option Nat := none
  ready  : Instant := 0
  epoch  : Option Nat := none
  sec    : Bool := false
  vid    : Nat := 0
  late   : Bool := false
deriving DecidableEq, Repr

/-- An ACF message of a carrier: the frame it comes from and its source, its octets, the ports that were FWD for the frame. -/
structure WinMsg where
  work   : Nat
  src    : Nat
  octets : List Byte
  ports  : List Nat
deriving DecidableEq, Repr

/-- A presentation on port 28 (R242): DECIDE or CARRY of a frame, or a carrier whose frames are decided already (R252): its stream, the
epoch that decided them, its messages. `search`: when the route search ends (R245). -/
structure Pres where
  work    : Option EdgeWork := none
  carry   : Bool := false
  stream  : Nat := 0
  epoch   : Nat := 0
  msgs    : List WinMsg := []
  search  : Instant := 0
deriving DecidableEq, Repr

/-- Verdicts on their way back to the Ferry (R243): the destinations with verdict FWD, the deciding epoch. -/
structure Verdicts where
  work  : EdgeWork
  carry : Bool
  fwd   : List Nat
  epoch : Nat
  at0   : Instant
deriving DecidableEq, Repr

/-- An open aggregation window (R250): the epoch and the FERRY generation of its first frame, when it opened in local time, its messages. -/
structure Window where
  epoch  : Nat
  fgen   : Nat
  opened : Nat
  msgs   : List WinMsg
deriving DecidableEq, Repr

/-- The Ferry (chapter 8) beyond its registers: received bus frames, messages of accepted carriers (R253, R254), its last start,
verdicts on their way, open windows, sequence numbers of transmit and receive streams, the counters that FERRY_CTRL.TS_DOMAIN named
before its last switches, each with the instant of the switch (R228). -/
structure FerrySt where
  ready    : List EdgeWork := []
  carriers : List (List EdgeWork) := []
  lastAt   : Option Instant := none
  back     : List Verdicts := []
  windows  : List (Nat × Window) := []
  txSeq    : List (Nat × Nat) := []
  rxSeq    : List (Nat × Nat) := []
  nextId   : Nat := 0
  tsDoms   : List (Instant × Nat) := []
deriving DecidableEq, Repr

/-- A frame that waits in a CAN controller (R229): its request instant, the id of
the bus frame it came from. -/
structure CanTx where
  f       : CanFrame
  reqAt   : Instant
  src     : Nat := 0
  work    : Nat := 0
deriving DecidableEq, Repr

/-- A CAN controller (R224 to R234) beyond its registers: transmit area, receive FIFO, what it integrates or recovers; quietAt: when the
sleep sequence or the yield that restricts it began, in which the frame in transmission still completes. -/
structure CanSt where
  tx       : List CanTx := []
  recover  : Bool := false
  edgeChk  : Bool := false
  sleepSeq : Bool := false
  yielded  : Bool := false
  quietAt  : Instant := 0
  seqLevel : Option Bool := none
  lastRx   : Option EdgeWork := none
deriving DecidableEq, Repr

/-- A LIN controller (R235 to R239) beyond its registers. `respBy`: when the response that is awaited must be complete (R238).
`sleptAt`: when it last reported SLEEPING (R290). `pubBack`: of each publish buffer written since its last transmission, the frame it came
from, and the word and VALID before it (R248). -/
structure LinSt where
  entry   : Nat := 0
  slotEnd : Option Instant := none
  sched   : Nat := 0
  hdrFid  : Option Nat := none
  respBy  : Instant := 0
  gosleep : Bool := false
  sleptAt : Instant := 0
  resume  : Option Instant := none
  seqLevel : Option Bool := none
  edgeChk : Bool := false
  pubBack : List (Nat × Nat × W64 × Bool) := []
deriving DecidableEq, Repr

/-- An action of Breakwater for one destination (Tables 5.5, 5.8), and where it came from. Verdict: 0 FWD, 1 DROP, 2 QUAR. -/
structure Action where
  verdict  : Nat := 1
  mirror   : Option Nat := none
  meter    : Option Nat := none
  witness  : Option Nat := none
  log      : Bool := false
  create   : Bool := false
  estab    : Bool := false
  rules    : Bool := false
  fence    : Bool := false
  evidence : Bool := false
  fromRule : Option Nat := none
  overRate : Bool := false
  /-- MIRROR_SESSION, METER_ID and WTAG as the entry or rule holds them, in the places of Table 5.5. -/
  kept     : Nat := 0
deriving DecidableEq, Repr

/-- What a copy for port H or C carries into its receive descriptor (Table 12.5), and what the Ferry needs of it. -/
structure RxMeta where
  ts       : Option Nat := none
  src      : Nat := 31
  pcp      : Nat := 0
  unknown  : Bool := false
  vid      : Nat := 0
  tagged   : Bool := false
  quar     : Bool := false
  mirror   : Bool := false
  rule     : Option Nat := none
  srcZone  : Nat := 63
  dstZone  : Nat := 63
  epoch    : Nat := 0
deriving DecidableEq, Repr

/-- A destination copy of a frame in a queue cell (R126, R170 to R175). `len` is the length from DA to FCS where it is
known, `maxLen` the MAC_MAXLEN.MAX of the ingress port, `tail` says that the tail has arrived. `arr`, `rank`: the cycle in which its
descriptor reaches the egress quay, and its turn among those of that cycle (R30). `cell`: its queue cell. `bad`: it ends with an inverted FCS (R131). -/
structure Copy where
  fid     : Nat
  ing     : Nat
  port    : Nat
  octets  : List Byte
  len     : Option Nat
  maxLen  : Nat := 1522
  cut     : Bool := false
  tail    : Bool := true
  bad     : Bool := false
  eligAt  : Instant := 0
  arr     : Instant := 0
  rank    : Nat := 0
  decNs   : Nat := 0
  cells   : Nat := 1
  cell    : Nat := 0
  rsv     : Bool := true
  tsId    : Option Nat := none
  rtag    : Bool := false
  tc      : Nat := 0
  svcGen  : Nat := 0
  heldCnt : Bool := false
  etype   : Nat := 0
  info    : RxMeta := {}
deriving DecidableEq, Repr

/-- A queue cell (R173): its copies, its finish tag, whether it was eligible when it was last looked at
(R178), and the weight it had at its last switch (R175). -/
structure QCell where
  copies : List Copy := []
  tag    : Nat := 0
  elig   : Bool := false
  weight : Nat := 1
deriving DecidableEq, Repr

/-- A shaper (R191): mode, NET in 2^-16 ns of local time, buckets in 2^-16 octets, and its slot on the wheel. -/
structure Shaper where
  bucket : Bool := false
  net    : Nat := 0
  ct     : Int := 0
  pt     : Int := 0
  last   : Nat := 0
  slot   : Option (Bool × Nat) := none
  elig   : Bool := true
deriving DecidableEq, Repr

/-- A frame that has a ready header in a quay, or waits for its pipeline entry (R102). `stamp`: its receive timestamp (R215, R218). -/
structure ReadyHdr where
  fid     : Nat
  port    : Nat
  ready   : Instant
  frame   : EthFrame
  unknown : Bool := false
  stamp   : Option Nat := none
  tsId    : Option Nat := none
  pres    : Option Pres := none
deriving DecidableEq, Repr

/-- A frame in reception on a port (R130, R131): what its tail decides. `defer`: stream entry of a filter and meter
deferred to the tail (R121); `meters`: Breakwater meters deferred with it, by destination; `epoch`: the generation that
decided it; `derived`: the length derived at the decision point; `gone`: discarded at
its header (1), or by MACsec (2). -/
structure RxFrame where
  fid     : Nat
  octets  : List Byte
  preempt : Bool := false
  decided : Bool := false
  derived : Option Nat := none
  defer   : Option Nat := none
  meters  : List (Nat × Nat) := []
  epoch   : Nat := 0
  dei     : Bool := false
  len     : Nat := 0
  tailed  : Option Bool := none
  tailAt  : Instant := 0
  gone    : Nat := 0
  media   : Media := {}
deriving DecidableEq, Repr

/-- What a port's MAC, PHY and PLCA hold beyond their registers (chapter 3). plcaNow: the PLCA_CTRL whose NODE_ID, NODE_COUNT and
TO_TIMER are in effect (R86); burst: frames sent in the opportunity in use, the last of which left at lastTx (R87). -/
structure PortSt where
  rx        : List RxFrame := []
  record    : Option (Nat × Bool) := none
  recFlash  : Option (Nat × Bool) := none
  warmFrom  : Option Instant := none
  fallback  : Bool := false
  tc10From  : Option Instant := none
  jabber    : Bool := false
  noise     : List Instant := []
  pauseEnd  : Option Instant := none
  lpiFrom   : Option Instant := none
  lpiWakeAt : Option Instant := none
  emptyFrom : Instant := 0
  beaconAt  : Instant := 0
  sqiAt     : Instant := 0
  plcaNow   : W64 := 0
  burst     : Nat := 0
  lastTx    : Instant := 0
  gateClass : Nat := 0
  standby   : Bool := false
deriving DecidableEq, Repr

/-- A frame in transmission on a port (R176 to R178): sent: octets sent in earlier fragments; begun: when its first fragment started;
stamp: its transmit timestamp, once captured (R215). -/
structure TxFrame where
  copy    : Copy
  tc      : Nat
  start   : Instant
  ends    : Instant
  octets  : List Byte
  frags   : Nat := 1
  preempt : Bool := false
  sent    : Nat := 0
  total   : Nat := 0
  tries   : Nat := 0
  begun   : Instant := 0
  stamp   : Option Nat := none
deriving DecidableEq, Repr

/-- A gate control list as it was switched in (R182, R186): entries (gates, op, interval in ns), times in 2^-16 ns. -/
structure GateList where
  en      : Bool := false
  dom     : Nat := 0
  entries : List (Nat × Nat × Nat) := []
  cycle   : Nat := 1000000
  ext     : Nat := 0
  ct      : Nat := 0
deriving DecidableEq, Repr

/-- The gates of a port (R182 to R188): the operational list, the one that waits for its CT, the hold of OP 1, and by class the longest
open time in 2^-16 ns that the last switch computed, where the class has a limit (R184). -/
structure Gates where
  oper    : Option GateList := none
  pend    : Option GateList := none
  hold    : Bool := false
  limits  : List (Nat × Nat) := []
deriving DecidableEq, Repr

/-- The credit of a traffic class (R189), in 2^-16 octets, and when it was last brought up to date. -/
structure Credit where
  c    : Int := 0
  last : Instant := 0
deriving DecidableEq, Repr

/-- One quay (chapters 4 to 6): ready headers, headers that entered and wait for their decision point (with the cycle of their entry),
last entry, isolation, queue cells, shapers, sampling ring, and since when the next sampling pass is reckoned, in 2^-16 ns of local time
(R196). `xbar`: the last cycle in which the crossbar brought descriptors, the
source quay that had the first turn in it and the last one taken (R30). -/
structure Quay where
  ready    : List ReadyHdr := []
  pipe     : List (Instant × ReadyHdr) := []
  xbar     : Option (Instant × Nat × Nat) := none
  lastEnt  : Option Instant := none
  lastPres : List (Nat × Instant) := []
  isoAt    : Option Instant := none
  resetAt  : Option Nat := none
  qcells   : List (Nat × QCell) := []
  vtime    : List (Nat × Nat) := []
  svcGen   : List (Nat × Nat) := []
  shapers  : List (Nat × Shaper) := []
  pass     : Nat := 0
  ring     : List (W64 × W64) := []
  ringHalf : Bool := false
  restore  : Option (Instant × Nat) := none
  sampAt   : Nat := 0
deriving DecidableEq, Repr

/-- A stream filter (R120). -/
structure Filter where
  blocked : Bool := false
  hits    : Nat := 0
  pass    : Nat := 0
  sdu     : Nat := 0
  red     : Nat := 0
deriving DecidableEq, Repr

/-- A flow meter (R122): tokens in 2^-16 octets, LAST in ns. -/
structure Meter where
  ct   : Nat := 0
  et   : Nat := 0
  last : Nat := 0
  red  : Bool := false
deriving DecidableEq, Repr

/-- A table change that is issued and visible from an instant on (R116, R134): the words at an address. `old`: what they replaced, once
they are in the table; a frame whose table read lies before that instant may still be undecided. `guard`: an insertion, which takes
its place only where word 0 is still 0 (R116). `entry`: an update, which has no effect once that entry is invalidated (R156). -/
structure PendIns where
  vis   : Instant
  addr  : Nat
  words : List W64
  old   : Option (List W64) := none
  guard : Bool := false
  entry : Option Nat := none
deriving DecidableEq, Repr

/-- A frame handed to the XWE by WITNESS (R160, R258, R259): tag, verdict (0 FWD, 1 DROP, 2 QUAR), source endpoint, the
frame's octets (Ethernet) with its KIND and the QUAY_PARSE_CTRL that its quay parsed it with, or its edge frame, the five counters at
its decision point, and the epoch that decided it. -/
structure Tap where
  wtag    : Nat
  verdict : Nat
  src     : Nat
  octets  : List Byte := []
  kind    : Nat := 0
  pctl    : W64 := 0
  can     : Option CanFrame := none
  lin     : Option LinFrame := none
  times   : List Nat := []
  syncs   : List Bool := []
  epoch   : Nat := 0
deriving DecidableEq, Repr

/-- A stored sample of a signal (R264): value in units of 2^-16, time of its domain, SYNC, tap verdict, samples so far. -/
structure XweSig where
  has     : Bool := false
  val     : Int := 0
  time    : Nat := 0
  dom     : Nat := 4
  sync    : Bool := false
  verdict : Nat := 0
  count   : Nat := 0
deriving DecidableEq, Repr

/-- A comparator (R268): state 0 QUIET, 1 PENDING, 2 VIOLATED; ONSET, FALSE_SINCE, whether the last evaluation found an
input stale, dev of the last one that did not. -/
structure XweCmp where
  state : Nat := 0
  onset : Option Nat := none
  since : Option Nat := none
  stale : Bool := false
  dev   : Int := 0
deriving DecidableEq, Repr

/-- The Cross-Witness Engine (chapter 9) beyond its registers. `ticks`: ticks that wait behind taps, as (domain, instant,
taps ahead). `ep`: configuration number of its last switch; `refDone`: its refill has ended while older taps remain. -/
structure XweSt where
  fifo    : List Tap := []
  high    : Nat := 0
  sigs    : List (Nat × XweSig) := []
  cmps    : List (Nat × XweCmp) := []
  ticks   : List (Nat × Nat × Nat) := []
  lastTick : List (Nat × Nat) := []
  busyTo  : Instant := 0
  ep      : Nat := 0
  refDone : Bool := false
deriving DecidableEq, Repr

/-- A record on its way to the Manifest (R382): type, source and body. -/
structure ManRec where
  type   : Nat
  source : Nat
  body   : List Byte
deriving DecidableEq, Repr

/-- A Carapace slot (R357): attribute word, value, REFUSED and USES of CAR_SLOT_INFO, whether an engine holds a copy. -/
structure KeySlot where
  attr    : W64 := 0
  value   : List Byte := []
  refused : Nat := 0
  uses    : Nat := 0
  cached  : Bool := false
deriving DecidableEq, Repr

/-- A CAR_CMD in progress (R361): operation, slot, attributes, CAR_DATA and CAR_OUT at its GO, and its master. -/
structure CarCmd where
  op     : Nat
  slot   : Nat
  attr   : W64
  data   : List W64
  out    : List W64
  master : Nat
deriving DecidableEq, Repr

/-- Carapace, the life cycle and the root secret (R346 to R372) beyond their registers. -/
structure Carapace where
  slots     : List (Nat × KeySlot) := []
  wrapped   : List (Nat × W64 × List Byte) := []
  cmd       : Option CarCmd := none
  root      : Option (List Byte) := none
  vbatOk    : Bool := true
  tampNs    : Nat := 0
  tampPower : Nat := 0
  tampRec   : Bool := false
  lcNonce   : Option (List Byte) := none
  lcNext    : Option (Nat × Instant) := none
  rootDue   : Bool := false
  trngStop  : Bool := false
  reseeds   : Nat := 0
  recheckAt : List (Nat × Instant) := []
  draws     : Nat := 0
deriving DecidableEq, Repr

/-- The Manifest controller (R378 to R386) beyond its registers: staging, record count, chain value ([]: never started), the journal
by slot, of the last SEAL its number, SEQ and chain value, the chain value its ANCHOR carries, the count of the SEAL being signed,
the cause of a SEAL that waits, channels that await a seal (count + 1 once it is written), refused submissions. -/
structure Manifest where
  staging   : List ManRec := []
  head      : Nat := 0
  chain     : List Byte := []
  journal   : List (Nat × List Byte) := []
  sinceSeal : Nat := 0
  sealNo    : Nat := 0
  prevSeal  : Nat := 0xFFFFFFFF
  prevChain : List Byte := []
  anchor    : List Byte := []
  signing   : Option Nat := none
  sealDue   : Option Nat := none
  replies   : List (Nat × Nat) := []
  refused   : Nat := 0
  refusedAt : Nat := 0
  restart   : Bool := false
deriving DecidableEq, Repr

/-- A queue pair of port H or C beyond its registers (R321 to R328). `phase`: 0 no frame in progress, 1 its descriptors are
read, 2 its data. `descs`: descriptors of the frame in progress. `skip`: a frame of nine descriptors or more still runs.
`more`: the descriptors up to TAIL end before the frame does, which waits for the next doorbell.
`bufs`: RX buffers fetched and not used, as (address, BUF_LEN, index); `fetched`: RX index up to which descriptors were
asked for; `rxBusy`: an RX descriptor read is outstanding; `rxStale`: the queue was disabled meanwhile, and what it brings is thrown away.
Completions not yet signalled, and since when. -/
structure HostQ where
  phase   : Nat := 0
  descs   : List (List W64) := []
  data    : List Byte := []
  skip    : Bool := false
  more    : Bool := false
  bufs    : List (Nat × Nat × Nat) := []
  fetched : Nat := 0
  rxBusy  : Bool := false
  rxStale : Bool := false
  sigTx   : Nat := 0
  sigTxAt : Instant := 0
  sigRx   : Nat := 0
  sigRxAt : Instant := 0
deriving DecidableEq, Repr

/-- A mailbox channel (R335, R336): request buffer, staged message with the instant of its RING, whether the firmware has
started it, what is left of the response. -/
structure MboxCh where
  req     : List Byte := []
  staged  : Option (List Byte) := none
  rungAt  : Instant := 0
  started : Bool := false
  resp    : List Byte := []
deriving DecidableEq, Repr

/-- The host side (chapter 12) beyond its registers: queue pairs by index (port C from 16 on), the queue whose frame is
fetched on each port, the turn of the round robin, the MSI-X table and its pending bits, the memory requests that wait for Bus Master
Enable (R320), the in-band epoch, the highest
counter accepted in it, the head of an OP 3 request that awaits its response; of the Lighter the channel granted last, each
channel's next request and its transfer's master. -/
structure HostSt where
  qs      : List (Nat × HostQ) := []
  curH    : Option Nat := none
  curC    : Option Nat := none
  turnH   : Nat := 0
  turnC   : Nat := 0
  msixT   : Store := []
  pba     : List Nat := []
  held    : List Out := []
  mbox    : List (Nat × MboxCh) := []
  inbEpoch : Nat := 0
  inbLast : Option Nat := none
  inbWait : Option (List Byte) := none
  ltTurn  : Nat := 0
  ltNext  : List (Nat × Instant) := []
  ltMaster : List (Nat × Nat) := []
deriving DecidableEq, Repr

/-- A yield in progress (R468): the mailbox channel, when it was accepted, whether the claim is released, rounds since. -/
structure YieldSt where
  ch       : Nat
  at0      : Instant
  released : Bool := false
  rounds   : Nat := 0
deriving DecidableEq, Repr

/-- Redundant pair operation (chapter 17) beyond its registers. `holdBack`: causes of withdrawal that last (Table 17.6);
`wasIn`: whether the unit took part at the last command; `number`: claim number of the current round; `partner`: the
partner's last accepted EPOCH; `seqs`, `seen`: per path, SEQ and instant of the last accepted heartbeat; `miss`: per path, its
miss count; `hb`: the last accepted payload; `digests`: digest of each open interval by number; `digest`: the closed one;
`cmpMs`: the last interval that was compared or skipped. -/
structure PairSt where
  strapEn   : Bool := false
  unit      : Bool := false
  takeover  : Bool := false
  holdBack  : List Nat := []
  wasIn     : Bool := false
  round     : Option Instant := none
  roundAt   : Option Instant := none
  number    : Nat := 0
  epoch     : Nat := 0
  seq       : Nat := 0
  partner   : Option Nat := none
  seqs      : List (Nat × Nat) := []
  seen      : List (Nat × Instant) := []
  miss      : List (Nat × Nat) := []
  lost      : Bool := false
  hb        : List Byte := []
  kickAt    : Option Instant := none
  sentAt    : Option Instant := none
  splits    : Nat := 0
  views     : Nat := 0
  digests   : List (Nat × W64) := []
  digest    : Option (Nat × W64) := none
  cmpMs     : Option Nat := none
  digestOk  : Bool := false
  missRun   : Nat := 0
  bank      : Nat := 0
  rotRun    : Bool := false
  rotWait   : Bool := false
  rotAt     : Instant := 0
  rotPasses : Nat := 0
  rotDone   : Bool := false
  offline   : Bool := false
  yield     : Option YieldSt := none
  nonce     : Option (List Byte) := none
  nonceAt   : Instant := 0
  bootAt    : Instant := 0
deriving DecidableEq, Repr

/-- An NM cluster of the Buoy (R289, Table 10.3): its state code, when the state was entered, from when NM_TIMEOUT_MS
counts, its last keep-alive, the source that woke it, the latched source and whether that is still to be counted in WAKES, the instant of its point of no return, the
ports whose sleep handshake it awaits, the ports it has put to sleep. -/
structure Cluster where
  state   : Nat := 0
  entered : Instant := 0
  timer   : Instant := 0
  lastKa  : Option Instant := none
  woken   : Option Nat := none
  latch   : Option Nat := none
  owed    : Bool := false
  ponr    : Option Instant := none
  waits   : List Nat := []
deriving DecidableEq, Repr

/-- What the Buoy counts of a wake source (R283, R287). -/
structure WakeSrc where
  wakes   : Nat := 0
  ignored : Nat := 0
  wrong   : Nat := 0
  consec  : Nat := 0
  suppr   : Bool := false
deriving DecidableEq, Repr

/-- The Buoy (chapter 10) beyond its registers: clusters, sources, frame-error counters, pins that wait for their opposite
condition, whether the keeper was kicked in its period, LIN channels and ports still to be woken when their domain is on, keep-alive
indications on their way (cluster, instant of recognition; R288). -/
structure BuoySt where
  cl      : List (Nat × Cluster) := []
  src     : List (Nat × WakeSrc) := []
  fec     : List (Nat × Nat) := []
  pins    : List Nat := []
  kicked  : Bool := false
  keepAt  : Instant := 0
  linDue  : List Nat := []
  portDue : List Nat := []
  kaDue   : List (Nat × Instant) := []
deriving DecidableEq, Repr

/-- The power manager (chapter 11) beyond its registers: an entry in progress (target, start), a latched request and the
exit in progress as (host access, wake class), when the exit began, from when its steps count and how many of them are done (R312),
when the sleep began, the clusters of the edge check, when it began and how many of its steps are done (R314),
since when deep_ok(3) and deep_ok(4) have held (R309), since when each quay has been
idle under R304 and R305, the level of PWR_EN, since when it has been high for a power-up, and when it rises again (Table 19.3). -/
structure PwrSt where
  entry   : Option (Nat × Instant) := none
  latched : Option (Bool × Nat) := none
  exit    : Option (Bool × Nat) := none
  exitAt  : Instant := 0
  exitFrom : Instant := 0
  exitStep : Nat := 0
  sleepAt : Option Instant := none
  check   : List Nat := []
  checkAt : Option Instant := none
  checkStep : Nat := 0
  deepAt  : Option Instant := some 0
  deepAt4 : Option Instant := some 0
  idle1   : List (Nat × Instant) := [(0, 0), (1, 0), (2, 0), (3, 0)]
  idle2   : List (Nat × Instant) := [(0, 0), (1, 0), (2, 0), (3, 0)]
  pwrEn   : Bool := true
  enFrom  : Instant := 0
  enAt    : Option Instant := none
deriving DecidableEq, Repr

/-- The Scarab (chapter 14) beyond its registers: local time of each core's last minority, when the resynchronisation began, the core
left out of the vote after a repeat, a self-test that waits, local time of the last periodic one, RESYNCED of kcoreinfo, the last voted digest (kdigest). -/
structure ScarabSt where
  lastMin  : List (Nat × Nat) := []
  resyncAt : Option Instant := none
  left     : Option Nat := none
  testDue  : Option Bool := none
  testAt   : Nat := 0
  resynced : Bool := false
  voted    : W64 := 0
  digFrom  : Instant := 0
  digDone  : Nat := 0
deriving DecidableEq, Repr

/-- Debug (chapter 16) beyond its registers: the valid nonce and when it was drawn, when the lockout began (local time), of the session
its nonce, length and slots killed; halted cores; the boundary-scan register, and the instruction that drives the pins (0 none,
1 EXTEST, 2 CLAMP); an access that waits for an exit (R444): DBG_CHAL where it is no DMI request. -/
structure DbgSt where
  nonce   : Option (List Byte) := none
  nonceAt : Nat := 0
  lockAt  : Option Nat := none
  sNonce  : List Byte := []
  maxS    : Nat := 0
  killed  : Nat := 0
  halted  : List Nat := []
  bsr     : List Bool := []
  drive   : Nat := 0
  waits   : List (Option DmiReq) := []
deriving DecidableEq, Repr

/-- An update session (R484 to R488): its channel, target (0 A, 1 B, 2 L2), header, blocks written, last accepted command. -/
structure UpdSession where
  ch     : Nat
  target : Nat
  hdr    : List Byte
  got    : List Nat := []
  lastAt : Instant
deriving DecidableEq, Repr

/-- Boot and update (chapter 18) beyond their registers: straps; the boot record (R472); slot states; fused owner keys (KEY_ID_EC
and KEY_ID_PQ); the cause of the next boot (R483); the running image (0 A, 1 B, 2 L2) and its header; the deadline of its
confirmation; the update session; the activation reset that is due. -/
structure BootSt where
  sel      : Nat := 0
  trio     : Bool := false
  active   : Nat := 0
  pending  : Option Nat := none
  attempts : Nat := 0
  rollback : Nat := 0
  boots    : Nat := 0
  slotA    : Nat := 0
  slotB    : Nat := 0
  owners   : List (Nat × List Byte) := []
  revoked  : List Nat := []
  cause    : Nat := 1
  image    : Option Nat := none
  hdr      : List Byte := []
  confirm  : Option Instant := none
  late     : Bool := false
  session  : Option UpdSession := none
  actAt    : Option Instant := none
  due      : Bool := true
  outer    : Bool := true
deriving DecidableEq, Repr

/-- What the selectors of a frozen page can name, as it was at the freeze (R47, R138): stream filters, a quay's shapers and queue cells,
signals and comparators of the XWE, wake sources of the Buoy, slots of Carapace. -/
structure Selected where
  filters : List (Nat × Filter) := []
  quay    : Quay := {}
  sigs    : List (Nat × XweSig) := []
  cmps    : List (Nat × XweCmp) := []
  srcs    : List (Nat × WakeSrc) := []
  slots   : List (Nat × KeySlot) := []
deriving DecidableEq, Repr

/-- What the scrub remembers (R17): the pass in progress, the words (region, word) corrected in it, spare lines used by bank. -/
structure ScrubSt where
  pass   : Nat := 0
  seen   : List (Nat × Nat) := []
  spares : List (Nat × Nat) := []
deriving DecidableEq, Repr

/-- The device: every register, table, FIFO, counter, engine and pin of the DQ2540. -/
structure Dev where
  /-- Periods of CLK_FAB since cold reset at the last command (log 1). -/
  now      : Instant := 0
  /-- Registers as software sees them; rws fields of a page with HAS_SHADOW: the shadow copy (R52). -/
  regs     : Store := []
  /-- Active copies of the rws fields of pages with HAS_SHADOW (R52, R55). -/
  act      : Store := []
  /-- What frozen pages show of their counters and ro fields (R47): page base and snapshot. -/
  frz      : List (Nat × Store) := []
  /-- What the selectors of frozen pages show, by page base. -/
  frzSel   : List (Nat × Selected) := []
  /-- Table windows by address (R43): lower halves are shadow copies, upper halves active copies. -/
  tbl      : Store := []
  /-- Number of the configuration in force (R68), and older ones that carriers in flight still use: number, registers, tables. -/
  epoch    : Nat := 0
  retired  : List (Nat × Store × Store) := []
  /-- Block soft resets that run (R20): base of the block's first page, and the start. -/
  srst     : List (Nat × Instant) := []
  /-- Accepted immediate commits (R57) and refills that run (R55), by page base, with the instant at which each is due. -/
  commitAt : List (Nat × Instant) := []
  refillAt : List (Nat × Instant) := []
  /-- Pages that refill for a fired Tide slot (R65): page base and slot. -/
  tideRef  : List (Nat × Nat) := []
  /-- Start of the signature pass in progress, by page base (R61). -/
  sigFrom  : List (Nat × Instant) := []
  /-- How many free values have been used (log 3). -/
  frees    : Nat := 0
  /-- Events on their way to the FCN; what one settling does not take up waits for the next. -/
  evq      : List FcnEv := []
  /-- What left the device at the last command. -/
  out      : List Out := []
  /-- Writes of the last command to the memories, applied at its end; empty between commands. -/
  memOut   : List (Nat × List Byte) := []
  fcn      : Fcn := {}
  time     : TimeBase := {}
  quays    : List (Nat × Quay) := []
  ports    : List (Nat × PortSt) := []
  tx       : List (Nat × TxFrame) := []
  susp     : List (Nat × TxFrame) := []
  gates    : List (Nat × Gates) := []
  credits  : List (Nat × Credit) := []
  filters  : List (Nat × Filter) := []
  meters   : List (Nat × Meter) := []
  pend     : List PendIns := []
  /-- Local time of the last aging sweep (R115), in 2^-16 ns. -/
  agedAt   : Nat := 0
  /-- Identifier of the next frame that enters the device. -/
  nextFid  : Nat := 0
  /-- Quay of the last decision of each FRER function (R125). -/
  frerQ    : List (Nat × Nat) := []
  /-- A flush of the flow table in progress: its command word, its start, the buckets that it has passed (R158). -/
  flush    : Option (W64 × Instant × Nat) := none
  /-- Highest workshop-token serial accepted, in the configuration store (R164). -/
  diagSer  : Nat := 0
  /-- Seconds of local time at which each rule last wrote evidence (R161), by rule. -/
  evidAt   : List (Nat × Nat) := []
  /-- Parts of a refill below 2^-16 token, kept for the next check of a rule (R148, log 61): rule, GAP_US, tokens, remainder. -/
  rateRem  : List (Nat × Nat × Nat × Nat) := []
  /-- Instant of the last accepted log record (R161). -/
  logAt    : Option Instant := none
  /-- Buffer cells withdrawn for good (R17). -/
  retired1 : List Nat := []
  scrub    : ScrubSt := {}
  /-- Frames delivered to the Ferry and not yet taken (R253). -/
  ferryIn  : List Copy := []
  ferry    : FerrySt := {}
  cans     : List (Nat × CanSt) := []
  lins     : List (Nat × LinSt) := []
  /-- Taps and Manifest records of the current command, taken up at its end; empty between commands. -/
  tapQ     : List Tap := []
  manQ     : List ManRec := []
  car      : Carapace := {}
  man      : Manifest := {}
  /-- OPEN and ZONES of a diagnostic session before its last change, and the instant of that change (R165). -/
  diagPrev : List (Nat × Instant × Bool × W64) := []
  /-- Master code of the CFG_COMMIT writer of a pending generation, by page base (R167). -/
  commitBy : List (Nat × Nat) := []
  host     : HostSt := {}
  xwe      : XweSt := {}
  pair     : PairSt := {}
  buoy     : BuoySt := {}
  pwr      : PwrSt := {}
  scarab   : ScarabSt := {}
  dbg      : DbgSt := {}
  boot     : BootSt := {}
deriving DecidableEq, Repr

/-- The whole state: the device, its memories as one list of bytes, and the commands that wait, first in, first out. -/
structure State where
  dev     : Dev
  mem     : List Host.Cell
  pending : List Instr
deriving DecidableEq, Repr

/-- The device right after reset. -/
def resetDev : Dev := {}

/-- The machine right after reset: every register at its reset value, memory with nothing listed, no command waiting. -/
def State.reset : State := { dev := resetDev, mem := [], pending := [] }

end Sys2Proof.Machine
end

