-- ==== Sys2Proof/Machine/Ops.lean ====
section
/-! DEFINITION. The named operations over the state: lists by key, registers and their active copies, counters,
interrupts (R49, R330), error bits (R409), conflicts (R48), access errors (Table 2.12), memories, and time (chapter 7). -/

namespace Sys2Proof.Machine

/-! ### Lists by key, in one canonical form: keys strictly rise -/

/-- What a list holds under a key. -/
def kvGet {α : Type} : List (Nat × α) → Nat → Option α
  | [], _ => none
  | (k, v) :: l, a => if k = a then some v else kvGet l a

/-- The list with v under the key. -/
def kvPut {α : Type} : List (Nat × α) → Nat → α → List (Nat × α)
  | [], a, v => [(a, v)]
  | (k, w) :: l, a, v => if a < k then (a, v) :: (k, w) :: l else if k = a then (a, v) :: l else (k, w) :: kvPut l a v

/-- The list with nothing under the key. -/
def kvDel {α : Type} : List (Nat × α) → Nat → List (Nat × α)
  | [], _ => []
  | (k, w) :: l, a => if k = a then kvDel l a else (k, w) :: kvDel l a

/-- What a list holds under a key, or a default. -/
def kvD {α : Type} (l : List (Nat × α)) (k : Nat) (dflt : α) : α := (kvGet l k).getD dflt

/-- Keys strictly rise. -/
abbrev kvSorted {α : Type} (l : List (Nat × α)) : Prop := l.Pairwise (fun a b => a.1 < b.1)

/-! ### Stores of words and bytes whose unlisted addresses read a given value -/

/-- The word of a store at an address. -/
def stGet {α : Type} (dflt : Nat → α) (l : List (Nat × α)) (a : Nat) : α := (kvGet l a).getD (dflt a)

/-- The store with a word written: what an unlisted address reads as is not listed. -/
def stPut {α : Type} [DecidableEq α] (dflt : Nat → α) (l : List (Nat × α)) (a : Nat) (v : α) : List (Nat × α) :=
  if v = dflt a then kvDel l a else kvPut l a v

/-- The canonical form of a store: addresses strictly rise, and no entry equals what an unlisted address reads as. -/
abbrev stWf {α : Type} (dflt : Nat → α) (l : List (Nat × α)) : Prop :=
  kvSorted l ∧ ∀ e ∈ l, e.2 ≠ dflt e.1

/-- A byte of memory that nothing has written reads 0 (log 8). -/
def memDefault : Nat → Byte := fun _ => 0

/-- The canonical form of the memories. -/
abbrev Memory.wf (m : List Host.Cell) : Prop := stWf memDefault m

/-- One byte of the memories. -/
def memByte (m : List Host.Cell) (a : Nat) : Byte := stGet memDefault m a

/-- One byte of the memories written. -/
def memPut (m : List Host.Cell) (a : Nat) (b : Byte) : List Host.Cell := stPut memDefault m a b

/-- Octets of the memories from an address. -/
def memRead (m : List Host.Cell) (a : Nat) : Nat → List Byte
  | 0 => []
  | n + 1 => memByte m a :: memRead m (a + 1) n

/-- Octets written to the memories from an address. -/
def memWrite (m : List Host.Cell) (a : Nat) : List Byte → List Host.Cell
  | [] => m
  | b :: l => memWrite (memPut m a b) (a + 1) l

/-- A list of writes to the memories, in order. -/
def memWrites (m : List Host.Cell) : List (Nat × List Byte) → List Host.Cell
  | [] => m
  | (a, l) :: ws => memWrites (memWrite m a l) ws

/-! ### Registers -/

/-- The stored word of a register: the shadow copy of rws fields. -/
def rd (d : Dev) (pg : Page) (off : Nat) : W64 := stGet regReset d.regs (pg.base + off)

/-- A register with a word stored. -/
def wr (d : Dev) (pg : Page) (off : Nat) (v : W64) : Dev :=
  { d with regs := stPut regReset d.regs (pg.base + off) v }

/-- A field of a stored register. -/
def rf (d : Dev) (pg : Page) (off lo len : Nat) : Nat := fld (rd d pg off) lo len

/-- A bit of a stored register. -/
def rb (d : Dev) (pg : Page) (off i : Nat) : Bool := bit (rd d pg off) i

/-- A field of a stored register set to a number. -/
def wf (d : Dev) (pg : Page) (off lo len x : Nat) : Dev := wr d pg off (setFld (rd d pg off) lo len x)

/-- A bit of a stored register set. -/
def wb (d : Dev) (pg : Page) (off i : Nat) (b : Bool) : Dev := wf d pg off i 1 b.toNat

/-- The bits of a register that have an active copy: rws fields of a page with HAS_SHADOW (R52). -/
def shadowBits (pg : Page) (off : Nat) : W64 :=
  if pg.hasShadow then (match pg.rowAt off with | some r => r.bits (· == .rws) | none => 0) else 0

/-- A field and the range that its chapter calls valid. -/
abbrev FieldRange := Nat × Nat × Nat × Nat

/-- The fields of an active word that lie outside their range. -/
def outside (w : W64) (l : List FieldRange) : List (Nat × Nat) :=
  (l.filter fun f => !(decide (f.2.2.1 ≤ fld w f.1 f.2.1) && decide (fld w f.1 f.2.1 ≤ f.2.2.2))).map fun f => (f.1, f.2.1)

/-- The gate control registers GCL_CTRL, GCL_BASE_NS and GCL_CYCLE of a group, by offset in the group (R181, Table 6.3). -/
def gateFaults (k : Nat) (w : W64) : List (Nat × Nat) :=
  if k = 0 then outside w [(16, 11, 1, 1024), (1, 3, 0, 4)]
  else if k = 0x10 then outside w [(0, 32, 0, 999999999)]
  else if k = 0x18 then outside w [(0, 32, 1000, 1000000000)] ++ (if fld w 0 32 < fld w 32 32 then [(32, 32)] else [])
  else []

/-- The fields (low bit, length) of an active register word whose values its chapter declares invalid; of an entry of
registers that holds such a value, VALID (R515). -/
def invalidFields (pg : Page) (off : Nat) (w : W64) : List (Nat × Nat) :=
  match pg with
  | .port p i =>
      let s := portType p.val == .s
      if i.val = 0 then
        if off = 0x90 then outside w [(0, 14, 64, if s then 2000 else 10240)]
        else if off = 0xa0 then outside w [(8, 16, 1, 65535)]
        else if off = 0xa8 then (if s && bit w 0 then [(0, 1)] else [])
        else if 0x200 ≤ off ∧ off < 0x240 then gateFaults (off - 0x200) w else []
      else if i.val = 1 then
        if s && off == 0xd8 then outside w [(1, 8, 0, 31), (9, 8, 2, 32), (17, 8, 20, 255), (33, 8, 1, 255)]
        else if s && off == 0xe8 then outside w [(32, 16, 1, 65535)] else []
      else if i.val = 3 ∧ off = 0x80 then outside w [(2, 2, 0, 2), (6, 2, 0, 2)] else []
  | .quay n i =>
      if i.val = 0 then
        if off = 0x80 then (if fld w 0 16 = 0x8100 ∨ fld w 0 16 = 0x88a8 then [(0, 16)] else [])
        else if 0x100 ≤ off ∧ off < 0x180 then outside w [(0, 12, 1, 4094), (16, 2, 0, 2)] else []
      else if n.val = 3 ∧ 0x400 ≤ off ∧ off < 0x440 then gateFaults (off - 0x400) w else []
  | .bwt i => if i.val = 0 ∧ (off = 0x88 ∨ off = 0x90) then outside w [(0, 16, 1, 65535), (16, 16, 1, 65535), (32, 16, 1, 65535)] else []
  | .ferry => if off = 0x80 then outside w [(1, 3, 0, 4)] else []
  | .can _ => if 0x100 ≤ off ∧ off < 0x1c0 ∧ (off - 0x100) % 0x18 = 0 ∧ fld w 8 2 = 3 then [(63, 1)] else []
  | .xwe =>
      if off = 0x80 then outside w [(0, 10, 1, 1000)]
      else if 0x100 ≤ off ∧ off < 0x700 ∧ (off - 0x100) % 0x18 = 0 ∧ fld w 1 2 = 3 then [(63, 1)] else []
  | .buoy i =>
      if i.val = 0 then
        if off = 0x80 then outside w [(8, 8, 1, 50)]
        else if 0x100 ≤ off ∧ off < 0x1c0 then outside w [(12, 8, 1, 255)]
        else if 0x1c0 ≤ off ∧ off < 0x200 then outside w [(0, 13, 30, 5000)]
        else if 0x200 ≤ off ∧ off < 0x240 then outside w [(8, 16, 1, 65535)] else []
      else if i.val = 1 then (if 0x80 ≤ off ∧ (off - 0x80) % 0x18 = 0 ∧ !bit w 58 ∧ 0x7ff < fld w 0 29 then [(63, 1)] else [])
      else if i.val = 2 then (if 0x80 ≤ off ∧ off < 0x480 then outside w [(0, 2, 0, 2)] else [])
      else if off < 0x80 then []
      else if (off - 0x80) % 0x20 = 0 then
        (if if bit w 1 then fld w 16 12 = 0 ∨ 4094 < fld w 16 12 else 23 < fld w 2 5 then [(0, 1)] else [])
      else if (off - 0x80) % 0x20 = 0x10 then outside w [(0, 16, 1, 65535), (16, 16, 1, 65535), (32, 16, 1, 65535)] else []
  | _ => []

/-- The word of a register with the rws fields of a store of active copies (R52, R53). -/
def acHeld (act : Store) (d : Dev) (pg : Page) (off : Nat) : W64 :=
  let m := shadowBits pg off
  if m = 0 then rd d pg off else (rd d pg off &&& ~~~m) ||| (stGet regReset act (pg.base + off) &&& m)

/-- The word of a register that the block acts on, from a store of active copies (R53, R68): an invalid field acts as its
reset value (R515). -/
def acIn (act : Store) (d : Dev) (pg : Page) (off : Nat) : W64 :=
  let w := acHeld act d pg off
  if shadowBits pg off = 0 then w
  else (invalidFields pg off w).foldl (fun w f => mergeFld w (regReset (pg.base + off)) f.1 f.2) w

/-- The word of a register that the block acts on: active copies of rws fields (R53). -/
def ac (d : Dev) (pg : Page) (off : Nat) : W64 := acIn d.act d pg off

/-- A field of the word that the block acts on. -/
def af (d : Dev) (pg : Page) (off lo len : Nat) : Nat := fld (ac d pg off) lo len

/-- A bit of the word that the block acts on. -/
def ab (d : Dev) (pg : Page) (off i : Nat) : Bool := bit (ac d pg off) i

/-- The largest value of a statistics counter (R11). -/
def ctrMax : Nat := 2 ^ 64 - 1

/-- A statistics counter counts n, saturating (R11). -/
def cnt (d : Dev) (pg : Page) (off n : Nat) : Dev :=
  wr d pg off (BitVec.ofNat 64 (min ctrMax ((rd d pg off).toNat + n)))

/-! ### Table windows -/

/-- What a word of a table window reads after a wipe: MAC/VLAN word 1 and mirror word 0 hold PORT = 63 (Tables 4.8, 5.15). -/
def tblReset (a : Nat) : W64 :=
  if (0x01400000 ≤ a ∧ a < 0x01500000 ∧ a % 16 = 8) ∨ (0x03804000 ≤ a ∧ a < 0x03804100 ∧ a % 16 = 0) then 63 else 0

/-- A word of a table window in a given store of tables. -/
def tIn (t : Store) (a : Nat) : W64 := stGet tblReset t a

/-- A word of a table window. -/
def trd (d : Dev) (a : Nat) : W64 := tIn d.tbl a

/-- A word of a table window written. -/
def twr (d : Dev) (a : Nat) (v : W64) : Dev := { d with tbl := stPut tblReset d.tbl a v }

/-- Words from an address of a table window. -/
def twrs (d : Dev) (a : Nat) : List W64 → Dev
  | [] => d
  | v :: l => twrs (twr d a v) (a + 8) l

/-- The address range [lo, hi) of a store replaced by a copy of the range that begins at `src` (R55). -/
def copyRange (l : Store) (dst src len : Nat) : Store :=
  let kept := l.filter (fun e => e.1 < dst || dst + len ≤ e.1)
  let moved := (l.filter (fun e => src ≤ e.1 && e.1 < src + len)).map (fun e => (e.1 - src + dst, e.2))
  kept.filter (fun e => e.1 < dst) ++ moved ++ kept.filter (fun e => dst + len ≤ e.1)

/-! ### Time (chapter 7) -/

/-- One CLK_TS cycle in units of 2^-16 ns (R199). -/
def tsStep : Nat := 163840

/-- The units of 2^-16 ns in a second. -/
def secUnits : Nat := 65536000000000

/-- Periods of CLK_FAB in a microsecond and in a millisecond (Table 0.4). -/
def usTicks : Nat := 1600
def msTicks : Nat := 1600000

/-- The advance of a domain per CLK_TS edge, in units of 2^-56 ns (R201). -/
def domInc (rate : Int) : Nat := (163840 * ((2 ^ 40 : Int) + rate)).toNat

/-- A domain counter from edge e0 to edge e1, with what is due on the way (R201, R202). `loc0` is local time at e0. -/
def domRun (dom : TimeDom) (loc0 e0 e1 : Nat) : List (Nat × TimeEv) → TimeDom
  | [] => if dom.on then { dom with ctr := dom.ctr + (e1 - e0) * domInc dom.rate, evs := [] } else { dom with evs := [] }
  | (e, ev) :: l =>
    if e1 < e then
      { dom with ctr := if dom.on then dom.ctr + (e1 - e0) * domInc dom.rate else dom.ctr, evs := (e, ev) :: l }
    else
      let k := max e e0
      let atK := if dom.on then { dom with ctr := dom.ctr + (k - e0) * domInc dom.rate } else dom
      let next := match ev with
        | .rate r => { atK with rate := r }
        | .load => { atK with on := true, ctr := (loc0 + (k - e0) * tsStep) * 2 ^ 40 }
      domRun next (loc0 + (k - e0) * tsStep) k e1 l

/-- The time of a domain at CLK_FAB edge `k` after its CLK_TS edge, in units of 2^-16 ns (R209). -/
def domAt (dom : TimeDom) (k : Nat) : Nat := (dom.ctr + k * (domInc dom.rate / 4)) / 2 ^ 40

/-- Local time now, in units of 2^-16 ns (R209). -/
def locNow (d : Dev) : Nat := if d.time.stopped then d.time.loc else d.time.loc + (d.now % 4) * (tsStep / 4)

/-- A domain of the time base. -/
def dom (d : Dev) (i : Nat) : TimeDom := kvD d.time.doms i {}

/-- How long an earlier state of a domain counter can be asked for (R228): no frame of a bus lasts 4 s, in periods of CLK_FAB. -/
def pastTicks : Nat := 4000 * msTicks

/-- The changes of counters with one more: those of the domain that nothing can ask for any more are forgotten. -/
def pastPut (l : List DomPast) (x : DomPast) : List DomPast :=
  let mine := l.filter fun e => e.dom == x.dom && e.at0 != x.at0
  let gone := (mine.filter fun e => decide (e.at0 + pastTicks ≤ x.at0)).dropLast
  l.filter (fun e => !(e.dom == x.dom && e.at0 == x.at0) && !gone.contains e) ++ [x]

/-- A domain of the time base replaced; the change is remembered. -/
def setDom (d : Dev) (i : Nat) (x : TimeDom) : Dev :=
  { d with time := { d.time with doms := kvPut d.time.doms i x,
                                 past := pastPut d.time.past { dom := i, at0 := d.now, loc := d.time.loc, ctr := x } } }

/-- A domain of the time base as it stood at an earlier instant, at the CLK_TS edge before it (R228). -/
def domWas (d : Dev) (i : Nat) (t : Instant) : TimeDom :=
  match (d.time.past.filter fun e => e.dom == i && decide (e.at0 ≤ t)).getLast? with
  | some e => domRun e.ctr e.loc (e.at0 / 4) (t / 4) e.ctr.evs
  | none => {}

/-- Whether a domain code names a counter that runs: 4 is local time (R63, R210). -/
def domOn (d : Dev) (code : Nat) : Bool :=
  code == 4 || (decide (code < 4) && rb d (.time 0) (0x100 + code * 0x40) 0)

/-- The time of a domain code now, in units of 2^-16 ns; local time for code 4 and for a code that names no counter. -/
def timeOf (d : Dev) (code : Nat) : Nat :=
  if code < 4 then (if (dom d code).on then domAt (dom d code) (if d.time.stopped then 0 else d.now % 4) else 0)
  else locNow d

/-- Whether the SYNC bit of a domain code stands; 1 for local time (Table 7.4). -/
def syncOf (d : Dev) (code : Nat) : Bool :=
  decide (4 ≤ code) || rb d (.time 0) (0x100 + code * 0x40) 1

/-- Seconds, nanoseconds and fraction of a time in units of 2^-16 ns (R7). -/
def tSec (x : Nat) : Nat := x / secUnits
def tNs (x : Nat) : Nat := x % secUnits / 65536
def tFrac (x : Nat) : Nat := x % 65536
/-- The word [31:0] nanoseconds, [47:32] fraction (Table 7.2). -/
def tNsWord (x : Nat) : W64 := mkWord [(0, tNs x), (32, tFrac x)]
/-- A time from seconds, nanoseconds and fraction. -/
def tMake (sec ns frac : Nat) : Nat := sec * secUnits + ns * 65536 + frac
/-- Local time in microseconds, milliseconds and seconds, rounded down (R209). -/
def locUs (d : Dev) : Nat := locNow d / 65536000
def locMs (d : Dev) : Nat := locNow d / 65536000000
def locSec (d : Dev) : Nat := locNow d / secUnits
def locNs (d : Dev) : Nat := locNow d / 65536

/-- The snapshot of all five counters at edge e (R206): nothing changes between the last edge and e but time. -/
def snapTake (d : Dev) (e : Nat) : Dev :=
  let e0 := d.now / 4
  let loc := d.time.loc + (e - e0) * tsStep
  let d1 := wr (wr d (.time 0) 0xa0 (BitVec.ofNat 64 (tSec loc))) (.time 0) 0xa8 (tNsWord loc)
  let d2 := (List.range 4).foldl (fun d i =>
    let x := domRun (dom d i) d.time.loc e0 e (dom d i).evs
    let v := if x.on then domAt x 0 else 0
    wr (wr d (.time 0) (0xb0 + i * 0x10) (BitVec.ofNat 64 (tSec v))) (.time 0) (0xb8 + i * 0x10) (tNsWord v)) d1
  wb { d2 with time := { d2.time with snapDue := none } } (.time 0) 0x90 1 true

/-! ### Interrupts and errors -/

/-- IRQ_PEND (Table 2.3). -/
def irqPend (d : Dev) (pg : Page) : W64 := rd d pg 0x20 &&& rd d pg 0x28

/-- A word of the MSI-X table (Table 12.2): vector control, in the upper half of the second word of an entry, masks the
entry at reset, as PCIe has it (log 22). -/
def msixWord (d : Dev) (a : Nat) : W64 := stGet (fun a => if a % 16 = 8 then 1 <<< 32 else 0) d.host.msixT a

/-- A memory request of the PCIe endpoint: issued, or held while Bus Master Enable is 0 (R320). -/
def hostMem (d : Dev) (o : Out) : Dev :=
  if rb d (.host 0) 0x80 7 then { d with out := d.out ++ [o] } else { d with host := { d.host with held := d.host.held ++ [o] } }

/-- An MSI-X message on a vector: sent, or pending while the vector is masked (R330). -/
def msixVec (d : Dev) (vec src : Nat) : Dev :=
  if bit (msixWord d (vec * 16 + 8)) 32 then
    { d with host := { d.host with pba := if d.host.pba.contains vec then d.host.pba else d.host.pba ++ [vec] } }
  else hostMem d (.msix vec src)

/-- A word of the MSI-X table written; a vector that is unmasked sends its pending message. -/
def msixWrite (d : Dev) (a : Nat) (v : W64) : Dev :=
  let t : Store := stPut (fun a => if a % 16 = 8 then (1 : W64) <<< 32 else 0) d.host.msixT a v
  let d1 := { d with host := { d.host with msixT := t } }
  let vec := a / 16
  if a % 16 = 8 ∧ !bit v 32 ∧ d.host.pba.contains vec then
    hostMem { d1 with host := { d1.host with pba := d1.host.pba.filter (· != vec) } } (.msix vec 256)
  else d1

/-- The MSI-X message of an interrupt source on its vector, where HOST_IRQ_ROUTE enables it (R329, R330). -/
def msix (d : Dev) (src : Nat) : Dev :=
  let r := rd d (.host 2) (0x80 + src / 8 * 8)
  let b := src % 8 * 8
  if bit r (b + 7) then msixVec d (fld r b 6) src else d

/-- IRQ_RAW of a page replaced; a rise of the interrupt output sends the page's message (R330). -/
def irqRawPut (d : Dev) (pg : Page) (v : W64) : Dev :=
  let before := irqPend d pg
  let d1 := wr d pg 0x20 v
  if before = 0 ∧ irqPend d1 pg ≠ 0 then msix d1 pg.irqSource else d1

/-- An IRQ_RAW bit of a page is raised (R49). -/
def irq (d : Dev) (pg : Page) (b : Nat) : Dev := irqRawPut d pg (setBit (rd d pg 0x20) b true)

/-- An ERR_RAW bit of a page is set, and its source delivers an event (R409). -/
def raiseF (d : Dev) (pg : Page) (b : Nat) (forced : Bool) : Dev :=
  let d1 := wb d pg 0x40 b true
  match pg.errSource b with
  | some s => { d1 with evq := d1.evq ++ [{ src := s, forced := forced }] }
  | none => d1

/-- An ERR_RAW bit of a page is set by its condition (R409). -/
def raise (d : Dev) (pg : Page) (b : Nat) : Dev := raiseF d pg b false

/-- A refusal recorded in PG_STAT.CFG_CONFLICT and CONFLICT_CAUSE (R48, Table 2.8). -/
def conflict (d : Dev) (pg : Page) (cause : Nat) : Dev := wf (wb d pg 0x18 3 true) pg 0x18 16 4 cause

/-- INVALID_VALUE (Table 2.8). -/
def invalidValue (d : Dev) (pg : Page) : Dev := conflict d pg 3

/-- Code of a master (Table 2.12). -/
def masterCode : Master → Nat
  | .scarab => 0 | .app => 1 | .host => 2 | .spi => 3 | .inband => 4 | .lighter => 5 | .debug => 6

/-- An access error (Table 2.12): first-error capture, count, CHIP ERR_RAW[37], PG_STAT.ACCESS_ERR of the page. -/
def accessErr (d : Dev) (m : Nat) (cause : Nat) (write : Bool) (width addr : Nat) : Dev :=
  let d1 := if rd d .chip 0x110 = 0 then
      wr (wr d .chip 0x100 (BitVec.ofNat 64 addr)) .chip 0x108 (mkWord [(0, m), (4, cause), (8, write.toNat), (9, width)])
    else d
  let d2 := raise (cnt d1 .chip 0x110 1) .chip 37
  match pageOf addr with
  | some pg => irq (wb d2 pg 0x18 7 true) pg 59
  | none => d2

/-! ### Conditions of blocks and domains -/

/-- The condition of a power domain (Table 11.10): 0 OFF, 1 ON, 2 CG, 3 RET, 4 L1.2. -/
def domCond (d : Dev) (x : Nat) : Nat := rf d .pwr 0x90 (3 * x) 3

/-- The condition of a power domain set. -/
def setDomCond (d : Dev) (x c : Nat) : Dev := wf d .pwr 0x90 (3 * x) 3 c

/-- Whether a domain is on; a clock-gated quay is powered. -/
def domUp (d : Dev) (x : Nat) : Bool := domCond d x == 1 || domCond d x == 2

/-- PG_CTRL.ENABLE of a page. -/
def enabled (d : Dev) (pg : Page) : Bool := rb d pg 0x10 0

/-- PG_STAT.RUNNING of a page. -/
def running (d : Dev) (pg : Page) : Bool := rb d pg 0x18 0

/-- A block is disabled only while ENABLE = 0 and QUIESCED = 1 (R46). -/
def disabled (d : Dev) (pg : Page) : Bool := !enabled d pg && rb d pg 0x18 1

/-- PG_LOCK.LOCK of a page (R71). -/
def locked (d : Dev) (pg : Page) : Bool := rb d pg 0x60 0

/-- COMMIT_PENDING or MIRROR_BUSY (R55). -/
def shadowFrozen (d : Dev) (pg : Page) : Bool := rb d pg 0x18 4 || rb d pg 0x18 5

/-- The next free value of a run (log 3). -/
def freeNat (d : Dev) : Nat × Dev := (Config.freeValue d.frees, { d with frees := d.frees + 1 })

/-- Something leaves the device. -/
def emit (d : Dev) (o : Out) : Dev := { d with out := d.out ++ [o] }

/-! ### Table changes that are issued and not yet visible (R116, R134) -/

/-- The cycles from the table read of a frame to its decision point (R105). -/
def readLead : Nat := 10

/-! ### The flow table's flush (R158) -/

/-- The addresses of the flow entries that are in use, in order. -/
def flowEntries (t : Store) : List Nat :=
  (t.filter fun e => 0x01000000 ≤ e.1 && e.1 < 0x01200000 && e.1 % 64 == 0 && bit e.2 63).map (·.1)

/-- An entry is invalidated: word 0 reads 0, and so do the others. -/
def flowClear (d : Dev) (a : Nat) : Dev := twrs d a (List.replicate 8 0)

/-- Entries that a flush command removes (Table 5.12). -/
def flushHits (t : Store) (v : W64) (a : Nat) : Bool :=
  let w0 := tIn t a
  let w6 := tIn t (a + 48)
  let op := fld v 0 3
  (op == 2 || (op == 3 && (fld w0 31 6 == fld v 19 6 || fld w0 25 6 == fld v 19 6))
    || (op == 4 && fld w6 32 11 == fld v 25 11 && !bit w6 43)) && !(bit v 3 && bit w0 24)

/-- A flush goes on up to a bucket: the matching entries present in each bucket that it reaches are removed. -/
def flushOn (d : Dev) (upto : Nat) : Dev :=
  match d.flush with
  | none => d
  | some (v, t, pos) =>
    let inside (a : Nat) : Bool := decide (pos ≤ (a - 0x01000000) / 256 ∧ (a - 0x01000000) / 256 < upto)
    let d1 := (flowEntries d.tbl).foldl (fun d a => if inside a && flushHits d.tbl v a then flowClear d a else d) d
    { d1 with flush := some (v, t, max pos upto) }

/-- A flush as far as it has come at an instant: one bucket in each cycle of CLK_FAB (log 12). -/
def flushTo (d : Dev) (t : Instant) : Dev :=
  match d.flush with
  | none => d
  | some (_, t0, pos) => if pos < min 8192 (t - t0) then flushOn d (min 8192 (t - t0)) else d

/-- A change written to the tables; an insertion finds its place taken where word 0 is not 0 (R116). -/
def putPend (d : Dev) (p : PendIns) : Dev :=
  let gone : Bool := match p.entry with | some a => !bit (trd d a) 63 | none => false
  if gone || (p.guard && trd d p.addr != 0) then d else twrs d p.addr p.words

/-- A change that is due by an instant enters the table and keeps the words it replaces. -/
def landPend (t : Instant) (x : Dev × List PendIns) (p : PendIns) : Dev × List PendIns :=
  if p.old.isNone && decide (p.vis ≤ t) then
    (putPend (flushTo x.1 p.vis) p, x.2 ++ [{ p with old := some ((List.range p.words.length).map fun k => trd x.1 (p.addr + k * 8)) }])
  else (x.1, x.2 ++ [p])

/-- The changes due by an instant are in the table, in order of issue; one that no undecided frame can have missed is forgotten. -/
def applyPend (d : Dev) (t : Instant) : Dev :=
  if d.pend = [] then d
  else
    let (d1, l) := d.pend.foldl (landPend t) (d, [])
    { d1 with pend := l.filter fun p => p.old.isNone || decide (t < p.vis + readLead) }

/-- The tables as a read in a cycle sees them (R116, R134): the changes visible then, and no later one. -/
def tableAt (d : Dev) (t : Instant) : Store :=
  let d1 := (d.pend.filter fun p => p.old.isNone && decide (p.vis ≤ t)).foldl putPend d
  ((d.pend.filter fun p => decide (t < p.vis)).reverse.foldl (fun d p => match p.old with
    | some ws => twrs d p.addr ws
    | none => d) d1).tbl

/-- The tables with every issued change in them. -/
def fullTbl (d : Dev) : Store := ((d.pend.filter (·.old.isNone)).foldl putPend d).tbl

/-- A change of a table issued now, visible from an instant on. -/
def issue (d : Dev) (vis addr : Nat) (ws : List W64) : Dev :=
  { d with pend := d.pend ++ [{ vis := vis, addr := addr, words := ws }] }

/-- An update of a valid entry that becomes visible at a cycle; where the entry is invalidated before, it has no effect (R135, R156). -/
def issueUpd (d : Dev) (vis entry addr : Nat) (ws : List W64) : Dev :=
  { d with pend := d.pend ++ [{ vis := vis, addr := addr, words := ws, entry := some entry }] }

/-- An insertion issued now, visible from an instant on (R116, R134). -/
def issueNew (d : Dev) (vis addr : Nat) (ws : List W64) : Dev :=
  { d with pend := d.pend ++ [{ vis := vis, addr := addr, words := ws, guard := true }] }

/-! ### Views: the generation that decides a frame (R68) -/

/-- The active registers and tables that decide a frame, their number, and the generations of BWT page 0 and of the FERRY page. -/
structure View where
  act   : Store
  tbl   : Store
  epoch : Nat
  gen   : Nat := 0
  fgen  : Nat := 0
deriving DecidableEq, Repr

/-- The configuration in force. -/
def curView (d : Dev) : View := { act := d.act, tbl := d.tbl, epoch := d.epoch, gen := rf d (.bwt 0) 0x50 0 32, fgen := rf d .ferry 0x50 0 32 }

/-- The active registers of a configuration as they are kept for frames in flight, the generations of BWT page 0 and FERRY among them. -/
def keptAct (d : Dev) : Store :=
  let gen (l : Store) (pg : Page) : Store := kvPut l (pg.base + 0x50) (BitVec.ofNat 64 (rf d pg 0x50 0 32))
  gen (gen d.act (.bwt 0)) .ferry

/-- The configuration of an epoch: in force, or kept for frames and carriers in flight. -/
def viewOf (d : Dev) (ep : Nat) : View :=
  match kvGet d.retired ep with
  | some (a, t) => { act := a, tbl := t, epoch := ep, gen := (kvD a ((Page.bwt 0).base + 0x50) 0).toNat,
                     fgen := (kvD a (Page.ferry.base + 0x50) 0).toNat }
  | none => curView d

/-- A word of a register as a view has it. -/
def va (d : Dev) (vw : View) (pg : Page) (off : Nat) : W64 := acIn vw.act d pg off

/-! ### The instant of a command -/

/-- Whether a step of a domain applies at an edge or before it: a snapshot of that edge includes it (R206). -/
def stepDue (d : Dev) (e : Nat) : Bool := d.time.doms.any fun x => x.2.steps.any fun s => decide (s.edge ≤ e)

/-- The time base brought to an instant (R199): nothing advances while CLK_TS is stopped (R207). -/
def timeAt (d : Dev) (t : Instant) : Dev :=
  let e0 := d.now / 4
  let e1 := t / 4
  if d.time.stopped ∨ t ≤ d.now then d
  else
    let d1 := match d.time.snapDue with
      | some e => if e < e1 ∨ e = e1 ∧ !stepDue d e then irq (snapTake d (max e e0)) (.time 0) 8 else d
      | none => d
    let doms := (List.range 4).foldl (fun l i =>
      let x := kvD l i {}
      if x = {} then l else kvPut l i (domRun x d1.time.loc e0 e1 x.evs)) d1.time.doms
    { d1 with time := { d1.time with loc := d1.time.loc + (e1 - e0) * tsStep, doms := doms } }

/-- The device moved on to an instant: its clocks, and the table changes that are due. -/
def moveTo (d : Dev) (t : Instant) : Dev := { flushTo (applyPend (timeAt d t) t) t with now := max d.now t }

end Sys2Proof.Machine
end

