-- ==== Sys2Proof/Machine/Registers.lean ====
section
/-! DEFINITION. Register access (chapters 0 and 2): who may write what (R69, R514), access errors (Table 2.12),
writes field by field (R513), freeze (R47), table windows (R43), soft resets' bookkeeping, generations and
commits (R54 to R58), signatures (R60, R61). -/

namespace Sys2Proof.Machine

/-! ### Table windows (Tables 2.2, 2.15) -/

/-- Length of the window at 4 MiB slot k of the table windows, per generation, and how many generations (Table 2.2):
what lies beyond is unmapped. The FRER functions and the XWE descriptors are areas of their own. The window at 0x0380_0000 exists as a
whole: what is no area of Table 5.16 and no multicast group reads 0 and ignores writes (DESIGN CHOICE, log 179). -/
def winLen (k : Nat) : Nat × Bool :=
  if k = 0 then (0x200000, false) else if k = 1 then (0x100000, false)
  else if k = 2 then (0x40000, true) else if k = 3 then (0x18000, true)
  else if k = 4 then (0x20000, true) else if k = 5 then (0x10000, true)
  else if k = 6 then (0x10000, false) else if k = 7 then (0x10000, false)
  else if k = 8 then (27 * 0x4000, true) else if k = 9 then (0x40000, true)
  else if k = 10 then (0x400000, false) else if k = 11 then (0x8000, true) else (0, false)

/-- Whether an address lies in an existing table, and whether in the read-only active half (R43). -/
def winHit (addr : Nat) : Option Bool :=
  if addr < 0x01000000 ∨ 0x04000000 ≤ addr then none
  else
    let k := (addr - 0x01000000) / 0x400000
    let o := (addr - 0x01000000) % 0x400000
    let (len, two) := winLen k
    let half := two && decide (0x200000 ≤ o)
    let oo := if half then o - 0x200000 else o
    let extra := (k == 6 && decide (0x100000 ≤ oo ∧ oo < 0x110000)) || (k == 11 && decide (0x100000 ≤ oo ∧ oo < 0x102000))
    if oo < len || extra then some half else none

/-- The page that governs writes to a table window (Table 2.15). -/
def winPage (addr : Nat) : Page :=
  let k := (addr - 0x01000000) / 0x400000
  let o := (addr - 0x01000000) % 0x400000 % 0x200000
  if k = 0 then .bwt 0
  else if k = 1 then .quay 0 0
  else if k = 2 ∨ k = 3 then .bwt 0
  else if k = 4 then .quay (quayFin (o / 0x8000)) 0
  else if k = 5 then .quay (quayFin (o / 0x4000)) 0
  else if k = 6 then (if (addr - 0x01000000) % 0x400000 < 0x100000 then .quay (quayFin (o / 0x4000)) 0 else .quay 0 0)
  else if k = 7 then .port 0 3
  else if k = 8 then (if o / 0x4000 = 26 then .quay 3 1 else .port (portFin (o / 0x4000)) 0)
  else if k = 9 then .quay (quayFin (o / 0x10000)) 1
  else if k = 10 then (if addr - 0x03800000 < 0x4000 then .quay 0 0 else .bwt 0)
  else if (addr - 0x01000000) % 0x400000 % 0x200000 < 0x100000 then .ferry else .xwe

/-- The shadow areas that a switch of a page exchanges (Table 2.10): address and length of the lower half. -/
def pageTables : Page → List (Nat × Nat)
  | .bwt i => if i.val = 0 then [(0x01800000, 0x40000), (0x01C00000, 0x18000)] else []
  | .quay n i =>
      if i.val = 0 then [(0x02000000 + n.val * 0x8000, 0x8000), (0x02400000 + n.val * 0x4000, 0x4000)]
      else if i.val = 1 then
        (0x03400000 + n.val * 0x10000, 0x10000) :: (if n.val = 3 then [(0x03000000 + 26 * 0x4000, 0x4000)] else [])
      else []
  | .port p i => if i.val = 0 ∧ p.val < 26 then [(0x03000000 + p.val * 0x4000, 0x4000)] else []
  | .ferry => [(0x03C00000, 0x8000)]
  | .xwe => [(0x03D00000, 0x2000)]
  | _ => []

/-- Periods of CLK_FAB that the refill of a page takes at most (Table 2.10, R56). -/
def refillTicks : Page → Nat
  | .bwt i => if i.val = 0 then 16384 else 0
  | .quay _ i => if i.val = 0 then 2048 else if i.val = 1 then 4096 else 0
  | .port p i => if i.val = 0 ∧ p.val < 26 then 1024 else 0
  | .ferry => 40960
  | .xwe => 10240
  | _ => 0

/-! ### Who may write (R69 to R72, R427) -/

/-- The debug port may write only in debug state INV (R69, Table 16.1): DBG_STAT.LEVEL = 2. -/
def debugMayWrite (d : Dev) : Bool := rf d .dbg 0x80 0 2 == 2

/-- OWNER and APP_WRITE judge a master (R69). The Lighter's own code carries the host's rights where no channel
is known (log 9). -/
def ownerAllows (d : Dev) (m : Master) (pg : Page) : Bool :=
  let o := rf d pg 0x8 0 2
  let app := rb d pg 0x8 10
  match m with
  | .scarab => true
  | .app => o == 2 || app
  | .debug => debugMayWrite d && o != 1
  | _ => o != 1

/-- Whether R72 answers for the pages of a power domain: it is off, or in retention; a quay that is gated in P0 to P2 is restored by the
access instead (R306). -/
def domOff (d : Dev) (x : Nat) : Bool :=
  let c := domCond d x
  c == 0 || (c == 3 && !(decide (5 ≤ x ∧ x ≤ 8) && decide (rf d .pwr 0x88 0 3 < 3)))

/-- The refusal of a write: 0 accepted, 9 discarded without an error (R427), else the cause of Table 2.12. -/
def writeCause (d : Dev) (m : Master) (addr width : Nat) : Nat :=
  if d.fcn.safe then 9
  else if width ≠ 3 ∨ addr % 8 ≠ 0 then 1
  else if 0x01000000 ≤ addr then
    match winHit addr with
    | none => 2
    | some half =>
      if domOff d (winPage addr).domain then 4
      else if half then 5
      else if !ownerAllows d m (winPage addr) then 3 else 0
  else match pageOf addr with
    | none => 2
    | some pg =>
      if domOff d pg.domain then 4
      else if pg.hasShadow ∧ 0x800 ≤ addr % 0x1000 then 5
      else if !ownerAllows d m pg then 3 else 0

/-- A write that passes the checks has an effect; another is discarded, and logged unless in the safe state. -/
def guarded (d : Dev) (m : Master) (addr width : Nat) (eff : Dev → Dev) : Dev :=
  let c := writeCause d m addr width
  if c = 0 then eff d else if c = 9 then d else accessErr d (masterCode m) c true width addr

/-- A write to a page whose register has a command row of its own: 64 bits wide and aligned. -/
def guardedAt (d : Dev) (m : Master) (pg : Page) (off : Nat) (eff : Dev → Dev) : Dev :=
  guarded d m (pg.base + off) 3 eff

/-! ### Writes field by field (R513) -/

/-- What R513 does with one field: the new word, and the cause of a conflict with its bit position. -/
def fieldWrite (d : Dev) (pg : Page) (old v : W64) (f : Fld) (acc : W64 × Option Nat) : W64 × Option Nat :=
  let (w, c) := acc
  let same := old &&& maskOf f.lo f.len == v &&& maskOf f.lo f.len
  let take := (mergeFld w v f.lo f.len, c)
  let refuse (cause : Nat) : W64 × Option Nat :=
    if same then (w, c) else (w, match c with | some x => some x | none => some cause)
  match f.kind with
  | .ro => (w, c)
  | .rw => take
  | .w1c => (w &&& ~~~(v &&& maskOf f.lo f.len), c)
  | .w1s => (w, c)
  | .wo => (w, c)
  | .ctr => (w, c)
  | .rwd => if disabled d pg then take else refuse 1
  | .rwl => if locked d pg then refuse 8 else take
  | .rws => if pg.hasShadow && shadowFrozen d pg then refuse 5 else take

/-- The snapshot of a frozen page (R47). -/
def frozenPage (d : Dev) (pg : Page) : Option Store := kvGet d.frz pg.base

/-- A write of 0 clears a counter, another value is ignored (R11); of a frozen counter it clears what is shown
and keeps what was counted since (R47). -/
def ctrWrite (d : Dev) (pg : Page) (off : Nat) (v : W64) : Dev :=
  if v ≠ 0 then d
  else match frozenPage d pg with
    | none => wr d pg off 0
    | some sn =>
      let held := (rd d pg off).toNat - (stGet regReset sn (pg.base + off)).toNat
      wr { d with frz := kvPut d.frz pg.base (kvPut sn (pg.base + off) 0) } pg off (BitVec.ofNat 64 held)

/-- A write applied field by field (R513): reserved bits are ignored (R10). -/
def writeFields (d : Dev) (pg : Page) (off : Nat) (v : W64) : Dev :=
  match pg.rowAt off with
  | none => d
  | some r =>
    if r.flds.any (fun f => f.kind == .ctr) then ctrWrite d pg off v
    else
      let old := rd d pg off
      let (w, c) := r.flds.foldl (fun acc f => fieldWrite d pg old v f acc) (old, none)
      let d1 := wr d pg off w
      match c with
      | some cause => conflict d1 pg cause
      | none => d1

/-- A write of IRQ_RAW clears bits; one that leaves IRQ_PEND not 0 counts as a rise (R330). -/
def irqRawClear (d : Dev) (pg : Page) (v : W64) : Dev :=
  let d1 := wr d pg 0x20 (rd d pg 0x20 &&& ~~~v)
  if irqPend d1 pg ≠ 0 then msix d1 pg.irqSource else d1

/-- A write of IRQ_EN; a rise of the interrupt output sends the page's message (R330). -/
def irqEnWrite (d : Dev) (pg : Page) (v : W64) : Dev :=
  let before := irqPend d pg
  let d1 := wr d pg 0x28 v
  if before = 0 ∧ irqPend d1 pg ≠ 0 then msix d1 pg.irqSource else d1

/-- IRQ_FORCE sets IRQ_RAW bits, in every life-cycle state (R49). All 64 bits of IRQ_RAW and IRQ_EN exist on every page (DESIGN CHOICE,
log 177: the manual does not say that block bits which no chapter names are reserved). -/
def irqForceOp (d : Dev) (pg : Page) (v : W64) : Dev := irqRawPut d pg (rd d pg 0x20 ||| v)

/-- Life-cycle state (Table 13.1): CAR_LC_STAT.LC. -/
def lcOf (d : Dev) : Nat := rf d .carapace 0x80 0 3

/-- Who may force errors (R50): every permitted master in LC_BLANK (0), LC_TEST (1) and LC_RMA (4), the Scarab in
LC_PROV (2) and LC_FIELD (3), no master in LC_SCRAP (5). -/
def forceAllowed (d : Dev) (m : Master) : Bool :=
  let lc := lcOf d
  if lc = 0 ∨ lc = 1 ∨ lc = 4 then true
  else if lc = 2 ∨ lc = 3 then m == .scarab else false

/-- ERR_FORCE sets ERR_RAW bits that are sources of the page, each delivering a forced event (R50, R429). -/
def errForceOp (d : Dev) (m : Master) (pg : Page) (v : W64) : Dev :=
  if forceAllowed d m then
    (List.range 64).foldl (fun d b => if bit v b && (pg.errSource b).isSome then raiseF d pg b true else d) d
  else accessErr d (masterCode m) 6 true 3 (pg.base + 0x48)

/-- PG_LOCK.LOCK: the page's rwl fields become read-only; LOCKER is the writer (R71). -/
def pageLockOp (d : Dev) (m : Master) (pg : Page) : Dev :=
  if locked d pg then d
  else wb (wr d pg 0x60 (mkWord [(0, 1), (1, masterCode m)])) pg 0x18 8 true

/-- PG_CAP: OWNER 3 is invalid and leaves OWNER; a fixed owner is ro; APP_WRITE by R513 (Table 2.5), and 0 on BWT page 1 (R166). -/
def pgCapWrite (d : Dev) (pg : Page) (v : W64) : Dev :=
  let old := rd d pg 0x8
  let fixedOwner := pg.ownerFixed
  let bad := fld v 0 2 == 3 && !fixedOwner
  let v0 := if fixedOwner || bad then mergeFld v old 0 2 else v
  let v1 := if pg = .bwt 1 then mergeFld v0 old 10 1 else v0
  let d1 := writeFields d pg 0x8 v1
  if bad then invalidValue d1 pg else d1

/-! ### Reads of the header (Tables 2.3 to 2.7, R72) -/

/-- PG_ID (Table 2.4). -/
def pgId (pg : Page) : W64 :=
  mkWord [(0, pg.blockType), (16, pg.instanceNo), (32, pg.index), (40, pg.pageCount), (48, 1)]

/-- PG_CAP (Table 2.5); FEATURE is 0 where no chapter defines it (log 10). -/
def pgCap (d : Dev) (pg : Page) : W64 :=
  (rd d pg 0x8 &&& (maskOf 0 2 ||| maskOf 10 1))
    ||| mkWord [(4, pg.domain), (8, pg.hasShadow.toNat), (9, pg.tide.toNat)]

/-- PG_STAT with DOMAIN_ON and LOCKED (Table 2.7). -/
def pgStat (d : Dev) (pg : Page) : W64 :=
  setBit (setBit (rd d pg 0x18) 2 (domUp d pg.domain)) 8 (locked d pg)

/-- COMPUTED of PG_SIG: the CRC-32 over rwd, rwl and rws fields from +0x080 upward, rws fields with their active values, rwd and rwl
fields with theirs (R60; DEDUCED, log 178), all others as 0. -/
def signature (d : Dev) (pg : Page) : Nat :=
  let words := pg.ownRows.flatMap fun r =>
    let m := r.bits (fun k => k == .rwd || k == .rwl || k == .rws)
    if m = 0 then [] else (List.range r.count).map fun k => (r.off + k * r.stride, m)
  let sorted := words.foldl (fun l p => kvPut l p.1 p.2) ([] : List (Nat × W64))
  let fcnWords := match pg with
    | .fcn i => if i.val = 1 ∨ i.val = 2 then
        (List.range 256).map (fun k => (0x800 + k * 8, maskOf 0 3 ||| maskOf 4 6)) else []
    | _ => []
  crc32 ((sorted ++ fcnWords).flatMap fun p => wordBytes (acHeld d.act d pg p.1 &&& p.2))

/-! ### Enable, disable, freeze (R46, R47) -/

/-- The end of the enabling of a page whose chapter does not refuse it: RUNNING unless a soft reset runs. -/
def enableOp (d : Dev) (pg : Page) : Dev :=
  if enabled d pg then d
  else wb (wb (wb d pg 0x10 0 true) pg 0x18 0 (!rb d pg 0x10 1)) pg 0x18 1 false

/-- ENABLE is cleared: no new work; QUIESCED follows with the end of the unit of work (R46). -/
def disableOp (d : Dev) (pg : Page) : Dev :=
  if enabled d pg then wb (wb d pg 0x10 0 false) pg 0x18 0 false else d

/-- QUIESCED of a disabled block (R46). -/
def quiescedOp (d : Dev) (pg : Page) : Dev :=
  if enabled d pg then d else wb d pg 0x18 1 true

/-! ### Generations (R54 to R58) -/

/-- CFG_GEN.GEN. -/
def genOf (d : Dev) (pg : Page) : Nat := rf d pg 0x50 0 32

/-- A commit is dropped or refused: it raises COMMIT_REJECT, and the cause is recorded (R54). -/
def commitReject (d : Dev) (pg : Page) (cause : Nat) : Dev := conflict (irq d pg 62) pg cause

/-- STATE of a Tide slot (Table 2.12): 0 IDLE, 1 OPEN, 2 ARMED, 3 FIRED. -/
def slotState (d : Dev) (n : Nat) : Nat := rf d .chip (0x410 + n * 0x20) 2 3

/-- The commit request of R54, given whether every shadow field holds a valid value: the first condition of R54 that
fails, in its order, is the cause. -/
def commitReq (d : Dev) (m : Master) (pg : Page) (v : W64) (valid : Bool) : Dev :=
  let next := fld v 0 32
  let tide := bit v 32
  let slot := fld v 33 3
  if !pg.hasShadow then accessErr d (masterCode m) 7 true 3 (pg.base + 0x58)
  else if next ≠ (genOf d pg + 1) % 2 ^ 32 then commitReject d pg 2
  else if shadowFrozen d pg then commitReject d pg 4
  else if !valid then commitReject d pg 3
  else if tide ∧ !pg.tide then commitReject d pg 7
  else if tide ∧ 2 ≤ slotState d slot then commitReject d pg 6
  else
    let d1 := wf (wr d pg 0x58 (v &&& maskOf 0 36)) pg 0x50 32 32 next
    let d2 := wb d1 pg 0x18 4 true
    if tide then
      let o := 0x410 + slot * 0x20
      let d3 := wf (wb d2 pg 0x18 23 true) pg 0x18 20 3 slot
      wf (wf d3 .chip o 2 3 1) .chip o 16 16 (rf d3 .chip o 16 16 + 1)
    else { d2 with commitAt := kvPut d2.commitAt pg.base d2.now }

/-- Pages whose active copies a switch of a page replaces: BUOY page 0 switches pages 0 to 3 (R300). -/
def switchPages : Page → List Page
  | .buoy i => if i.val = 0 then [.buoy 0, .buoy 1, .buoy 2, .buoy 3] else []
  | pg => [pg]

/-- The shadow copies of a page taken as active copies. -/
def copyShadow (regs act : Store) (pg : Page) : Store :=
  let b := pg.base
  let kept := act.filter (fun e => e.1 < b || b + 0x1000 ≤ e.1)
  let moved := (regs.filter (fun e => b ≤ e.1 && e.1 < b + 0x1000)).filterMap fun e =>
    let m := shadowBits pg (e.1 - b)
    let v := (e.2 &&& m) ||| (regReset e.1 &&& ~~~m)
    if m = 0 ∨ v = regReset e.1 then none else some (e.1, v)
  kept.filter (fun e => e.1 < b) ++ moved ++ kept.filter (fun e => b + 0x1000 ≤ e.1)

/-- The switch of a page (R55): active registers and tables, CFG_GEN, MIRROR_BUSY, the signature pass restarts (R61).
The exchange and the refill leave both copies equal to the old shadow, which is what a read of the shadow half
returns from the switch on. -/
def switchPage (d : Dev) (pg : Page) : Dev :=
  let gen := rf d pg 0x50 32 32
  let act := (switchPages pg).foldl (fun a p => copyShadow d.regs a p) d.act
  let tbl := (pageTables pg).foldl (fun t p => copyRange t (p.1 + 0x200000) p.1 p.2) d.tbl
  let d1 := { d with act := act, tbl := tbl, commitAt := kvDel d.commitAt pg.base,
                     refillAt := kvPut d.refillAt pg.base (d.now + refillTicks pg),
                     sigFrom := kvPut d.sigFrom pg.base d.now }
  let d2 := (switchPages pg).foldl (fun d p => wr d p 0x50 (mkWord [(0, gen), (32, gen)])) d1
  wb (wb (wb d2 pg 0x18 4 false) pg 0x18 5 true) pg 0x18 23 false

/-- The earliest instant of the switch of an immediate commit accepted at `a` (Table 2.11): 16 cycles of CLK_SYS, from
there the next edge of CLK_EDGE for the edge blocks; the Buoy's write crossing and one edge of CLK_BUOY at its
fastest (−1 %) for BUOY. -/
def switchDue (pg : Page) (a : Instant) : Instant :=
  match pg with
  | .ferry | .can _ | .lin _ | .xwe => (a + 32 + 9) / 10 * 10
  | .buoy _ => a + 299
  | _ => a + 32

/-- The refill of a page ends (R55): COMMIT_DONE; the last page of a fired slot returns it to IDLE (R65). -/
def refillEnd (d : Dev) (pg : Page) : Dev :=
  match kvGet d.refillAt pg.base with
  | none => d
  | some _ =>
    let d1 := irq (wb { d with refillAt := kvDel d.refillAt pg.base } pg 0x18 5 false) pg 63
    match kvGet d1.tideRef pg.base with
    | none => d1
    | some n =>
      let o := 0x410 + n * 0x20
      let left := rf d1 .chip o 32 16 - 1
      let d2 := wf { d1 with tideRef := kvDel d1.tideRef pg.base } .chip o 32 16 left
      if left = 0 then wf (wf (wf d2 .chip o 2 3 0) .chip o 16 16 0) .chip (o + 8) 0 2 1 else d2

/-- A CRC pass of a page ends (R61): COMPUTED, and a mismatch reported. A pass that began before the last switch or
covered write was discarded. -/
def sigPassOp (d : Dev) (pg : Page) : Dev :=
  if !ab d pg 0x10 3 || disabled d pg then d
  else
    let c := signature d pg
    let d1 := { (wf d pg 0x68 32 32 c) with sigFrom := kvPut d.sigFrom pg.base d.now }
    if c = af d1 pg 0x68 0 32 then d1 else raise (irq (wb d1 pg 0x18 6 true) pg 60) pg 63

/-! ### Tides (R62 to R67) -/

/-- The pages joined to a slot. -/
def joinedPages (d : Dev) (n : Nat) : List Page :=
  allPages.filter fun pg => pg.tide && rb d pg 0x18 23 && rf d pg 0x18 20 3 == n && rb d pg 0x18 4

/-- A pending Tide commit is dropped with SLOT_ENDED (R64, R67). -/
def dropJoined (d : Dev) (pg : Page) : Dev :=
  let d1 := wb (wb d pg 0x18 4 false) pg 0x18 23 false
  conflict (wf d1 pg 0x50 32 32 (genOf d1 pg)) pg 9

/-- The Tide time of a slot in units of 2^-16 ns, and its domain code. -/
def slotTime (d : Dev) (n : Nat) : Nat × Nat :=
  let ns := rd d .chip (0x408 + n * 0x20)
  (tMake (rd d .chip (0x400 + n * 0x20)).toNat (fld ns 0 32) (fld ns 32 16), fld ns 48 3)

/-- Two microseconds in units of 2^-16 ns. -/
def twoUs : Nat := 2000 * 65536

/-- CHIP_TIDE_n_SEC and _NS accept writes while IDLE or OPEN (R62). -/
def tideTimeOp (d : Dev) (n : Nat) (isNs : Bool) (v : W64) : Dev :=
  if slotState d n ≤ 1 then writeFields d .chip ((if isNs then 0x408 else 0x400) + n * 0x20) v else d

/-- ARM of a slot (R63): the code of the first condition that fails, 0 if none. -/
def armReject (d : Dev) (n : Nat) : Nat :=
  let (tt, dm) := slotTime d n
  if rf d .chip (0x410 + n * 0x20) 16 16 = 0 then 3
  else if 4 < dm ∨ !domOn d dm then 2
  else if 1000000000 ≤ rf d .chip (0x408 + n * 0x20) 0 32 then 4
  else if tt < timeOf d dm + twoUs then 1 else 0

/-- ARM = 1 written alone (R63). -/
def tideArmOp (d : Dev) (n : Nat) : Dev :=
  let o := 0x410 + n * 0x20
  if slotState d n = 0 then wf d .chip (o + 8) 4 4 3
  else if slotState d n = 1 then
    let c := armReject d n
    let d1 := wf d .chip (o + 8) 4 4 c
    if c = 0 then wf d1 .chip o 2 3 2 else d1
  else d

/-- A slot ends with an outcome: every joined page drops its commit (R64, R67). -/
def slotEnd (d : Dev) (n outcome cause page : Nat) : Dev :=
  let o := 0x410 + n * 0x20
  let d1 := (joinedPages d n).foldl dropJoined d
  let d2 := wf (wf d1 .chip o 2 3 0) .chip o 16 16 0
  wf (wf (wf d2 .chip (o + 8) 0 2 outcome) .chip (o + 8) 9 3 cause) .chip (o + 8) 12 14 page

/-- CANCEL = 1 written alone (R64). -/
def tideCancelOp (d : Dev) (n : Nat) : Dev :=
  let o := 0x410 + n * 0x20
  let st := slotState d n
  let (tt, dm) := slotTime d n
  if st = 0 then d
  else if st = 1 then slotEnd d n 2 (rf d .chip (o + 8) 9 3) (rf d .chip (o + 8) 12 14)
  else if st = 2 ∧ timeOf d dm + twoUs ≤ tt then slotEnd d n 2 (rf d .chip (o + 8) 9 3) (rf d .chip (o + 8) 12 14)
  else wb d .chip (o + 8) 8 true

/-- A write of CHIP_TIDE_n_CTRL: both bits together are ignored as a whole (R64). -/
def tideCtrlOp (d : Dev) (n : Nat) (v : W64) : Dev :=
  if bit v 0 && bit v 1 then d
  else if bit v 0 then tideArmOp d n
  else if bit v 1 then tideCancelOp d n else d

/-- An abort of every slot that is OPEN or ARMED and that `p` accepts (R67). -/
def abortSlots (d : Dev) (p : Dev → Nat → Bool) (cause page : Nat) : Dev :=
  (List.range 8).foldl (fun d n => if (slotState d n = 1 ∨ slotState d n = 2) ∧ p d n then slotEnd d n 3 cause page else d) d

/-- The power-down of a domain aborts each slot that a page of the domain has joined (R67). -/
def abortDomain (d : Dev) (x : Nat) : Dev :=
  (List.range 8).foldl (fun d n =>
    if slotState d n = 1 ∨ slotState d n = 2 then
      match (joinedPages d n).find? (fun pg => pg.domain == x) with
      | some pg => slotEnd d n 3 1 (pg.base / 0x1000)
      | none => d
    else d) d

end Sys2Proof.Machine
end

