-- ==== Sys2Proof/Machine/Parser.lean ====
section
/-! DEFINITION. The parser (R106 to R108), VLAN classification (R109), the keys of Breakwater (R146), the hash keys of
streams (R118), flows (R152) and queue cells (R172), and the edits of an egress copy (R144, R118, R125). -/

namespace Sys2Proof.Machine

/-- What the parser finds in a frame: tags, R-TAG, EtherType, network and transport headers, flags (Table 4.6).
`l2` counts the octets before the network header. -/
structure Parsed where
  da     : Nat := 0
  sa     : Nat := 0
  tags   : List (Nat × Nat) := []
  rtag   : Option Nat := none
  l2     : Nat := 14
  etype  : Nat := 0
  kind   : Nat := 0
  sip    : Nat := 0
  dip    : Nat := 0
  proto  : Nat := 0
  dscp   : Nat := 0
  sport  : Nat := 0
  dport  : Nat := 0
  tcp    : Nat := 0
  sub    : Nat := 0
  ipLen  : Option Nat := none
  l4     : Bool := false
  echo   : Bool := false
  frag   : Bool := false
  trunc  : Bool := false
  err    : Bool := false
  l4off  : Nat := 0
deriving DecidableEq, Repr

/-- The parser's settings (QUAY_PARSE_CTRL). -/
structure ParseCfg where
  extra : Nat
  rtag  : Bool
  v6ext : Bool
deriving DecidableEq, Repr

/-- The parser's settings from the word of QUAY_PARSE_CTRL. -/
def parseCfg (v : W64) : ParseCfg := { extra := fld v 0 16, rtag := bit v 16, v6ext := bit v 17 }

/-- Where a header of `len` octets at `off` stands: 0 whole, 1 beyond octet 128 (PARSE_TRUNC), 2 past the frame (PARSE_ERR), 3 both. -/
def hdrFit (l : List Byte) (off len : Nat) : Nat :=
  (if l.length < off + len then 2 else 0) + (if 128 < off + len then 1 else 0)

/-- The flags of a header that does not fit; parsing ends there (R108). -/
def unfit (p : Parsed) (k : Nat) : Parsed := { p with trunc := p.trunc || k % 2 == 1, err := p.err || decide (2 ≤ k) }

/-- The transport header (Tables 4.1, 4.5): ports, ICMP type and code with the echo identifier, TCP flags. -/
def parseL4 (l : List Byte) (off : Nat) (p : Parsed) : Parsed :=
  let ty := octetAt l off
  let isEcho := decide (off < l.length) && ((p.proto = 1 && (ty == 8 || ty == 0)) || (p.proto = 58 && (ty == 128 || ty == 129)))
  if p.proto = 1 ∨ p.proto = 6 ∨ p.proto = 17 ∨ p.proto = 58 ∨ p.proto = 132 then
    let need := if p.proto = 6 then 14 else if isEcho then 6 else 4
    let k := hdrFit l off need
    if k ≠ 0 then unfit p k
    else
      { p with l4 := true, l4off := off, echo := isEcho, sport := be16 l off,
               dport := if p.proto = 1 ∨ p.proto = 58 then (if isEcho then be16 l (off + 4) else 0) else be16 l (off + 2),
               tcp := if p.proto = 6 then octetAt l (off + 13) else 0 }
  else p

/-- The extension headers of IPv6 (Table 4.5): at most `n` of types 0, 43, 44 and 60. -/
def parseV6Ext (l : List Byte) : Nat → Nat → Nat → Bool → Parsed → Parsed
  | 0, off, nh, later, p =>
    let p1 := { p with proto := nh, frag := p.frag || nh == 44 }
    if nh = 0 ∨ nh = 43 ∨ nh = 44 ∨ nh = 60 ∨ later then p1 else parseL4 l off p1
  | n + 1, off, nh, later, p =>
    let p1 := { p with proto := nh, frag := p.frag || nh == 44 }
    if nh = 0 ∨ nh = 43 ∨ nh = 44 ∨ nh = 60 then
      let len := if nh = 44 ∨ l.length < off + 2 then 8 else (octetAt l (off + 1) + 1) * 8
      let k := hdrFit l off len
      if k ≠ 0 then unfit p1 k
      else parseV6Ext l n (off + len) (octetAt l off) (later || (nh == 44 && be16 l (off + 2) / 8 != 0)) p1
    else if later then p1 else parseL4 l off p1

/-- The IPv4 header (R106, R108): the total length is kept for R121. -/
def parseV4 (l : List Byte) (off : Nat) (p : Parsed) : Parsed :=
  let b0 := octetAt l off
  let ihl := b0 % 16
  let tot := be16 l (off + 2)
  let p1 := { p with kind := 1, sip := beNat (slice l (off + 12) 4) * 256 ^ (4 - (slice l (off + 12) 4).length),
                     dip := beNat (slice l (off + 16) 4) * 256 ^ (4 - (slice l (off + 16) 4).length),
                     proto := octetAt l (off + 9), dscp := octetAt l (off + 1) / 4,
                     frag := be16 l (off + 6) / 8192 % 2 == 1 || be16 l (off + 6) % 8192 != 0 }
  if l.length < off + 20 then { p1 with err := true }
  else if b0 / 16 ≠ 4 ∨ ihl < 5 ∨ tot < 4 * ihl then { p1 with err := true }
  else
    let k := hdrFit l off (4 * ihl)
    if k ≠ 0 then unfit p1 k
    else
      let p3 := { p1 with ipLen := some tot }
      if be16 l (off + 6) % 8192 ≠ 0 then p3 else parseL4 l (off + 4 * ihl) p3

/-- The IPv6 header (R106, R108). -/
def parseV6 (l : List Byte) (off : Nat) (c : ParseCfg) (p : Parsed) : Parsed :=
  let p1 := { p with kind := 2, sip := beNat (slice l (off + 8) 16) * 256 ^ (16 - (slice l (off + 8) 16).length),
                     dip := beNat (slice l (off + 24) 16) * 256 ^ (16 - (slice l (off + 24) 16).length),
                     proto := octetAt l (off + 6), dscp := be16 l off / 64 % 64, frag := octetAt l (off + 6) == 44 }
  if l.length < off + 40 ∨ octetAt l off / 16 ≠ 6 then { p1 with err := true }
  else
    let k := hdrFit l off 40
    if k ≠ 0 then unfit p1 k
    else
      let p2 := { p1 with ipLen := some (40 + be16 l (off + 4)) }
      parseV6Ext l (if c.v6ext then 4 else 0) (off + 40) (octetAt l (off + 6)) false p2

/-- What follows the tags: R-TAG, then the EtherType and its header. -/
def parseNet (l : List Byte) (c : ParseCfg) (off : Nat) (p : Parsed) : Parsed :=
  let et := be16 l off
  if et = 0xF1C1 ∧ c.rtag ∧ p.rtag = none then
    let k := hdrFit l off 8
    if k ≠ 0 then unfit { p with etype := et, l2 := off + 2 } k
    else parseType { p with rtag := some (be16 l (off + 4)) } (off + 6)
  else parseType p off
where
  /-- The EtherType at an offset and the header it names. -/
  parseType (p : Parsed) (off : Nat) : Parsed :=
    let et := be16 l off
    let p1 := { p with etype := et, l2 := off + 2 }
    if l.length < off + 2 then { p1 with err := true }
    else if et = 0x0800 then parseV4 l (off + 2) p1
    else if et = 0x86DD then parseV6 l (off + 2) c p1
    else if et = 0x22F0 then
      let k := hdrFit l (off + 2) 1
      if k ≠ 0 then unfit p1 k else { p1 with sub := octetAt l (off + 2) }
    else p1

/-- Whether a TPID is recognised (Table 4.5). -/
def isTpid (c : ParseCfg) (x : Nat) : Bool := x == 0x8100 || x == 0x88A8 || (c.extra != 0 && x == c.extra)

/-- The parser (R106 to R108): at most two tags (R107). -/
def parse (l : List Byte) (c : ParseCfg) : Parsed :=
  let p0 : Parsed := { da := beNat (slice l 0 6), sa := beNat (slice l 6 6) }
  if l.length < 14 then { p0 with err := true }
  else if isTpid c (be16 l 12) then
    if l.length < 18 then { p0 with err := true, etype := be16 l 12 }
    else
      let p1 := { p0 with tags := [(be16 l 12, be16 l 14)] }
      if isTpid c (be16 l 16) then
        if l.length < 22 then { p1 with err := true, etype := be16 l 16, l2 := 18 }
        else parseNet l c 20 { p1 with tags := p1.tags ++ [(be16 l 16, be16 l 18)] }
      else parseNet l c 16 p1
  else parseNet l c 12 p0

/-- The outer tag's VID, PCP and DEI; none without a tag. -/
def Parsed.outer (p : Parsed) : Option (Nat × Nat × Bool) :=
  p.tags.head?.map fun t => (t.2 % 4096, t.2 / 8192, t.2 / 4096 % 2 == 1)

/-- The length from DA to FCS that the IP header gives (R121). -/
def Parsed.derivedLen (p : Parsed) : Option Nat := if p.err then none else p.ipLen.map (· + p.l2 + 4)

/-! ### Keys -/

/-- The frame as Breakwater sees it: the common part and the body of its key (Tables 5.6, 5.7). -/
structure Subject where
  kind    : Nat
  src     : Nat
  srcZone : Nat
  pcp     : Nat
  vid     : Nat
  flags   : Nat
  stream  : Option Nat
  body    : Nat
deriving DecidableEq, Repr

/-- K[319:0] of a subject with its DST_ZONE, DST and DIAG_OPEN (Table 5.6). -/
def Subject.key (s : Subject) (dstZone dst : Nat) (diag : Bool) : Nat :=
  let flags := s.flags + (if diag then 2 else 0) + (if s.stream.isSome then 1 else 0)
  s.kind * 2 ^ 317 + s.srcZone * 2 ^ 311 + dstZone * 2 ^ 305 + s.src * 2 ^ 299 + dst * 2 ^ 293
    + s.pcp * 2 ^ 290 + s.vid * 2 ^ 278 + flags * 2 ^ 269 + s.stream.getD 0 * 2 ^ 257 + s.body

/-- The body of the key of an Ethernet frame (Table 5.7). -/
def Parsed.keyBody (p : Parsed) (l : List Byte) : Nat :=
  let sa := beNat (slice l 6 6)
  let da := beNat (slice l 0 6)
  if p.kind = 1 then
    p.sip * 2 ^ 224 + p.dip * 2 ^ 192 + p.proto * 2 ^ 184 + p.dscp * 2 ^ 178 + p.sport * 2 ^ 160
      + p.dport * 2 ^ 144 + p.tcp * 2 ^ 136 + sa * 2 ^ 88 + da * 2 ^ 40 + p.etype * 2 ^ 24
  else if p.kind = 2 then
    p.dip * 2 ^ 128 + (p.sip / 2 ^ 64) * 2 ^ 64 + p.proto * 2 ^ 56 + p.dscp * 2 ^ 50 + p.sport * 2 ^ 32
      + p.dport * 2 ^ 16 + p.tcp * 2 ^ 8
  else da * 2 ^ 208 + sa * 2 ^ 160 + p.etype * 2 ^ 144 + p.sub * 2 ^ 136

/-- The flags of Table 4.6 in key order, [8] PARSE_TRUNC to [2] SA_STATIC_MISMATCH. -/
def Parsed.flagBits (p : Parsed) (unknown mismatch : Bool) : Nat :=
  p.trunc.toNat * 256 + p.err.toNat * 128 + p.frag.toNat * 64 + (!p.l4).toNat * 32 + p.rtag.isSome.toNat * 16
    + unknown.toNat * 8 + mismatch.toNat * 4

/-- The body of the key of a CAN frame (Table 5.7). -/
def canKeyBody (f : CanFrame) (dir : Bool) (secured : Bool) : Nat :=
  let data := (f.data.take 20) ++ List.replicate (20 - (f.data.take 20).length) 0
  let data0 := if f.rtr then List.replicate 20 (0 : Byte) else data
  let xl := f.xlf
  f.id * 2 ^ 227 + f.ide.toNat * 2 ^ 226 + f.fdf.toNat * 2 ^ 225 + f.xlf.toNat * 2 ^ 224 + f.rtr.toNat * 2 ^ 223
    + f.dlc * 2 ^ 212 + (if xl then f.sdt else 0) * 2 ^ 204 + (if xl then f.vcid else 0) * 2 ^ 196
    + (if xl then f.af else 0) * 2 ^ 164 + dir.toNat * 2 ^ 163 + secured.toNat * 2 ^ 162 + beNat data0

/-- The protected identifier of a LIN frame: parity bits P0 and P1 above the identifier (ISO 17987). -/
def linPid (fid : Nat) : Nat :=
  let b (i : Nat) := fid / 2 ^ i % 2
  let p0 := (b 0 + b 1 + b 2 + b 4) % 2
  let p1 := (b 1 + b 3 + b 4 + b 5 + 1) % 2
  fid + p0 * 64 + p1 * 128

/-- The body of the key of a LIN frame (Table 5.7). -/
def linKeyBody (f : LinFrame) (dir : Bool) : Nat :=
  let data := (f.data.take 8) ++ List.replicate (8 - (f.data.take 8).length) 0
  linPid f.fid * 2 ^ 248 + min 8 f.data.length * 2 ^ 244 + dir.toNat * 2 ^ 243 + f.enhanced.toNat * 2 ^ 242 + beNat data * 2 ^ 160

/-- The flow bytes of R172: ports enter as 0 in every fragment. -/
def Parsed.flowBytes (p : Parsed) (l : List Byte) (vid : Nat) : List Byte :=
  let ports := if p.frag then beBytes 4 0 else beBytes 2 p.sport ++ beBytes 2 p.dport
  if p.kind = 1 then beBytes 4 p.sip ++ beBytes 4 p.dip ++ beBytes 1 p.proto ++ ports
  else if p.kind = 2 then beBytes 16 p.sip ++ beBytes 16 p.dip ++ beBytes 1 p.proto ++ ports
  else slice l 0 6 ++ slice l 6 6 ++ beBytes 2 vid

/-! ### Edits of an egress copy -/

/-- The frame without its outer tag. -/
def dropTag (c : ParseCfg) (l : List Byte) : List Byte :=
  if isTpid c (be16 l 12) then l.take 12 ++ l.drop 16 else l

/-- The frame with a tag after the SA. -/
def addTag (tpid vid pcp : Nat) (dei : Bool) (l : List Byte) : List Byte :=
  l.take 12 ++ beBytes 2 tpid ++ beBytes 2 (pcp * 8192 + dei.toNat * 4096 + vid) ++ l.drop 12

/-- The copy's outer tag by R144: untagged where `untag`; else the classification VID and PCP, the TPID kept where the
frame had a tag, 0x8100 where it had none (log 11). -/
def retag (c : ParseCfg) (p : Parsed) (untag : Bool) (vid pcp : Nat) (dei : Bool) (l : List Byte) : List Byte :=
  let bare := dropTag c l
  if untag then bare
  else addTag (match p.tags.head? with | some t => t.1 | none => 0x8100) vid pcp dei bare

/-- The offset of the EtherType after the tags. -/
def typeOff (c : ParseCfg) (l : List Byte) : Nat :=
  if isTpid c (be16 l 12) then (if isTpid c (be16 l 16) then 20 else 16) else 12

/-- The frame without its R-TAG (RTAG_POP, R125). -/
def popRtag (c : ParseCfg) (l : List Byte) : List Byte :=
  let o := typeOff c l
  if be16 l o = 0xF1C1 then l.take o ++ l.drop (o + 6) else l

/-- The frame with an R-TAG that carries a sequence number (R125). -/
def pushRtag (c : ParseCfg) (seq : Nat) (l : List Byte) : List Byte :=
  let o := typeOff c l
  l.take o ++ beBytes 2 0xF1C1 ++ beBytes 2 0 ++ beBytes 2 seq ++ l.drop o

/-- The frame with another DA (TYPE 2 streams, R118). -/
def newDa (da : Nat) (l : List Byte) : List Byte := beBytes 6 da ++ l.drop 6

end Sys2Proof.Machine
end

