-- ==== Sys2Proof/Machine/Breakwater.lean ====
section
/-! DEFINITION. Breakwater (chapter 5): zones, zone pairs, ternary rules and their rate gate, the stateful flow table,
the verdict of each destination, log records, the flow commands and sweeps, sealing and the commit checks. -/

namespace Sys2Proof.Machine

/-! ### Zones (R141, R142, R144) -/

/-- The active half of the zone window. -/
def zoneBase : Nat := 0x01E00000

/-- A zone-map entry; one with ZONE = 63 acts as invalid (R515). -/
def zoneMap (t : Store) (ep : Nat) : Option (Nat × Bool) :=
  let w := tIn t (zoneBase + 0x14000 + ep * 8)
  if bit w 63 ∧ fld w 0 6 ≠ 63 then some (fld w 0 6, bit w 6) else none

/-- A VLAN entry (Table 5.3): MEMBER, UNTAG, zone; one with ZONE_EN and ZONE = 63 acts as invalid (R515). -/
def vlanEntry (t : Store) (vid : Nat) : Option (Nat × Nat × Option Nat) :=
  let w0 := tIn t (zoneBase + vid * 16)
  let w1 := tIn t (zoneBase + vid * 16 + 8)
  if bit w0 63 ∧ ¬(bit w1 38 ∧ fld w1 32 6 = 63) then
    some (fld w0 0 29, fld w1 0 29, if bit w1 38 then some (fld w1 32 6) else none)
  else none

/-- The zone of an endpoint for a classification VID (R141). -/
def zoneOf (t : Store) (ep vid : Nat) : Option Nat :=
  (zoneMap t ep).map fun z =>
    if z.2 ∧ ep < 29 then (match vlanEntry t vid with | some (_, _, some x) => x | _ => z.1) else z.1

/-! ### Actions (Tables 5.5, 5.8) -/

/-- VERDICT 3 acts as DROP (R515). -/
def verdictOf (x : Nat) : Nat := if x = 3 then 1 else x

/-- MIRROR_SESSION, METER_ID and WTAG in the places of Table 5.5. -/
def entryBits (session meter wtag : Nat) : Nat := (mkWord [(9, session), (13, meter), (24, wtag)]).toNat

/-- An action from the bits of a zone-pair entry. -/
def zpAction (w : Nat) : Action :=
  let v := BitVec.ofNat 64 w
  { verdict := verdictOf (fld v 0 2), mirror := if bit v 2 then some (fld v 9 4) else none,
    meter := if bit v 3 then some (fld v 13 9) else none, witness := if bit v 4 then some (fld v 24 8) else none,
    log := bit v 5, create := bit v 6, estab := bit v 7, rules := bit v 8, kept := entryBits (fld v 9 4) (fld v 13 9) (fld v 24 8) }

/-- The 32 bits of the zone-pair entry (sz, dz). -/
def zpBits (t : Store) (sz dz : Nat) : Nat :=
  let a := zoneBase + 0x10000 + (sz * 64 + dz) * 4
  fld (tIn t (a / 8 * 8)) (if a % 8 = 4 then 32 else 0) 32

/-- Address of the active copy of rule i. -/
def ruleAddr (i : Nat) : Nat := 0x01A00000 + i * 128

/-- An action from words 10 to 12 of a rule (Table 5.8). -/
def ruleAction (t : Store) (i : Nat) : Action :=
  let v := tIn t (ruleAddr i + 80)
  { verdict := verdictOf (fld v 0 2), mirror := if bit v 2 then some (fld v 14 4) else none,
    meter := if bit v 3 then some (fld v 18 9) else none, witness := if bit v 4 then some (fld v 27 8) else none,
    log := bit v 5, create := bit v 6, estab := bit v 7, fence := bit v 12, evidence := bit v 13, fromRule := some i,
    kept := entryBits (fld v 14 4) (fld v 18 9) (fld v 27 8) }

/-- An action in the layout of Table 5.5, as a flow entry keeps it (R153). -/
def actionBits (a : Action) : Nat :=
  (mkWord [(0, a.verdict), (2, a.mirror.isSome.toNat), (3, a.meter.isSome.toNat), (4, a.witness.isSome.toNat),
    (5, a.log.toNat), (6, a.create.toNat), (7, a.estab.toNat), (8, a.rules.toNat), (0, a.kept)]).toNat

/-! ### Ternary rules (R145, R148) -/

/-- The valid rules of the active half, in the order of their indices: those whose word 10 is listed with VALID. A rule
that holds a value its chapter declares invalid (RATE_EN with BURST or GAP_US of 0) acts as not valid (R515). -/
def validRules (t : Store) : List Nat :=
  (t.filter fun e => 0x01A00000 ≤ e.1 && e.1 < 0x01A40000 && e.1 % 128 == 80 && bit e.2 63).map
    (fun e => (e.1 - 0x01A00000) / 128) |>.filter fun i =>
      let w := tIn t (ruleAddr i + 88)
      !(bit w 0 && (fld w 1 4 == 0 || fld w 8 24 == 0))

/-- Whether rule i matches a key (R145). -/
def ruleMatches (t : Store) (key i : Nat) : Bool :=
  (List.range 5).all fun k =>
    let m := tIn t (ruleAddr i + 40 + k * 8)
    (BitVec.ofNat 64 (key / 2 ^ (64 * k)) &&& m) == (tIn t (ruleAddr i + k * 8) &&& m)

/-- The winning rule: the valid matching rule with the lowest index (R145). -/
def winner (t : Store) (key : Nat) : Option Nat := (validRules t).find? (ruleMatches t key)

/-- A word counter of a table window counts 1, saturating (R11). -/
def tcnt (d : Dev) (a : Nat) : Dev := twr d a (BitVec.ofNat 64 (min ctrMax ((trd d a).toNat + 1)))

/-- The winning rule's action after its rate gate (R148): MATCH, tokens, OVER_RATE. What a refill leaves below 2^-16 token counts
for the next check, as Table 5.23 has it (log 61). -/
def ruleGate (d : Dev) (vw : View) (i : Nat) : Dev × Action :=
  let a := ruleAction vw.tbl i
  let w := tIn vw.tbl (ruleAddr i + 88)
  let d1 := tcnt d (0x03810000 + i * 32)
  if !bit w 0 then (d1, a)
  else
    let tokA := 0x03808000 + i * 8
    let stA := 0x03810000 + i * 32 + 16
    let nowUs := locUs d % 2 ^ 48
    let el := (nowUs + 2 ^ 48 - fld (trd d stA) 0 48) % 2 ^ 48
    let gap := fld w 8 24
    let old := (trd d tokA).toNat
    let kept := match kvGet d.rateRem i with | some (g, t, r) => if g = gap ∧ t = old then r else 0 | none => 0
    let add := el * 65536 + kept
    let full := fld w 1 4 * 65536
    let tok := min full (old + add / gap)
    let left := if 65536 ≤ tok then tok - 65536 else tok
    let rem := if full ≤ old + add / gap then 0 else add % gap
    let d2 := twr { d1 with rateRem := kvPut d1.rateRem i (gap, left, rem) } stA (BitVec.ofNat 64 nowUs)
    if 65536 ≤ tok then (twr d2 tokA (BitVec.ofNat 64 left), a)
    else
      let d3 := tcnt (cnt (twr d2 tokA (BitVec.ofNat 64 tok)) (.bwt 0) 0x170 1) (0x03810000 + i * 32 + 8)
      (d3, { a with verdict := verdictOf (fld w 32 2), log := a.log || bit w 34, overRate := true })

/-! ### The stateful flow table (R149, R152 to R157) -/

/-- Whether the flow stage applies to an Ethernet frame with one destination (R149). -/
def flowApplies (d : Dev) (vw : View) (p : Parsed) (nDest : Nat) : Bool :=
  (p.kind == 1 || p.kind == 2) && p.l4 && (p.proto == 6 || p.proto == 17 || p.proto == 132 || p.echo)
    && bit (va d vw (.bwt 0) 0x80) 0 && nDest == 1

/-- The canonical key of a frame's flow (R152, R153): A and B as (address, port), and whether the source is A. -/
def flowKey (p : Parsed) : Nat × Nat × Nat × Nat × Bool :=
  let sp := if p.echo then p.dport else p.sport
  let s := p.sip * 65536 + sp
  let t := p.dip * 65536 + p.dport
  if s ≤ t then (p.sip, sp, p.dip, p.dport, true) else (p.dip, p.dport, p.sip, sp, false)

/-- First word address of the bucket of a flow (R152). -/
def flowBucket (p : Parsed) (vid : Nat) : Nat :=
  let (aIp, aPt, bIp, bPt, _) := flowKey p
  let n := if p.kind = 1 then 4 else 16
  let c := crc32 (beBytes 2 vid ++ beBytes 1 p.proto ++ beBytes n aIp ++ beBytes n bIp ++ beBytes 2 aPt ++ beBytes 2 bPt)
  0x01000000 + c % 8192 * 4 * 64

/-- Whether the entry at an address is valid and holds a frame's key (R153). -/
def flowIs (t : Store) (a : Nat) (p : Parsed) (vid : Nat) : Bool :=
  let (aIp, aPt, bIp, bPt, _) := flowKey p
  let w := tIn t a
  let addr (o : Nat) : Nat :=
    if p.kind = 1 then fld (tIn t (a + o)) 0 32 else (tIn t (a + o)).toNat * 2 ^ 64 + (tIn t (a + o + 8)).toNat
  bit w 63 && fld w 61 2 == p.kind && fld w 53 8 == p.proto && fld w 41 12 == vid && addr 8 == aIp && addr 24 == bIp
    && fld (tIn t (a + 40)) 0 16 == aPt && fld (tIn t (a + 40)) 16 16 == bPt
    && fld w 38 3 != 0 && decide (fld w 38 3 ≤ 3)

/-- The entry of a frame's flow in its bucket. -/
def flowFind (t : Store) (p : Parsed) (vid : Nat) : Option Nat :=
  ((List.range 4).map fun k => flowBucket p vid + k * 64).find? fun a => flowIs t a p vid

/-- The words of a new flow entry (Table 5.10). -/
def flowNew (d : Dev) (p : Parsed) (vid sz dz gen : Nat) (a : Action) : List W64 :=
  let (aIp, aPt, bIp, bPt, srcA) := flowKey p
  let ws (x : Nat) : List W64 :=
    if p.kind = 1 then [BitVec.ofNat 64 x, 0] else [BitVec.ofNat 64 (x / 2 ^ 64), BitVec.ofNat 64 x]
  [mkWord [(63, 1), (61, p.kind), (53, p.proto), (41, vid), (38, 1), (37, srcA.toNat), (31, sz), (25, dz), (14, gen % 256)]]
    ++ ws aIp ++ ws bIp
    ++ [mkWord [(0, aPt), (16, bPt), (32, actionBits a)],
        mkWord [(0, locMs d % 2 ^ 32), (32, a.fromRule.getD 0), (43, a.fromRule.isNone.toNat)], 0]

/-- Whether a hitting frame is from the originator (R154). -/
def fromOrig (w0 : W64) (p : Parsed) : Bool :=
  let (_, _, _, _, srcA) := flowKey p
  bit w0 37 == srcA

/-- Whether a hitting frame agrees with the entry's zones (R154). -/
def zonesAgree (w0 : W64) (p : Parsed) (sz dz : Nat) : Bool :=
  if fromOrig w0 p then fld w0 31 6 == sz && fld w0 25 6 == dz else fld w0 31 6 == dz && fld w0 25 6 == sz

/-- The state and FIN bits of an entry after a forwarded hit (Table 5.11). -/
def flowNext (w0 : W64) (p : Parsed) : W64 :=
  let orig := fromOrig w0 p
  let st := fld w0 38 3
  let tcp := p.proto = 6
  let fin := tcp ∧ p.tcp % 2 = 1
  let syn := tcp ∧ p.tcp / 2 % 2 = 1
  let rst := tcp ∧ p.tcp / 4 % 2 = 1
  let ack := tcp ∧ p.tcp / 16 % 2 = 1
  let w1 := if fin then setBit w0 (if orig then 23 else 22) true else w0
  let other := bit w0 (if orig then 22 else 23)
  let st1 := if ¬orig ∧ st = 1 then 2 else st
  if st = 3 then (if syn ∧ ¬ack ∧ orig then setFld (setBit (setBit w1 23 false) 22 false) 38 3 1 else w1)
  else if rst then setFld w1 38 3 3
  else if fin ∧ other then setFld w1 38 3 3
  else setFld w1 38 3 st1

/-- The update of a forwarded hit (R155), issued by a frame that entered at cycle e; discarded where the entry is no
longer the flow's, or is invalidated before it lands (R156). -/
def flowUpdate (d : Dev) (e a : Nat) (p : Parsed) (vid : Nat) (regen : Option (Nat × Action)) : Dev :=
  let t := fullTbl d
  if flowIs t a p vid then
    let w0 := flowNext (tIn t a) p
    let w6 := setFld (tIn t (a + 48)) 0 32 (locMs d % 2 ^ 32)
    let w7 := BitVec.ofNat 64 (min ctrMax ((tIn t (a + 56)).toNat + 1))
    match regen with
    | none => issueUpd (issueUpd d (e + 20) a (a + 48) [w6, w7]) (e + 20) a a [w0]
    | some (g, act) =>
      let keep := setFld (tIn t a) 14 8 (g % 256)
      issueUpd (issueUpd d (e + 20) a (a + 40) [setFld (tIn t (a + 40)) 32 32 (actionBits act), w6, w7]) (e + 20) a a [keep]
  else d

/-- The insertion of a flow (R153, R135): merged into a pending or just written entry of its key. The flag says that no
way was free. -/
def flowInsert (d : Dev) (e : Nat) (p : Parsed) (vid sz dz gen : Nat) (a : Action) : Dev × Bool :=
  let t := fullTbl d
  match flowFind t p vid with
  | some _ => (cnt d (.bwt 0) 0x138 1, false)
  | none =>
    match ((List.range 4).map fun k => flowBucket p vid + k * 64).find? fun x => tIn t x == 0 with
    | some x => (cnt (issueNew d (e + 20) x (flowNew d p vid sz dz gen a)) (.bwt 0) 0x130 1, false)
    | none => (irq (cnt d (.bwt 0) 0x140 1) (.bwt 0) 0, true)

/-! ### The verdict (R147, R150, R151) -/

/-- DIAG_OPEN of a frame that entered at e (R147, R165): open sessions' zone masks; 1 for every frame in LC_BLANK, LC_TEST
and LC_RMA. A change of OPEN acts on frames that enter 16 cycles of CLK_SYS or later after it. -/
def diagOpen (d : Dev) (e : Instant) (sz : Nat) (dz : Option Nat) : Bool :=
  let lc := lcOf d
  (lc == 0 || lc == 1 || lc == 4) || (List.range 4).any fun s =>
    let (o, m) := match d.diagPrev.find? fun x => x.1 == s && decide (e < x.2.1 + 32) with
      | some (_, _, o0, m0) => (o0, m0)
      | none => (rb d (.bwt 1) (0x110 + s * 0x18) 0, rd d (.bwt 1) (0x100 + s * 0x18))
    o && (bit m sz || (match dz with | some z => bit m z | none => false))

/-- Remembers what a session was before its OPEN changes now (R165), oldest first, as long as a frame in a pipeline may ask for it. -/
def diagKeep (d : Dev) (s : Nat) : Dev :=
  let old := d.diagPrev.filter fun x => decide (d.now < x.2.1 + 64)
  { d with diagPrev := old ++ [(s, d.now, rb d (.bwt 1) (0x110 + s * 0x18) 0, rd d (.bwt 1) (0x100 + s * 0x18))] }

/-- What a frame or submission brings to Breakwater. `parsed` is none for edge submissions. -/
structure BwIn where
  q      : Nat
  vw     : View
  subj   : Subject
  parsed : Option Parsed
  dests  : List Nat
  len    : Nat
  e      : Nat

/-- What Breakwater decides: an action per destination, and what acts once per frame (R151). -/
structure BwOut where
  acts    : List (Nat × Action) := []
  flowHit : Option Nat := none
deriving DecidableEq, Repr

/-- The number of the lowest sealed boundary: rules below COUNT are sealed (R150). -/
def sealedRule (d : Dev) (i : Nat) : Bool := decide (i < rf d (.bwt 1) 0x80 0 12)

/-- One destination's action (R150), given the winning rule's action after the rate gate. -/
def decideOne (d : Dev) (i : BwIn) (r : Option Action) (dz : Nat) (flow : Bool) : Dev × Action × Option Nat :=
  let zp := zpAction (zpBits i.vw.tbl i.subj.srcZone dz)
  let a := match r with
    | some x => if zp.rules || sealedRule d (x.fromRule.getD 0) then x else zp
    | none => zp
  let fenced := match a.fromRule with | some k => a.fence || sealedRule d k | none => false
  let gen := i.vw.gen
  let noflow (d : Dev) : Dev × Action := (cnt d (.bwt 0) 0x160 1, { a with verdict := 1 })
  match flow, i.parsed with
  | true, some p =>
    let vid := i.subj.vid
    let seen := tableAt d (i.e + 9)
    match flowFind seen p vid with
    | some x =>
      let w0 := tIn seen x
      let st := fld w0 38 3
      if !zonesAgree w0 p i.subj.srcZone dz then (cnt d (.bwt 0) 0x150 1, { a with verdict := 1 }, some st)
      else if bit (va d i.vw (.bwt 0) 0x80) 3 ∧ fld w0 14 8 ≠ gen % 256 then
        if fromOrig w0 p then
          if a.verdict = 0 ∧ a.create then (flowUpdate d i.e x p vid (some (gen, a)), a, some st)
          else (cnt (issueUpd d (i.e + 20) x x [0]) (.bwt 0) 0x158 1, a, some st)
        else (d, a, some st)
      else if fenced then (d, a, some st)
      else
        let fa := zpAction (fld (tIn seen (x + 40)) 32 32)
        let fa1 := { fa with fromRule := if bit (tIn seen (x + 48)) 43 then none else some (fld (tIn seen (x + 48)) 32 11) }
        (flowUpdate d i.e x p vid none, fa1, some st)
    | none =>
      if a.estab then (let (d1, a1) := noflow d; (d1, a1, none))
      else if a.create ∧ p.proto = 6 ∧ bit (va d i.vw (.bwt 0) 0x80) 1 ∧ ¬(p.tcp / 2 % 2 = 1 ∧ p.tcp / 16 % 2 = 0) then
        (cnt d (.bwt 0) 0x168 1, { a with verdict := 1 }, none)
      else if a.create ∧ a.verdict = 0 then
        let (d1, full) := flowInsert d i.e p vid i.subj.srcZone dz gen a
        if full ∧ bit (va d i.vw (.bwt 0) 0x80) 2 then (d1, { a with verdict := 1 }, none) else (d1, a, none)
      else (d, a, none)
  | _, _ => if a.estab then (let (d1, a1) := noflow d; (d1, a1, none)) else (d, a, none)

/-- A record of the log ring (R161, Table 5.14). -/
def logRecord (d : Dev) (i : BwIn) (a : Action) (key dz dst : Nat) (hit : Option Nat) : List W64 :=
  [mkWord [(0, tNs (locNow d)), (32, locSec d % 2 ^ 32)],
   mkWord [(0, a.fromRule.getD 0), (11, a.fromRule.isNone.toNat), (12, a.verdict), (14, a.overRate.toNat),
     (15, i.subj.srcZone), (21, dz), (27, i.subj.src), (33, dst), (39, i.subj.kind), (42, hit.isSome.toNat),
     (43, hit.getD 0), (48, i.len)],
   BitVec.ofNat 64 (key / 2 ^ 128), BitVec.ofNat 64 (key / 2 ^ 192)]

/-- A log record is written, or lost where the ring is full or takes none this cycle (R161), and whether it was written. LOG_EN = 0
writes none. -/
def writeLog (d : Dev) (ws : List W64) : Dev × Bool :=
  if !rb d (.bwt 0) 0xa0 0 then (d, false)
  else
    let h := rf d (.bwt 0) 0xa8 0 11
    let t := rf d (.bwt 0) 0xb0 0 11
    let busy : Bool := match d.logAt with
      | some x => decide (d.now < x + 4)
      | none => false
    if busy || (h + 1) % 2048 == t then (irq (cnt d (.bwt 0) 0x178 1) (.bwt 0) 2, false)
    else
      let d1 := wf (twrs { d with logAt := some d.now } (0x03830000 + h * 32) ws) (.bwt 0) 0xa8 0 11 ((h + 1) % 2048)
      (if (h + 1 + 2048 - t) % 2048 = rf d (.bwt 0) 0xa0 16 11 then irq d1 (.bwt 0) 1 else d1, true)

/-- The evidence from the log record of a frame of a rule with EVIDENCE: at most one Manifest record per rule per second (R161). -/
def writeEvidence (d : Dev) (a : Action) (ruleId : Nat) (ws : List W64) : Dev :=
  match a.fromRule with
  | some k =>
    if a.evidence then
      let s := locNow d
      match kvGet d.evidAt k with
      | some s0 =>
        if s < s0 + secUnits then tcnt d (0x03810000 + k * 32 + 24)
        else record s k
      | none => record s k
    else d
  | none => d
where
  /-- A BWT_EVIDENCE record (Table 13.17): log-record words 1 to 3, RULE_ID, EVID_SUPPRESSED. -/
  record (s k : Nat) : Dev :=
    let body := (ws.drop 1).flatMap wordBytes ++ leBytes 4 ruleId ++ wordBytes (trd d (0x03810000 + k * 32 + 24))
    { d with evidAt := kvPut d.evidAt k s, manQ := d.manQ ++ [{ type := 8, source := 3, body := body }] }

/-- The verdict counters of one destination (R151). -/
def countVerdict (d : Dev) (sz dz verdict : Nat) : Dev :=
  if verdict = 0 then cnt d (.bwt 0) 0x100 1
  else tcnt (cnt d (.bwt 0) (if verdict = 1 then 0x108 else 0x110) 1) (0x03820000 + (sz * 64 + dz) * 8)

/-- Breakwater's evaluation of a frame or submission (R145 to R151, R161). Destinations whose zone-map entry is invalid
are removed and counted (R142). Log and evidence act once per frame, for the first destination that selects them. A frame left without
a destination builds no key: no rule matches it, and nothing acts on it (DESIGN CHOICE, log 185). -/
def breakwater (d : Dev) (i : BwIn) : Dev × BwOut :=
  let zoned := i.dests.filterMap fun x => (zoneOf i.vw.tbl x i.subj.vid).map fun z => (x, z)
  let d0 := cnt d (.bwt 0) 0x128 (i.dests.length - zoned.length)
  if zoned = [] then (d0, {})
  else
    let single := zoned.length = 1
    let dz := if single then (zoned.head?.map (·.2)).getD 63 else 63
    let dst := if single then (zoned.head?.map (·.1)).getD 31 else 31
    let key := i.subj.key dz dst (diagOpen d0 i.e i.subj.srcZone (if single then some dz else none))
    let (d1, r) := match winner i.vw.tbl key with
      | some k => (let (x, a) := ruleGate d0 i.vw k; (x, some a))
      | none => (d0, none)
    let flow := match i.parsed with | some p => flowApplies d1 i.vw p zoned.length | none => false
    let (d2, out) := zoned.foldl (fun (acc : Dev × BwOut) x =>
      let (dd, a, hit) := decideOne acc.1 i r x.2 flow
      (countVerdict dd i.subj.srcZone x.2 a.verdict,
        { acts := acc.2.acts ++ [(x.1, a)], flowHit := if hit.isSome then hit else acc.2.flowHit })) (d1, {})
    match out.acts.find? (fun x => x.2.log) with
    | none => (d2, out)
    | some (ep, a) =>
      let lz := if single then dz else (zoneOf i.vw.tbl ep i.subj.vid).getD 63
      let ws := logRecord d2 i a key lz (if single then dst else ep) out.flowHit
      let rid := match a.fromRule with | some k => fld (tIn i.vw.tbl (ruleAddr k + 96)) 0 32 | none => 0
      let (d3, written) := writeLog d2 ws
      (if written then writeEvidence d3 a rid ws else d3, out)

/-! ### Sweeps and commands of the flow table (R156 to R158) -/

/-- The timeout in seconds of an entry's state and protocol class (R156). -/
def flowTimeout (d : Dev) (w0 : W64) : Nat :=
  let st := fld w0 38 3
  let pr := fld w0 53 8
  if pr = 6 then
    let w := ac d (.bwt 0) 0x88
    if st = 1 then fld w 0 16 else if st = 2 then fld w 16 16 else fld w 32 16
  else
    let w := ac d (.bwt 0) 0x90
    if pr = 17 ∧ st = 1 then fld w 0 16 else if pr = 17 ∧ st = 2 then fld w 16 16 else fld w 32 16

/-- The sweep visits the whole table (R156, R157): every entry as the updates issued before it leave it; they land on no invalidated
entry. -/
def flowSweepOp (d0 : Dev) : Dev :=
  let t := fullTbl d0
  (flowEntries d0.tbl).foldl (fun d a =>
    let w0 := tIn t a
    let age := (locMs d % 2 ^ 32 + 2 ^ 32 - fld (tIn t (a + 48)) 0 32) % 2 ^ 32
    if !bit w0 24 && decide (flowTimeout d w0 * 1000 < age) then cnt (flowClear d a) (.bwt 0) 0x148 1
    else if ab d (.bwt 0) 0x80 3 && decide (128 ≤ (genOf d (.bwt 0) + 256 - fld w0 14 8) % 256) then flowClear d a
    else d) d0

/-- BWT_FLOW_CMD (R158): refused while BUSY. A flush is busy to its end. -/
def flowCmdOp (d : Dev) (v : W64) : Dev :=
  if rb d (.bwt 0) 0xb8 63 then conflict d (.bwt 0) 4
  else
    let op := fld v 0 3
    let d1 := wr d (.bwt 0) 0xb8 (v &&& maskOf 0 36)
    if op = 1 then flowClear d1 (0x01000000 + fld v 4 15 * 64)
    else if 2 ≤ op ∧ op ≤ 4 then
      { (wb d1 (.bwt 0) 0xb8 63 true) with flush := some (v, d.now, 0) }
    else d1

/-- The flush has reached the last bucket (R158): the matching entries are gone, BUSY clears. -/
def flushEndOp (d : Dev) : Dev :=
  if d.flush.isNone then d else wb { flushOn d 8192 with flush := none } (.bwt 0) 0xb8 63 false

/-! ### Sealing and commit checks (R166, R168) -/

/-- Whether a table-window address is a sealed entry, which only the Scarab may write (R166). -/
def sealedAddr (d : Dev) (addr : Nat) : Bool :=
  let a := if 0x01800000 ≤ addr ∧ addr < 0x01E00000 then addr else 0
  if 0x01800000 ≤ a ∧ a < 0x01840000 then sealedRule d ((a - 0x01800000) / 128)
  else if 0x01C10000 ≤ a ∧ a < 0x01C14000 then
    let k := (a - 0x01C10000) / 4
    let zp := rd d (.bwt 1) 0x90
    bit zp (k / 64) || bit zp (k % 64) || bit zp ((k + 1) % 64)
  else if 0x01C14000 ≤ a ∧ a < 0x01C14200 then bit (rd d (.bwt 1) 0x88) ((a - 0x01C14000) / 8)
  else false

/-- Whether every value in the shadow of BWT page 0 is valid (R168), but for the sealed entries. -/
def bwtShadowValid (d : Dev) : Bool :=
  let t := d.tbl
  let inRange (lo hi : Nat) : List (Nat × W64) := t.filter fun e => lo ≤ e.1 && e.1 < hi
  ((inRange 0x01C14000 0x01C14200).all fun e => !(bit e.2 63 && fld e.2 0 6 == 63))
  && ((inRange 0x01C00000 0x01C10000).all fun e =>
      !(e.1 % 16 == 8 && bit e.2 38 && fld e.2 32 6 == 63 && bit (tIn t (e.1 - 8)) 63))
  && ((inRange 0x01C10000 0x01C14000).all fun e => fld e.2 0 2 != 3 && fld e.2 32 2 != 3)
  && ((inRange 0x01800000 0x01840000).all fun e =>
      if e.1 % 128 == 80 && bit e.2 63 then
        let w := tIn t (e.1 + 8)
        fld e.2 0 2 != 3 && fld w 32 2 != 3 && !(bit w 0 && (fld w 1 4 == 0 || fld w 8 24 == 0))
      else true)
  && ([0, 16, 32].all fun lo => rf d (.bwt 0) 0x88 lo 16 != 0 && rf d (.bwt 0) 0x90 lo 16 != 0)

/-- Whether the zone pair k lies in a sealed row or column (R166). -/
def pairSealed (d : Dev) (k : Nat) : Bool := bit (rd d (.bwt 1) 0x90) (k / 64) || bit (rd d (.bwt 1) 0x90) (k % 64)

/-- Whether a sealed rule or zone differs between shadow and active copy (R168): two zone pairs share a word. -/
def sealedDiffers (d : Dev) : Bool :=
  let differs (a : Nat) : Bool :=
    let x := trd d a
    let y := trd d (a + 0x200000)
    let k := (a - 0x01C10000) / 4
    if 0x01C10000 ≤ a ∧ a < 0x01C14000 then
      (pairSealed d k && fld x 0 32 != fld y 0 32) || (pairSealed d (k + 1) && fld x 32 32 != fld y 32 32)
    else sealedAddr d a && x != y
  let lows := (d.tbl.filter fun e => 0x01800000 ≤ e.1 && e.1 < 0x01E20000).map fun e =>
    if (e.1 - 0x01800000) % 0x400000 < 0x200000 then e.1 else e.1 - 0x200000
  lows.any differs

/-- A DIAG record (Table 13.17): event, token result, slot, SERIAL, ZONES, EXP. -/
def diagRecord (d : Dev) (ev res s serial : Nat) (zones exp : W64) : Dev :=
  let body := leBytes 1 ev ++ leBytes 1 res ++ leBytes 1 s ++ leBytes 4 serial ++ wordBytes zones ++ wordBytes exp
  { d with manQ := d.manQ ++ [{ type := 10, source := 1, body := body }] }

/-- Closes a diagnostic session (R165): OPEN clears, a Manifest record, DIAG_CHANGE. -/
def diagCloseOp (d : Dev) (s : Nat) : Dev :=
  if rb d (.bwt 1) (0x110 + s * 0x18) 0 then
    let d1 := wb (diagKeep d s) (.bwt 1) (0x110 + s * 0x18) 0 false
    irq (diagRecord d1 2 0 s (rf d (.bwt 1) (0x110 + s * 0x18) 32 32) (rd d (.bwt 1) (0x100 + s * 0x18))
      (rd d (.bwt 1) (0x108 + s * 0x18))) (.bwt 0) 3
  else d

/-- Closes every open session: chip reset, life-cycle change, entry to P4 (R165). -/
def diagCloseAll (d : Dev) : Dev := (List.range 4).foldl diagCloseOp d

/-- The millisecond tick at which the local seconds reach EXP closes a session (R165). -/
def diagExpireOp (d : Dev) (s : Nat) : Dev :=
  if (rd d (.bwt 1) (0x108 + s * 0x18)).toNat ≤ locSec d then diagCloseOp d s else d

end Sys2Proof.Machine
end

