-- ==== Sys2Proof/Machine/Keys.lean ====
section
/-! DEFINITION. Carapace (R357 to R367): key slots, who may use one (R359), its commands (Table 13.10), the TRNG (R372),
the root secret and tamper (R351 to R356), and the cryptographic functions of the manual as opaque functions (log 4). -/

namespace Sys2Proof.Machine

/-! ### Opaque cryptographic functions with outputs of the stated lengths (log 4) -/

/-- A list cut or filled with zeros to a length. -/
def fitLen (n : Nat) (l : List Byte) : List Byte := l.take n ++ List.replicate (n - l.length) 0

/-- Output of n octets of a cryptographic function of some arguments. -/
def cryptoN (id : Nat) (args : List Byte) (n : Nat) : List Byte := fitLen n (Config.crypto id args)

/-- SHA-384 of octets. -/
def sha384 (l : List Byte) : List Byte := cryptoN 0 l 48

/-- AES-GMAC tag of 16 octets: key, IV, octets. -/
def gmac (key iv msg : List Byte) : List Byte := cryptoN 1 (beBytes 2 key.length ++ key ++ iv ++ msg) 16

/-- Keystream of AES-GCM in counter mode: key, IV, length. -/
def gcmStream (key iv : List Byte) (n : Nat) : List Byte := cryptoN 2 (beBytes 2 key.length ++ key ++ iv) n

/-- Octets combined by exclusive or. -/
def xorBytes (a b : List Byte) : List Byte := List.zipWith (· ^^^ ·) a b

/-- AES-GCM protection: ciphertext and tag. -/
def gcmSeal (key iv aad plain : List Byte) : List Byte × List Byte :=
  let c := xorBytes plain (gcmStream key iv plain.length)
  (c, gmac key iv (beBytes 4 aad.length ++ aad ++ c))

/-- AES-GCM verification: the plaintext, where the tag holds. -/
def gcmOpen (key iv aad cipher tag : List Byte) : Option (List Byte) :=
  if gmac key iv (beBytes 4 aad.length ++ aad ++ cipher) = tag then
    some (xorBytes cipher (gcmStream key iv cipher.length)) else none

/-- A signature of n octets under a private key. -/
def signN (key msg : List Byte) (n : Nat) : List Byte := cryptoN 3 (beBytes 2 key.length ++ key ++ msg) n

/-- The public key of a private key, n octets. -/
def pubKey (ktype : Nat) (key : List Byte) (n : Nat) : List Byte := cryptoN 4 (leBytes 1 ktype ++ key) n

/-- The KDF of SP 800-108 (R352, Table 13.10): parent, label or context, n octets. -/
def kdf (parent ctx : List Byte) (n : Nat) : List Byte := cryptoN 5 (beBytes 2 parent.length ++ parent ++ ctx) n

/-! ### The device's identity -/

/-- ROOT_PRESENT, TAMPERED, DEBUGGED and TRNG_OK of CAR_LC_STAT. -/
def rootPresent (d : Dev) : Bool := rb d .carapace 0x80 3
def tampered (d : Dev) : Bool := rb d .carapace 0x80 4
def debugged (d : Dev) : Bool := rb d .carapace 0x80 5
def trngOk (d : Dev) : Bool := rb d .carapace 0x80 6

/-- DEVICE_ID (R352), 0 without a root secret. -/
def deviceId (d : Dev) : List Byte :=
  if rootPresent d then wordBytes (rd d .carapace 0x90) ++ wordBytes (rd d .carapace 0x98) else List.replicate 16 0

/-- CAR_SERIAL: the fused serial number (log 5). -/
def serialWord : W64 := bytesWord (fitLen 8 (Config.fused 0))

/-- A draw of the DRBG (R372), where its output is not stopped: n octets nothing constrains. -/
def draw (d : Dev) (n : Nat) : List Byte × Dev :=
  (fitLen n (Config.entropy d.car.draws n), { d with car := { d.car with draws := d.car.draws + 1 } })

/-- A record for the Manifest. -/
def manPush (d : Dev) (type source : Nat) (body : List Byte) : Dev :=
  { d with manQ := d.manQ ++ [{ type := type, source := source, body := body }] }

/-! ### Slots (R357 to R360) -/

/-- A slot of the working store. -/
def slotOf (d : Dev) (s : Nat) : KeySlot := kvD d.car.slots s {}

/-- A slot of the working store replaced. -/
def putSlot (d : Dev) (s : Nat) (k : KeySlot) : Dev := { d with car := { d.car with slots := kvPut d.car.slots s k } }

/-- KTYPE of an attribute word. -/
def ktypeOf (a : W64) : Nat := fld a 12 4

/-- Octets of a value by KTYPE (Table 13.9). -/
def ktypeLen (k : Nat) : Nat :=
  if k = 1 then 16 else if k = 2 then 32 else if k = 3 then 32 else if k = 4 then 48 else if k = 5 then 33
  else if k = 6 then 49 else if k = 7 then 32 else if k = 8 then 32 else if k = 9 then 64 else 0

/-- The value octets of a slot, right-aligned in its 64 octets. -/
def slotValue (k : KeySlot) : List Byte := (fitLen 64 k.value).drop (64 - ktypeLen (ktypeOf k.attr))

/-- A KEY record (R364): event, slot, master code, attribute word. -/
def keyRecord (d : Dev) (ev s m : Nat) (attr : W64) : Dev :=
  manPush d 11 1 (leBytes 1 ev ++ leBytes 1 s ++ leBytes 1 m ++ wordBytes attr)

/-- Whether a debug session is open (R359, R438). -/
def debugOpen (d : Dev) : Bool := rf d .dbg 0x80 0 2 != 0

/-- Whether a slot may be used for attribute bit `use` by an algorithm that takes these key types (R359). -/
def slotUsable (d : Dev) (s use : Nat) (ktypes : List Nat) : Bool :=
  let a := (slotOf d s).attr
  ktypeOf a != 0 && !bit a 24 && bit a use && ktypes.contains (ktypeOf a)
    && (!bit a 8 || (fld a 16 3 == lcOf d && !debugOpen d))

/-- A use of a slot by an engine or a command (R359): its value, or a refusal that counts REFUSED. -/
def useSlot (d : Dev) (s use : Nat) (ktypes : List Nat) : Option (List Byte) × Dev :=
  let k := slotOf d s
  if slotUsable d s use ktypes then (some (slotValue k), putSlot d s { k with uses := (k.uses + 1) % 2 ^ 32, cached := true })
  else (none, putSlot d s { k with refused := min 65535 (k.refused + 1) })

/-- A slot fails its integrity tag (R360): BAD, counted, reported, a KEY record; engine copies are invalid (R362). -/
def slotBad (d : Dev) (s : Nat) : Dev :=
  let k := slotOf d s
  if ktypeOf k.attr = 0 then d
  else
    let a := setBit k.attr 24 true
    let d1 := cnt (putSlot d s { k with attr := a, cached := false }) .carapace 0x208 1
    keyRecord (irq (raise d1 .carapace 0) .carapace 1) 4 s 0 a

/-- A slot left EMPTY, keeping what CAR_SLOT_INFO counts. -/
def emptySlot (d : Dev) (s : Nat) : Dev :=
  let k := slotOf d s
  putSlot d s { k with attr := 0, value := [], cached := false }

/-- Every slot left EMPTY. -/
def emptySlots (d : Dev) : Dev := { d with car := { d.car with slots := [] } }

/-! ### Commands (R361, Tables 13.10 and 13.11) -/

/-- The uses that Table 13.9 permits for a KTYPE, as a mask of attribute bits [5:0]. -/
def usesOk (k : Nat) : Nat :=
  if k = 1 then 0x0F else if k = 2 then 0x2F else if k = 3 ∨ k = 4 ∨ k = 7 then 0x04
  else if k = 5 ∨ k = 6 then 0x08 else if k = 8 ∨ k = 9 then 0x10 else 0

/-- Whether requested attributes are refused with BAD_ATTR (R363). -/
def badAttr (a : W64) : Bool :=
  bit a 6 || bit a 24 || fld a 16 3 != 0 || fld a 11 1 != 0 || fld a 19 5 != 0 || fld a 25 39 != 0
    || ktypeOf a == 0 || decide (9 < ktypeOf a) || (BitVec.ofNat 6 (fld a 0 6) &&& ~~~(BitVec.ofNat 6 (usesOk (ktypeOf a)))) != 0

/-- A public key on its curve, a private scalar in range (R363): a fact of the curves that the manual does not restate (log 4). -/
def goodValue (ktype : Nat) (v : List Byte) : Bool :=
  if 3 ≤ ktype ∧ ktype ≤ 6 then Config.verify 0 (leBytes 1 ktype) v [] else true

/-- Slots 0 to 7 belong to the ROM (R358). -/
def reservedSlot (s : Nat) : Bool := decide (s < 8)

/-- What keeps a slot with PERSIST_P4 from being written: ROOT_ABSENT (R367), or ENTROPY_FAIL where no IV can be drawn (R372). -/
def persistRefused (d : Dev) (attr : W64) : Nat :=
  if !bit attr 10 then 0 else if !rootPresent d then 5 else if !trngOk d then 6 else 0

/-- The wrapped copy of a slot with PERSIST_P4 (R367): IV, ciphertext and tag under slot 3. -/
def wrapCopy (d : Dev) (s : Nat) (attr : W64) (value : List Byte) : Dev :=
  let (iv, d1) := draw d 12
  let key := slotValue (slotOf d1 3)
  let (c, tag) := gcmSeal key iv (leBytes 1 s ++ wordBytes attr) (fitLen 64 value)
  { d1 with car := { d1.car with wrapped := kvPut d1.car.wrapped s (attr, iv ++ c ++ tag) } }

/-- A slot written (R361, R362): LC set by the device, REFUSED and USES kept, engine copies invalid, the wrapped copy made
or erased (R367). -/
def fillSlot (d : Dev) (s : Nat) (attr : W64) (value : List Byte) : Dev :=
  let a := setFld attr 16 3 (lcOf d)
  let d1 := putSlot d s { slotOf d s with attr := a, value := fitLen 64 value, cached := false }
  if bit a 10 then wrapCopy d1 s a value else { d1 with car := { d1.car with wrapped := kvDel d1.car.wrapped s } }

/-- A value right-aligned in 64 octets. -/
def rightAlign (v : List Byte) : List Byte := List.replicate (64 - v.length) 0 ++ v

/-- WRITE and KEY_WRITE: result code of Table 13.11 and the new state. -/
def keyWriteOp (d : Dev) (m s : Nat) (attr : W64) (value : List Byte) : Nat × Dev :=
  let v := (fitLen 64 value).drop (64 - ktypeLen (ktypeOf attr))
  if reservedSlot s then (1, d)
  else if badAttr attr then (2, d)
  else if persistRefused d attr ≠ 0 then (persistRefused d attr, d)
  else if !goodValue (ktypeOf attr) v then (3, d)
  else
    let d1 := fillSlot d s attr value
    (0, keyRecord d1 1 s m (slotOf d1 s).attr)

/-- GENERATE and KEY_GENERATE: result code of Table 13.11 and the new state. A public key type cannot be generated. -/
def keyGenOp (d : Dev) (m s : Nat) (attr : W64) : Nat × Dev :=
  if reservedSlot s then (1, d)
  else if badAttr attr ∨ ktypeOf attr = 5 ∨ ktypeOf attr = 6 then (2, d)
  else if persistRefused d attr ≠ 0 then (persistRefused d attr, d)
  else if !trngOk d then (6, d)
  else
    let (v, d1) := draw d (ktypeLen (ktypeOf attr))
    let d2 := fillSlot d1 s (setBit attr 6 true) (rightAlign v)
    (0, keyRecord d2 2 s m (slotOf d2 s).attr)

/-- DESTROY: the value zeroed, the slot EMPTY, the wrapped copy erased. -/
def keyDestroyOp (d : Dev) (m s : Nat) : Nat × Dev :=
  if reservedSlot s then (1, d)
  else
    let a := (slotOf d s).attr
    let d1 := emptySlot d s
    (0, keyRecord { d1 with car := { d1.car with wrapped := kvDel d1.car.wrapped s } } 3 s m a)

/-- Result code of a refused use: EMPTY_SLOT for an empty slot, BAD_ATTR otherwise. -/
def refuseCode (d : Dev) (s : Nat) : Nat := if ktypeOf (slotOf d s).attr = 0 then 7 else 2

/-- WRAP_EXPORT: IV, ciphertext and tag in CAR_OUT; the attribute word is the additional data (log 14). The slot itself is used under
EXPORTABLE (R359). -/
def wrapExportOp (d : Dev) (c : CarCmd) : Nat × Dev :=
  let k := slotOf d c.slot
  match useSlot d c.slot 7 [1, 2, 3, 4, 5, 6, 7, 8, 9] with
  | (none, d0) => (refuseCode d c.slot, d0)
  | (some _, d0) =>
    let w := fld (c.data.getD 0 0) 0 8
    match useSlot d0 w 5 [2] with
    | (none, d1) => (refuseCode d w, d1)
    | (some key, d1) =>
      if !trngOk d1 then (6, d1)
      else
        let (iv, d2) := draw d1 12
        let (ct, tag) := gcmSeal key iv (wordBytes k.attr) (fitLen 64 k.value)
        let ws := bytesWords 12 (fitLen 96 (iv ++ ct ++ tag))
        (0, (List.range 12).foldl (fun d i => wr d .carapace (0x180 + i * 8) (ws.getD i 0)) d2)

/-- UNWRAP_IMPORT: the reverse, of what CAR_OUT holds, with the attributes of CAR_CMD_ATTR as additional data (log 14). -/
def unwrapImportOp (d : Dev) (c : CarCmd) : Nat × Dev :=
  let w := fld (c.data.getD 0 0) 0 8
  let l := c.out.flatMap wordBytes
  if reservedSlot c.slot then (1, d)
  else if ktypeOf c.attr = 0 ∨ bit c.attr 24 then (2, d)
  else if persistRefused d c.attr ≠ 0 then (persistRefused d c.attr, d)
  else match useSlot d w 5 [2] with
    | (none, d1) => (refuseCode d w, d1)
    | (some key, d1) =>
      match gcmOpen key (slice l 0 12) (wordBytes c.attr) (slice l 12 64) (slice l 76 16) with
      | none => (3, d1)
      | some v => (0, fillSlot d1 c.slot c.attr v)

/-- DERIVE: GEN_INSIDE = 1, EXPORTABLE only where the parent's is. -/
def deriveOp (d : Dev) (c : CarCmd) : Nat × Dev :=
  let par := fld (c.data.getD 0 0) 0 8
  if reservedSlot c.slot then (1, d)
  else if badAttr c.attr ∨ ktypeOf c.attr = 5 ∨ ktypeOf c.attr = 6 then (2, d)
  else if persistRefused d c.attr ≠ 0 then (persistRefused d c.attr, d)
  else match useSlot d par 4 [8, 9] with
    | (none, d1) => (refuseCode d par, d1)
    | (some key, d1) =>
      let ctx := ((c.data.drop 1).take 4).flatMap wordBytes
      let v := kdf key ctx (ktypeLen (ktypeOf c.attr))
      let a := setBit c.attr 6 true
      let a1 := if bit a 7 ∧ !bit (slotOf d par).attr 7 then setBit a 7 false else a
      (0, fillSlot d1 c.slot a1 (rightAlign v))

/-- A GO of CAR_CMD with an operation (R361): the operands are taken as they stand; a GO while BUSY is counted. -/
def carGo (d : Dev) (m op s : Nat) : Dev :=
  if rb d .carapace 0x100 63 then cnt d .carapace 0x210 1
  else
    let c : CarCmd := { op := op, slot := s, attr := rd d .carapace 0x108,
                        data := (List.range 8).map fun i => rd d .carapace (0x140 + i * 8),
                        out := (List.range 12).map fun i => rd d .carapace (0x180 + i * 8), master := m }
    let d1 := wf (wf d .carapace 0x100 0 4 op) .carapace 0x100 4 8 s
    wb { d1 with car := { d1.car with cmd := some c } } .carapace 0x100 63 true

/-- A mailbox key command that the Scarab has executed through the interface of CAR_CMD (R361): operation, slot, attributes, result,
CMD_DONE. -/
def carShown (d : Dev) (op s : Nat) (attr : W64) (r : Nat) : Dev :=
  let d1 := wf (wf d .carapace 0x100 0 4 op) .carapace 0x100 4 8 s
  irq (wr (wr d1 .carapace 0x108 attr) .carapace 0x110 (BitVec.ofNat 64 r)) .carapace 0

/-- The command in progress completes (R361): its effect, its result, CMD_DONE. An OP outside Table 13.10 changes nothing
and its result is a free value (log 15). -/
def carDone (d : Dev) : Dev :=
  match d.car.cmd with
  | none => d
  | some c =>
    let (res, d1) :=
      if c.op = 1 then keyWriteOp d c.master c.slot c.attr (c.data.flatMap wordBytes)
      else if c.op = 2 then keyGenOp d c.master c.slot c.attr
      else if c.op = 3 then keyDestroyOp d c.master c.slot
      else if c.op = 4 then wrapExportOp d c
      else if c.op = 5 then unwrapImportOp d c
      else if c.op = 6 then deriveOp d c
      else freeNat d
    let d2 := wr (wb { d1 with car := { d1.car with cmd := none } } .carapace 0x100 63 false) .carapace 0x110 (BitVec.ofNat 64 res)
    irq d2 .carapace 0

/-! ### Root secret and device slots (R351, R352) -/

/-- The device slots, derived from the root secret (Table 13.6); EMPTY while it is absent. -/
def deriveDevice (d : Dev) : Dev :=
  match d.car.root with
  | none =>
    let d1 := [0, 1, 2, 3].foldl emptySlot d
    wr (wr d1 .carapace 0x90 0) .carapace 0x98 0
  | some r =>
    let one (d : Dev) (s kt use : Nat) (label : List Byte) : Dev :=
      let a := mkWord [(use, 1), (6, 1), (12, kt), (16, lcOf d)]
      putSlot d s { slotOf d s with attr := a, value := rightAlign (kdf r label (ktypeLen kt)), cached := false }
    let d1 := one (one (one (one d 0 4 2 [0]) 1 7 2 [1]) 2 4 2 [2]) 3 2 5 [3]
    let h := sha384 (pubKey 4 (slotValue (slotOf d1 0)) 96)
    wr (wr d1 .carapace 0x90 (bytesWord h)) .carapace 0x98 (bytesWord (h.drop 8))

/-- The root secret is zeroed. -/
def dropRoot (d : Dev) : Dev := wb { d with car := { d.car with root := none } } .carapace 0x80 3 false

/-- Wrapped copies are restored (R367); one that fails to unwrap leaves its slot EMPTY and writes a KEY record. -/
def restoreWrapped (d : Dev) : Dev :=
  d.car.wrapped.foldl (fun d e =>
    let (s, attr, l) := e
    match gcmOpen (slotValue (slotOf d 3)) (slice l 0 12) (leBytes 1 s ++ wordBytes attr) (slice l 12 64) (slice l 76 16) with
    | some v => if rootPresent d then putSlot d s { slotOf d s with attr := attr, value := v, cached := false }
                else keyRecord (emptySlot d s) 5 s 0 attr
    | none => keyRecord (emptySlot d s) 5 s 0 attr) d

/-! ### Tamper (R353 to R356) -/

/-- A TAMPER record (Table 13.17): cause bits, power state at detection, local time. -/
def tamperPush (d : Dev) (power sec ns : Nat) : Dev :=
  manPush d 3 1 (leBytes 2 (rf d .carapace 0xa8 0 16) ++ leBytes 1 power ++ leBytes 4 sec ++ leBytes 4 ns)

/-- The TAMPER record of an event that the latch of PD_VBAT holds (R354). -/
def tamperRecord (d : Dev) : Dev := tamperPush d d.car.tampPower (rf d .carapace 0xa8 32 32) d.car.tampNs

/-- An enabled tamper source is detected (R354), cause VBAT included; `power` is the power state (0 to 5). -/
def tamperOp (d : Dev) (b power : Nat) : Dev :=
  if b ≠ 15 ∧ !rb d .carapace 0xa0 b then d
  else
    let first := rf d .carapace 0xa8 0 16 = 0
    let d1 := wb (wb (dropRoot d) .carapace 0x80 4 true) .carapace 0xa8 b true
    let d2 := if first then
        wf { d1 with car := { d1.car with tampNs := tNs (locNow d1), tampPower := power } } .carapace 0xa8 32 32 (locSec d1)
      else d1
    let cond := domCond d 2
    let d3 := if cond = 1 ∨ cond = 3 then emptySlots d2 else d2
    let d4 := wr (wr d3 .carapace 0x90 0) .carapace 0x98 0
    let d5 := if domCond d 1 = 0 then d4 else irq (raise d4 .carapace 2) .carapace 2
    if power ≤ 3 then tamperPush d5 power (locSec d5) (tNs (locNow d5)) else { d5 with car := { d5.car with tampRec := true } }

/-! ### TRNG (R372) -/

/-- A health test fails: output stops. -/
def trngFailOp (d : Dev) : Dev :=
  cnt (irq (raise (wb { d with car := { d.car with trngStop := true } } .carapace 0x80 6 false) .carapace 1) .carapace 3) .carapace 0x200 1

/-- 1,024 consecutive samples have passed: output resumes. -/
def trngRecoverOp (d : Dev) : Dev :=
  if d.car.trngStop then wb { d with car := { d.car with trngStop := false } } .carapace 0x80 6 true else d

/-- The DRBG is reseeded after every 2^20 requests (R372); nothing that software reads changes. -/
def reseedOp (d : Dev) : Dev :=
  if 2 ^ 20 * (d.car.reseeds + 1) ≤ d.car.draws then { d with car := { d.car with reseeds := d.car.reseeds + 1 } } else d

end Sys2Proof.Machine
end

