-- ==== Sys2Proof/Machine/Macsec.lean ====
section
/-! DEFINITION. MACsec of ports 0 to 25 (R373 to R377). -/

namespace Sys2Proof.Machine

/-- The MACsec page of a port. -/
def secPage (p : Nat) : Page := .port (portFin p) 3

/-- Address of an SA entry (Table 13.14). -/
def saAddr (i : Nat) : Nat := 0x02C00000 + i * 128

/-- The three fields that the valid SAs of a channel must share: DIR, PORT, SCI (R373). -/
def saShared (d : Dev) (i : Nat) : Nat × W64 := (fld (trd d (saAddr i)) 56 7, trd d (saAddr i + 8))

/-- Whether a valid SA conflicts with the other valid SA of its channel (R373). -/
def saConflict (d : Dev) (i : Nat) : Bool :=
  let j := if i % 2 = 0 then i + 1 else i - 1
  let a := trd d (saAddr i)
  let b := trd d (saAddr j)
  bit a 63 && bit b 63 && (saShared d i != saShared d j || fld a 54 2 == fld b 54 2)

/-- A counter of the MACsec page (Table 13.15). -/
def secCnt (d : Dev) (p k : Nat) : Dev := cnt d (secPage p) (0x100 + k * 8) 1

/-- A counter of an SA: 0 PKTS, 1 OCTETS, 2 INVALID, 3 NOT_VALID, 4 LATE, 5 UNCHECKED. -/
def saCnt (d : Dev) (i k n : Nat) : Dev :=
  let a := saAddr i + 48 + k * 8
  twr d a (BitVec.ofNat 64 (min ctrMax ((trd d a).toNat + n)))

/-- The key of an SA, under R359; an engine that holds a copy does not load it again (R377). -/
def saKey (d : Dev) (i : Nat) : Option (List Byte) × Dev :=
  let w := trd d (saAddr i)
  let s := fld w 44 8
  let kt := if fld w 52 2 % 2 = 0 then [1] else [2]
  if (slotOf d s).cached && slotUsable d s 0 kt then (some (slotValue (slotOf d s)), d) else useSlot d s 0 kt

/-- Whether an SA uses extended packet numbers. -/
def saXpn (d : Dev) (i : Nat) : Bool := decide (2 ≤ fld (trd d (saAddr i)) 52 2)

/-- The IV of a frame under an SA (802.1AE): SCI and PN, or SSCI and PN combined with SALT. -/
def saIv (d : Dev) (i pn : Nat) : List Byte :=
  let a := saAddr i
  if saXpn d i then
    xorBytes (beBytes 4 (fld (trd d (a + 24)) 0 32) ++ beBytes 8 pn)
      (beBytes 8 (trd d (a + 32)).toNat ++ (beBytes 8 (trd d (a + 40)).toNat).take 4)
  else beBytes 8 (trd d (a + 8)).toNat ++ beBytes 4 pn

/-- The confidentiality offset in octets; none where nothing is encrypted. -/
def confOffset (d : Dev) (p : Nat) : Option Nat :=
  let w := ac d (secPage p) 0x80
  if bit w 5 then some (if fld w 6 2 = 1 then 30 else if fld w 6 2 = 2 then 50 else 0) else none

/-- Whether egress MACsec protects a port, and whether ingress protection is in force in the sense of R129 (R376). -/
def macsecTxOn (d : Dev) (p : Nat) : Bool := decide (p < 26) && ab d (secPage p) 0x80 0
def macsecRxForce (d : Dev) (p : Nat) : Bool := decide (p < 26) && ab d (secPage p) 0x80 1 && af d (secPage p) 0x80 2 2 != 0

/-- Whether a frame leaves or enters unprotected by MACSEC_BYPASS (R374). -/
def macsecBypass (d : Dev) (p : Nat) (l : List Byte) : Bool :=
  let w := ac d (secPage p) 0xa0
  bit w 16 && fld w 0 16 == be16 l 12

/-- A frame leaving a port with TX_EN = 1 (R374): the protected frame, or none where it is dropped. -/
def macsecTx (d : Dev) (p : Nat) (l : List Byte) : Option (List Byte) × Dev :=
  let pg := secPage p
  if !macsecTxOn d p || macsecBypass d p l then (some l, d)
  else
    let i := rf d pg 0x88 0 9
    let a := saAddr i
    let w := trd d a
    if !(bit w 63 && bit w 62 && fld w 56 6 == p) then (none, secCnt d p 0)
    else if saConflict d i then (none, secCnt (secCnt d p 5) p 0)
    else
      let pn := (trd d (a + 16)).toNat
      let limit := if saXpn d i then 2 ^ 64 - 1 else 2 ^ 32 - 1
      if limit ≤ pn then (none, irq (secCnt d p 1) pg 1)
      else match saKey d i with
        | (none, d1) => (none, irq (secCnt d1 p 4) pg 2)
        | (some key, d1) =>
          let sci := bit (ac d pg 0x80) 8
          let user := l.drop 12
          let off := confOffset d p
          let tci := fld w 54 2 + (if sci then 32 else 0) + (if off.isSome then 12 else 0)
          let tag := beBytes 2 0x88E5 ++ beBytes 1 tci ++ beBytes 1 (if user.length < 48 then user.length else 0)
            ++ beBytes 4 (pn % 2 ^ 32) ++ (if sci then beBytes 8 (trd d (a + 8)).toNat else [])
          let clear := match off with | some n => user.take n | none => user
          let secret := match off with | some n => user.drop n | none => []
          let (c, icv) := gcmSeal key (saIv d i pn) (l.take 12 ++ tag ++ clear) secret
          let d2 := twr (saCnt (saCnt (secCnt d1 p 6) i 0 1) i 1 user.length) (a + 16) (BitVec.ofNat 64 (pn + 1))
          let d3 := if pn + 1 = (ac d pg 0x98).toNat then irq d2 pg 0 else d2
          (some (l.take 12 ++ tag ++ clear ++ c ++ icv), d3)

/-- Octets by which MACsec lengthens a frame that leaves a port (R374). -/
def macsecGrowth (d : Dev) (p : Nat) (l : List Byte) : Nat :=
  if macsecTxOn d p && !macsecBypass d p l then (if bit (ac d (secPage p) 0x80) 8 then 32 else 24) else 0

/-- The valid, ACTIVE receive SA of (PORT, SCI, AN); without an SCI on the wire, the implicit SCI of 802.1AE: the source
address and port 1 with ES = 1, else the one receive channel of the port. -/
def saFind (d : Dev) (p an : Nat) (sci : Option Nat) : Option Nat :=
  (List.range 512).find? fun i =>
    let w := trd d (saAddr i)
    bit w 63 && !bit w 62 && bit w 43 && fld w 56 6 == p && fld w 54 2 == an
      && (match sci with | some x => (trd d (saAddr i + 8)).toNat == x | none => true)

/-- The packet number of a frame: under XPN its upper half is that of the SA's PN, or the next. -/
def saPn (d : Dev) (i pn32 : Nat) : Nat :=
  if saXpn d i then
    let low := (trd d (saAddr i + 16)).toNat
    let hi := low / 2 ^ 32
    if 2 ^ 31 ≤ low % 2 ^ 32 ∧ pn32 < 2 ^ 31 then (hi + 1) * 2 ^ 32 + pn32 else hi * 2 ^ 32 + pn32
  else pn32

/-- What a SecTAG says (802.1AE): AN, the explicit or implicit SCI, header octets, PN, whether octets are encrypted. -/
def secTag (l : List Byte) : Nat × Option Nat × Nat × Nat × Bool :=
  let tci := octetAt l 14
  let explicit := tci / 32 % 2 = 1
  let sci : Option Nat := if explicit then some (beNat (slice l 20 8))
    else if tci / 64 % 2 = 1 then some (beNat (slice l 6 6) * 65536 + 1) else none
  (tci % 4, sci, if explicit then 28 else 20, beNat (slice l 16 4), tci / 8 % 2 == 1)

/-- The frame after decryption under SA i, and whether its ICV holds. -/
def macsecPlain (d : Dev) (p i : Nat) (key l : List Byte) : List Byte × Bool :=
  let (_, _, hdr, pn32, enc) := secTag l
  let iv := saIv d i (saPn d i pn32)
  let body := (l.drop hdr).take (l.length - hdr - 16)
  let off := if enc then (confOffset d p).getD 0 else body.length
  let clear := body.take off
  let aad := l.take hdr ++ clear
  let secret := xorBytes (body.drop off) (gcmStream key iv (body.length - off))
  (l.take 12 ++ clear ++ secret, (gcmOpen key iv aad (body.drop off) (l.drop (l.length - 16))).isSome)

/-- A frame received on a port, at its header (R375): the frame after decryption, or none where it is dropped: no SA
matches, its key cannot be used, or it has no SecTAG under strict. -/
def macsecHead (d : Dev) (p : Nat) (l : List Byte) : Option (List Byte) × Dev :=
  let pg := secPage p
  let w := ac d pg 0x80
  if 26 ≤ p ∨ !bit w 1 then (some l, d)
  else
    let drop (d : Dev) : Option (List Byte) × Dev := (none, secCnt d p 8)
    if be16 l 12 ≠ 0x88E5 then
      if macsecBypass d p l then (some l, d)
      else if 2 ≤ fld w 2 2 then drop (secCnt d p 3) else (some l, secCnt d p 3)
    else
      match saFind d p (secTag l).1 (secTag l).2.1 with
      | none => drop (secCnt d p 2)
      | some i =>
        if saConflict d i then drop (secCnt (secCnt d p 5) p 2)
        else match saKey d i with
          | (none, d1) => drop (irq (secCnt d1 p 4) pg 2)
          | (some key, d1) => (some (macsecPlain d1 p i key l).1, d1)

/-- A frame received on a port, at its tail (R375): its ICV and replay checks; false where it is dropped. -/
def macsecTail (d : Dev) (p : Nat) (l : List Byte) : Bool × Dev :=
  let w := ac d (secPage p) 0x80
  if 26 ≤ p ∨ !bit w 1 ∨ be16 l 12 ≠ 0x88E5 then (true, d)
  else match saFind d p (secTag l).1 (secTag l).2.1 with
    | none => (false, secCnt (secCnt d p 2) p 8)
    | some i =>
      match saKey d i with
      | (none, d1) => (false, secCnt (irq (secCnt d1 p 4) (secPage p) 2) p 8)
      | (some key, d1) =>
        let good := (macsecPlain d1 p i key l).2
        let pn := saPn d i (secTag l).2.2.2.1
        let low := (trd d (saAddr i + 16)).toNat
        if !good ∧ fld w 2 2 ≠ 0 then (false, secCnt (saCnt d1 i 2 1) p 8)
        else if bit w 4 ∧ pn < low then (false, secCnt (saCnt d1 i 4 1) p 8)
        else
          let d2 := if good then d1 else saCnt d1 i 5 1
          let low1 := max low (pn + 1 - fld (ac d (secPage p) 0x90) 0 32)
          (true, twr (saCnt (saCnt (secCnt d2 p 7) i 0 1) i 1 (l.length - (secTag l).2.2.1 - 16)) (saAddr i + 16) (BitVec.ofNat 64 low1))

/-- Whether the shadow values of a MACsec page are valid (Table 13.15): VALIDATE and CONF_OFFSET are not 3. -/
def secShadowValid (d : Dev) (p : Nat) : Bool :=
  rf d (secPage p) 0x80 2 2 != 3 && rf d (secPage p) 0x80 6 2 != 3

/-- The recheck, every 100 ms, of the keys that a port's engine holds (R377): a copy of a slot that R359 no longer lets it use is dropped. A slot whose
tag fails is found by SLOT_INTEGRITY_PASS. -/
def macsecRecheck (dN : Dev) (p : Nat) : Dev :=
  let early : Bool := match kvGet dN.car.recheckAt p with | some t => decide (dN.now < t + 100 * msTicks) | none => false
  if early then dN
  else
  let d := { dN with car := { dN.car with recheckAt := kvPut dN.car.recheckAt p dN.now } }
  let mine := (List.range 512).filter fun i => bit (trd d (saAddr i)) 63 && fld (trd d (saAddr i)) 56 6 == p
  mine.foldl (fun d i =>
    let w := trd d (saAddr i)
    let s := fld w 44 8
    let kt := if fld w 52 2 % 2 = 0 then [1] else [2]
    if (slotOf d s).cached && !slotUsable d s 0 kt then putSlot d s { slotOf d s with cached := false } else d) d

end Sys2Proof.Machine
end

