-- ==== Sys2Proof/Machine/Queues.lean ====
section
/-! DEFINITION. Queue cells, services and ports of the quays (R170 to R175), the pools of the shared buffer (R126 to R128),
transmit timestamp queues (R219, R220), and what happens to a copy that is freed. -/

namespace Sys2Proof.Machine

/-! ### Pages and records -/

def macPage (p : Nat) : Page := .port (portFin p) 0
def phyPage (p : Nat) : Page := .port (portFin p) 1
def tsPage (p : Nat) : Page := .port (portFin p) 2
def quayPage (n i : Nat) : Page := .quay (quayFin n) (if i = 0 then 0 else if i = 1 then 1 else 2)

def quay (d : Dev) (n : Nat) : Quay := kvD d.quays n {}
def setQuay (d : Dev) (n : Nat) (q : Quay) : Dev := { d with quays := kvPut d.quays n q }
def portSt (d : Dev) (p : Nat) : PortSt := kvD d.ports p {}
def setPort (d : Dev) (p : Nat) (x : PortSt) : Dev := { d with ports := kvPut d.ports p x }
def qcell (d : Dev) (n i : Nat) : QCell := kvD (quay d n).qcells i {}

/-- A queue cell replaced; an empty one is not listed. -/
def setQcell (d : Dev) (n i : Nat) (c : QCell) : Dev :=
  let q := quay d n
  setQuay d n { q with qcells := if c = {} then kvDel q.qcells i else kvPut q.qcells i c }

/-- The slot j of a port in its quay (R109). -/
def slotOfPort (p : Nat) : Nat := (portsOfQuay (quayOfPort p)).idxOf p

/-- MAC_LINK_STAT.LINK_UP. -/
def linkIsUp (d : Dev) (p : Nat) : Bool := rb d (macPage p) 0xb8 0

/-- A chip reset is pending, or the safe state holds: the crossbar is closed and the egress MACs send idle (Tables 15.5, 15.6). -/
def halted (d : Dev) : Bool := d.fcn.safe || d.fcn.chipRst.isSome

/-- Whether a quay is isolated (R25), or the whole crossbar is closed (Table 15.5; offline test, R464, log 54). -/
def isolated (d : Dev) (n : Nat) : Bool := (quay d n).isoAt.isSome || halted d || d.pair.offline

/-- The claim gate of the shared buses (R447, R451): closed in a pair unless this unit holds the claim. -/
def claimGated (d : Dev) : Bool := d.pair.strapEn && !rb d (.pair 0) 0xc0 0

/-- An S port whose transmitter is gated (R448), in standby (R291) or held by the keeper's fail-safe (R297). -/
def portSilent (d : Dev) (p : Nat) : Bool :=
  portType p == .s && (claimGated d || (portSt d p).standby || rb d (.buoy 0) 0x288 2)

/-- Kilobits per second of a speed code (Table 3.4). -/
def rateOf (code : Nat) : Nat :=
  if code = 0 then 10000 else if code = 1 then 100000 else if code = 2 then 1000000 else if code = 3 then 2500000
  else if code = 4 then 5000000 else if code = 5 then 10000000 else 25000000

/-- The resolved speed of a port in kb/s. Ports H, C and Ferry: the interface rates of Table 0.2 (40, 8 and 2 Gb/s). -/
def portRate (d : Dev) (p : Nat) : Nat :=
  if p = 26 then 40000000 else if p = 27 then 8000000 else if p = 28 then 2000000
  else rateOf (rf d (macPage p) 0xb8 1 4)

/-- CLK_FAB periods of a number of octets at a rate in kb/s, rounded up. -/
def octetTicks (n kbps : Nat) : Nat := (n * 8 * 1600000 + kbps - 1) / kbps

/-! ### The hierarchy window (R171) -/

/-- Word w of element i of quay n in the active half. -/
def hier (d : Dev) (n i w : Nat) : W64 := trd d (0x03600000 + n * 0x10000 + i * 32 + w * 8)

/-- Word w of element i of quay n in the shadow half. -/
def hierSh (d : Dev) (n i w : Nat) : W64 := trd d (0x03400000 + n * 0x10000 + i * 32 + w * 8)

/-- The traffic class of a PCP on a port (R172), where the port node is valid. -/
def tcOf (d : Dev) (p pcp : Nat) : Option Nat :=
  let n := quayOfPort p
  let e := 640 + slotOfPort p
  if bit (hier d n e 2) 63 then some (fld (hier d n e 3) (3 * pcp) 3) else none

/-- The service node index of a port and a traffic class (R170). -/
def svcOf (p t : Nat) : Nat := slotOfPort p * 8 + t

/-- The queue cell of a copy (R172): none where the service node is not valid, holds an invalid value or names a cell
that is not valid (R515). -/
def placeOf (d : Dev) (p t src : Nat) (flow : List Byte) : Option Nat :=
  let n := quayOfPort p
  let w := hier d n (512 + svcOf p t) 2
  let base := fld w 0 9
  let count := fld w 9 10
  let sel := fld w 19 2
  if !bit w 63 || count == 0 || decide (512 < base + count) || sel == 3 then none
  else
    let x := if sel = 0 then 0 else if sel = 1 then src % count else crc32 flow % count
    let c := hier d n (base + x) 2
    if bit c 63 && fld c 0 16 != 0 then some (base + x) else none

/-! ### Pools (R126 to R128) -/

/-- Every copy queued in a quay, with its queue cell. -/
def queued (d : Dev) (n : Nat) : List (Nat × Copy) :=
  (quay d n).qcells.flatMap fun e => e.2.copies.map fun c => (e.1, c)

/-- Cells of a list of copies. -/
def cellsOf (l : List (Nat × Copy)) : Nat := l.foldl (fun a e => a + e.2.cells) 0

/-- Copies in transmission or suspended on the ports of a quay: their cells are freed when they have left. -/
def sending (d : Dev) (n : Nat) : List Copy :=
  ((d.tx ++ d.susp).filter fun e => quayOfPort e.1 == n).map fun e => e.2.copy

/-- RSV_USED and the shared cells used by a quay (Table 4.20). -/
def rsvUsed (d : Dev) (n : Nat) : Nat :=
  cellsOf ((queued d n).filter fun e => e.2.rsv) + ((sending d n).filter (·.rsv)).foldl (fun a c => a + c.cells) 0
def sharedUsed (d : Dev) (n : Nat) : Nat :=
  cellsOf ((queued d n).filter fun e => !e.2.rsv) + ((sending d n).filter (fun c => !c.rsv)).foldl (fun a c => a + c.cells) 0

/-- Free cells of the shared pool (R127), less a bank under rotation test (R463). -/
def sharedFree (d : Dev) : Nat :=
  131072 - ([0, 1, 2, 3].foldl (fun a n => a + af d (quayPage n 0) 0x90 0 18) 0) - d.retired1.length
    - (if d.pair.rotWait then 4096 else 0)
    - [0, 1, 2, 3].foldl (fun a n => a + sharedUsed d n) 0

/-- The pool that admits a charge to a queue cell (R126): reserved, shared, or none. A queue cell holds the cells of a copy until they
are freed, in transmission too (DEDUCED, log 175). -/
def admitPool (d : Dev) (n qc charge : Nat) : Option Bool :=
  let mine := (qcell d n qc).copies ++ (sending d n).filter (·.cell == qc)
  let held (r : Bool) : Nat := (mine.filter (·.rsv == r)).foldl (fun a c => a + c.cells) 0
  let w := ac d (quayPage n 0) 0x98
  if rsvUsed d n + charge ≤ af d (quayPage n 0) 0x90 0 18 ∧ held true + charge ≤ fld w 16 16 then some true
  else if held false + charge ≤ sharedFree d * 2 ^ fld w 0 3 / 32 then some false else none

/-- Cells that a length takes (R126). -/
def cellCount (len : Nat) : Nat := (len + 127) / 128

/-! ### Transmit timestamp queues (R217, R219, R220) -/

/-- Resolution and accuracy of a port's timestamps at its rate, in units of 2^-16 ns (Table 7.7). -/
def stampGrain (d : Dev) (p : Nat) : Nat × Nat :=
  match portType p with
  | .g => if rf d (macPage p) 0xb8 1 4 = 1 then (40960, 524288) else (10240, 131072)
  | .s => (40960, 2621440)
  | _ => (2560, 52428)

/-- An entry of a port's transmit timestamp queue, or its loss. -/
def tsqPut (d : Dev) (p : Nat) (w0 w1 : W64) : Dev :=
  let l := kvD d.time.txqs p []
  if 32 ≤ l.length then irq (wb (cnt d (tsPage p) 0xa0 1) (tsPage p) 0x98 8 true) (tsPage p) 1
  else
    let d1 := { d with time := { d.time with txqs := kvPut d.time.txqs p (l ++ [(w0, w1)]) } }
    irq (wf d1 (tsPage p) 0x98 0 6 (l.length + 1)) (tsPage p) 0

/-- The queue of a port is emptied without counting (R220). -/
def tsqClear (d : Dev) (p : Nat) : Dev :=
  wf { d with time := { d.time with txqs := kvDel d.time.txqs p, txqHalf := d.time.txqHalf.filter (· != p) } } (tsPage p) 0x98 0 6 0

/-- The entry of a copy that was presented with TS_REQ: stomped, dropped or sent, with a time in units of 2^-16 ns. -/
def tsqEntry (d : Dev) (c : Copy) (time : Nat) (stomped dropped preempted : Bool) : Dev :=
  match c.tsId with
  | none => d
  | some i =>
    if c.port < 26 ∧ rb d (tsPage c.port) 0x80 1 then
      tsqPut d c.port (mkWord [(0, tNs time), (32, tFrac time), (48, i % 65536)])
        (mkWord [(0, tSec time % 2 ^ 48), (48, stomped.toNat), (49, dropped.toNat), (50, preempted.toNat), (63, 1)])
    else d

/-! ### Copies that leave a queue without being sent -/

/-- Whether a port has a queued copy or one in transmission. -/
def portBusy (d : Dev) (p : Nat) : Bool :=
  (queued d (quayOfPort p)).any (fun e => e.2.port == p) || (kvGet d.tx p).isSome || (kvGet d.susp p).isSome

/-- A copy of a port has gone: where it was the last, the port's queues are empty from now on (R93). -/
def emptied (d : Dev) (p : Nat) : Dev := if portBusy d p then d else setPort d p { portSt d p with emptyFrom := d.now }

/-- A copy that is not transmitted leaves a DROPPED entry (R219). -/
def dropEntry (d : Dev) (c : Copy) : Dev := tsqEntry d c 0 false true false

/-- A copy freed without transmission, where it has left its queue already. -/
def freeCopy (d : Dev) (c : Copy) : Dev := emptied (dropEntry d c) c.port

/-- The copies of a quay that a test selects are taken out of their cells, in ascending order of cells, and given to `f`; a cell that they
leave empty stops being eligible (R178). -/
def takeCopies (d : Dev) (n : Nat) (sel : Copy → Bool) (f : Dev → Copy → Dev) : Dev :=
  (quay d n).qcells.foldl (fun d e =>
    let gone := e.2.copies.filter sel
    if gone = [] then d
    else
      let c := qcell d n e.1
      gone.foldl f (setQcell d n e.1 { c with copies := c.copies.filter (fun x => !sel x), elig := c.elig && c.copies.any fun x => !sel x })) d

/-- The copies of a quay changed in place. -/
def mapCopies (d : Dev) (n : Nat) (f : Copy → Copy) : Dev :=
  let q := quay d n
  setQuay d n { q with qcells := q.qcells.map fun e => (e.1, { e.2 with copies := e.2.copies.map f }) }

/-! ### Words that fail their code (R16 to R18, R37) -/

/-- A word of a region shows a corrected error: whether for the second time within one scrub pass (R17). A pass begins at every multiple
of 100 ms (log 45). -/
def seenTwice (d : Dev) (r w : Nat) : Bool × Dev :=
  let pass := d.now / (100 * msTicks)
  let seen := if d.scrub.pass = pass then d.scrub.seen else []
  if seen.contains (r, w) then (true, { d with scrub := { d.scrub with pass := pass, seen := seen.filter (· != (r, w)) } })
  else (false, { d with scrub := { d.scrub with pass := pass, seen := seen ++ [(r, w)] } })

/-- A buffer cell is retired (R17): it leaves the free-cell list. -/
def retireCell (d : Dev) (cell : Nat) : Dev :=
  if d.retired1.contains cell then d else { d with retired1 := d.retired1 ++ [cell] }

/-- The buffer cells of a frame are read (R16 to R18): an error reported, a cell of 64 octets retired that shows an error which cannot be
corrected, or a corrected one twice in one word within a scrub pass. -/
def bufRead (d : Dev) : EccEvent → Dev
  | .clean => d
  | .corrected w =>
    let (again, d1) := seenTwice (raise d .chip 0) 0 w
    if again then retireCell d1 (w / 8) else d1
  | .uncorrectable w => retireCell (raise d .chip 16) (w / 8)

/-- Words of the MRAM are read (R37). -/
def mramRead (d : Dev) : EccEvent → Dev
  | .clean => d
  | .corrected _ => raise d .chip 15
  | .uncorrectable _ => raise d .chip 31

/-! ### Keep-alives of NM clusters (R288) -/

/-- Word w of the configuration of NM cluster n, active copy (Table 10.10). -/
def clWord (d : Dev) (n w : Nat) : W64 := ac d (.buoy 3) (0x80 + n * 0x20 + w * 8)

/-- A cluster that is in use. -/
def clValid (d : Dev) (n : Nat) : Bool :=
  bit (clWord d n 0) 0 && !(bit (clWord d n 0) 1 && fld (clWord d n 1) 0 26 == 0)

/-- The clusters of which a frame on channel k is a keep-alive. -/
def kaOfCan (d : Dev) (k : Nat) (f : CanFrame) : List Nat :=
  (List.range 32).filter fun n =>
    let w := clWord d n 1
    clValid d n && !bit (clWord d n 0) 1 && fld (clWord d n 0) 2 5 == k && bit w 58 == f.ide
      && (f.id &&& fld w 29 29) == (fld w 0 29 &&& fld w 29 29)

/-- The clusters of which a frame of a port with this classification VID is a keep-alive; `udp`: its destination port, where it is UDP. -/
def kaOfEth (d : Dev) (p vid : Nat) (udp : Option Nat) : List Nat :=
  (List.range 32).filter fun n =>
    let w := clWord d n 1
    clValid d n && bit (clWord d n 0) 1 && fld (clWord d n 0) 16 12 == vid && (p == 26 || p == 27 || bit w p)
      && (fld w 32 16 == 0 || udp == some (fld w 32 16))

/-- Indications of these clusters are on their way to the Buoy; one that is on its way already stands for a second. -/
def kaNote (d : Dev) (l : List Nat) : Dev :=
  let more := (l.filter fun n => (kvGet d.buoy.kaDue n).isNone).map fun n => (n, d.now)
  if more = [] then d else { d with buoy := { d.buoy with kaDue := d.buoy.kaDue ++ more } }

end Sys2Proof.Machine
end

