-- ==== Sys2Proof/Machine/Gates.lean ====
section
/-! DEFINITION. Gate control lists (R180 to R188), credit-based shapers (R189, R190), shapers and the calendar wheel
(R191 to R194). -/

namespace Sys2Proof.Machine

/-! ### Where the gate registers of a port lie (R180, Tables 6.7 and 6.10) -/

/-- The page and the offset of GCL_CTRL of a port with a gate control list. -/
def gatePg (p : Nat) : Page × Nat := if p = 26 then (.quay 3 1, 0x400) else (macPage p, 0x200)

/-- A gate register of a port as the scheduler acts on it; k counts registers from GCL_CTRL. -/
def gateAc (d : Dev) (p k : Nat) : W64 := ac d (gatePg p).1 ((gatePg p).2 + k * 8)

/-- A gate interrupt of a port: 0 GCL_SWITCH, 1 BASE_IN_PAST, 2 GCL_OVERSIZE. -/
def gateIrq (d : Dev) (p k : Nat) : Dev := irq d (gatePg p).1 (k + if p = 26 then 1 else 4)

def gatesOf (d : Dev) (p : Nat) : Gates := kvD d.gates p {}
def setGates (d : Dev) (p : Nat) (g : Gates) : Dev := { d with gates := kvPut d.gates p g }

/-- The list that the active copies of a port hold (Table 6.2). -/
def adminList (d : Dev) (p : Nat) : GateList :=
  let c := gateAc d p 0
  let a := 0x03200000 + p * 0x4000
  { en := bit c 0, dom := fld c 1 3,
    entries := (List.range (fld c 16 11)).map fun k =>
      let w := trd d (a + k * 16)
      (fld w 0 8, fld w 8 2, fld (trd d (a + k * 16 + 8)) 0 32),
    cycle := fld (gateAc d p 3) 0 32, ext := fld (gateAc d p 3) 32 32 }

/-! ### A list in time (R182, R187) -/

/-- The segments of one cycle: duration in 2^-16 ns, gates, OP, entry; cut or held to the end of the cycle (R182). -/
def segsOf (left : Nat) (k : Nat) : List (Nat × Nat × Nat) → List (Nat × Nat × Nat × Nat)
  | [] => []
  | [(g, op, _)] => if left = 0 then [] else [(left, g, op, k)]
  | (g, op, n) :: l => if left = 0 then [] else (min left (n * 65536), g, op, k) :: segsOf (left - n * 65536) (k + 1) l

/-- The segments of a list. -/
def GateList.segs (g : GateList) : List (Nat × Nat × Nat × Nat) := segsOf (g.cycle * 65536) 0 g.entries

/-- The segments from a position of the cycle on, once around. -/
def rotateSegs (pos : Nat) : List (Nat × Nat × Nat × Nat) → List (Nat × Nat × Nat × Nat) → List (Nat × Nat × Nat × Nat)
  | [], done => done.reverse
  | (n, r) :: l, done =>
    if n ≤ pos then rotateSegs (pos - n) l ((n, r) :: done)
    else (n - pos, r) :: (l ++ done.reverse ++ (if pos = 0 then [] else [(pos, r)]))

/-- The position of a time in the cycle of a list; cycles continue backward before CT (log 16). -/
def GateList.pos (g : GateList) (x : Nat) : Nat := (((x : Int) - g.ct) % ((max 1 g.cycle * 65536 : Nat) : Int)).toNat

/-- Segments cut to a length. -/
def cutSegs (left : Nat) : List (Nat × Nat × Nat × Nat) → List (Nat × Nat × Nat × Nat)
  | [] => []
  | (n, r) :: l => if left = 0 then [] else (min left n, r) :: cutSegs (left - n) l

/-- Where the cycles of a list end before a pending CT: the last one does not start where it would be shorter than EXT (R187). -/
def GateList.lastEnd (g : GateList) (ct : Nat) : Nat :=
  let r := g.pos ct
  if 0 < r ∧ r < g.ext * 65536 then ct - r else ct

/-- The segments of a list from a time on, at most once around; before a pending CT its last segment holds from the end of its last
cycle (R187). -/
def GateList.ahead (g : GateList) (ct : Option Nat) (x : Nat) : List (Nat × Nat × Nat × Nat) :=
  let around := rotateSegs (g.pos x) g.segs []
  match ct, g.segs.getLast? with
  | some c, some (_, r) =>
    let b := g.lastEnd c
    if b ≤ x then [(c - x, r)]
    else if g.cycle * 65536 < b - x then around
    else cutSegs (b - x) around ++ (if b < c then [(c - b, r)] else [])
  | _, _ => around

/-- How long the gate of class t stays open over segments; none where it never closes in them. -/
def openRun (t : Nat) : List (Nat × Nat × Nat × Nat) → Nat → Option Nat
  | [], _ => none
  | (n, g, _) :: l, acc => if g / 2 ^ t % 2 = 1 then openRun t l (acc + n) else some acc

/-- Lead of the selection over the transmit reference point (R176), in 2^-16 ns. -/
def selLead (d : Dev) (p : Nat) : Nat := (if macsecTxOn d p then 19 else 7) * (tsStep / 4)

/-- The list in force at the transmit reference point a lead from now: the waiting one from its CT on (R182, R186); none: ADMIN_GATES. -/
def listAt (d : Dev) (p lead : Nat) : Option GateList :=
  if 27 ≤ p then none
  else match (gatesOf d p).pend with
    | some h => if timeOf d h.dom + lead < h.ct then (gatesOf d p).oper else some h
    | none => (gatesOf d p).oper

/-- The list in force for a selection now. -/
def operList (d : Dev) (p : Nat) : Option GateList := listAt d p (selLead d p)

/-- What is left, a lead from now, until the CT of the list that waits. -/
def ctLeft (d : Dev) (p lead : Nat) : Option Nat :=
  match (gatesOf d p).pend with
  | some h => if timeOf d h.dom + lead < h.ct then some (h.ct - (timeOf d h.dom + lead)) else none
  | none => none

/-- CT of the list that waits, in the time of the running list (DESIGN CHOICE for two domains, log 16: the time that is left until CT,
as the waiting list's domain counts it now). -/
def pendCt (d : Dev) (p lead : Nat) (g : GateList) : Option Nat := (ctLeft d p lead).map (· + (timeOf d g.dom + lead))

/-- The gates of a port at the transmit reference point for a selection now, and the entry in force. -/
def gatesNow (d : Dev) (p lead : Nat) : Nat × Nat × Nat :=
  match listAt d p lead with
  | some g =>
    (match g.ahead (pendCt d p lead g) (timeOf d g.dom + lead) with
      | (_, gs, op, k) :: _ => (gs, op, k)
      | [] => (0, 0, 0))
  | none => if p < 27 then (fld (gateAc d p 0) 8 8, 0, 0) else (255, 0, 0)

/-- How long the gate of class t stays open from a selection now: none without end, 0 where it is closed. What is in force now runs up to
the CT of a list that waits, and that list runs on from there. -/
def gateOpenFor (d : Dev) (p t : Nat) : Option Nat :=
  let lead := selLead d p
  let span := match operList d p with
    | some g => openRun t (g.ahead (pendCt d p lead g) (timeOf d g.dom + lead)) 0
    | none => if (gatesNow d p lead).1 / 2 ^ t % 2 = 1 then none else some 0
  match span, ctLeft d p lead, (gatesOf d p).pend with
  | none, some left, some h => (openRun t h.segs 0).map (· + left)
  | s, _, _ => s

/-- The longest time for which a list keeps the gate of class t open, across cycles too (R184); none where it never closes. -/
def GateList.longest (g : GateList) (t : Nat) : Option Nat :=
  let l := g.segs
  if l.all (fun s => s.2.1 / 2 ^ t % 2 == 1) then none
  else
    some ((List.range l.length).foldl (fun m k =>
      match openRun t (l.drop k ++ l.take k) 0 with | some n => max m n | none => m) 0)

/-- The limits that a switch computes for the classes (R184): of its list, or of the constant ADMIN_GATES where none runs. -/
def gateLimits (g : GateList) (admin : Nat) : List (Nat × Nat) :=
  (List.range 8).filterMap fun t =>
    (if g.en then g.longest t else if admin / 2 ^ t % 2 = 1 then none else some 0).map fun n => (t, n)

/-- The time in 2^-16 ns that n octets take at the rate of a port. -/
def octetTime (d : Dev) (p n : Nat) : Nat := n * 8 * 65536 * 1000000 / portRate d p

/-- MAC_MERGE_STAT.ACTIVE, and whether a class is preemptable (R132, Table 4.13). -/
def mergeActive (d : Dev) (p : Nat) : Bool := decide (p < 26) && rb d (macPage p) 0xb0 2
def preemptable (d : Dev) (p t : Nat) : Bool := mergeActive d p && bit (ac d (macPage p) 0xa8) (16 + t)
def minFrag (d : Dev) (p : Nat) : Nat := 64 * (1 + af d (macPage p) 0xa8 9 2)

/-- The transmitted length of a copy for the gate check (R183). -/
def sentLen (d : Dev) (c : Copy) : Nat :=
  c.len.getD c.maxLen + 8 + (if macsecTxOn d c.port then 32 else 0) + (if c.rtag then 6 else 0)

/-- Whether the gate of class t admits a head copy at a selection now (R183). -/
def gateAdmits (d : Dev) (t : Nat) (c : Copy) : Bool :=
  if 27 ≤ c.port then true
  else match gateOpenFor d c.port t with
    | none => true
    | some n =>
      if !bit (gateAc d c.port 0) 4 then n != 0
      else if preemptable d c.port t then decide (octetTime d c.port (8 + minFrag d c.port) ≤ n) && n != 0
      else decide (octetTime d c.port (sentLen d c) ≤ n) && n != 0

/-- Whether a head copy can never fit the longest open time of its class, as the last switch computed it (R184). -/
def neverFits (d : Dev) (t : Nat) (c : Copy) : Bool :=
  if 27 ≤ c.port ∨ !bit (gateAc d c.port 0) 4 then false
  else match kvGet (gatesOf d c.port).limits t with
    | none => false
    | some n =>
      if preemptable d c.port t then decide (n < octetTime d c.port (8 + minFrag d c.port))
      else decide (n < octetTime d c.port (sentLen d c))

/-! ### Switches of a gate group (R181, R186) -/

/-- Whether the shadow copies of a gate group hold valid values (R181). A list that does not run is not judged by its
domain and entries (log 17). -/
def gateShadowValid (d : Dev) (p : Nat) : Bool :=
  let (pg, o) := gatePg p
  let c := rd d pg o
  let cyc := rd d pg (o + 0x18)
  let n := fld c 16 11
  let dm := fld c 1 3
  let a := 0x03000000 + p * 0x4000
  n != 0 && decide (n ≤ 1024) && decide (1000 ≤ fld cyc 0 32 ∧ fld cyc 0 32 ≤ 1000000000) && decide (fld cyc 32 32 ≤ fld cyc 0 32)
    && decide (rf d pg (o + 0x10) 0 32 < 1000000000) && decide (dm ≤ 4)
    && (!bit c 0 || (domOn d dm && (List.range n).all fun k =>
        fld (trd d (a + k * 16)) 8 2 != 3 && decide (20 ≤ fld (trd d (a + k * 16 + 8)) 0 32)))

/-- The list that has just become active is installed (R186): it runs from its CT on; with GATE_EN = 0 no list takes effect, so there is
no CT (DEDUCED, log 17). The limits of R184 are computed. `s0` is the switch time in the list's domain. -/
def gateSwitch (d0 : Dev) (p s0 : Nat) : Dev :=
  let (pg, o) := gatePg p
  let g := adminList d0 p
  let d := setGates d0 p { gatesOf d0 p with limits := gateLimits g (fld (gateAc d0 p 0) 8 8) }
  if !g.en then
    wf (setGates d p { gatesOf d p with oper := none, pend := none, hold := false }) pg (o + 0x20) 0 2 0
  else
    let base := tMake (gateAc d p 1).toNat (fld (gateAc d p 2) 0 32) 0
    let cyc := max 1 g.cycle * 65536
    let want := s0 + twoUs
    let past := base < want
    let ct := if past then base + (want - base + cyc - 1) / cyc * cyc else base
    let d1 := setGates d p { gatesOf d p with pend := some { g with ct := ct } }
    let d2 := wb (wr (wr d1 pg (o + 0x28) (BitVec.ofNat 64 (tSec ct))) pg (o + 0x30) (BitVec.ofNat 64 (tNs ct))) pg (o + 0x20) 1 true
    if past then gateIrq (wb d2 pg (o + 0x20) 2 true) p 1 else d2

/-! ### Credit-based shapers (R189, R190) -/

/-- Key of a credit. -/
def crKey (p t : Nat) : Nat := p * 8 + t

/-- CBS_t of a port as the scheduler acts on it: enabled, idle slope in kb/s, high credit in octets. -/
def cbsCfg (d : Dev) (p t : Nat) : Bool × Nat × Nat :=
  let w := ac d (macPage p) (0x240 + t * 8)
  (bit w 32, fld w 0 32, fld w 40 24)

/-- Whether a class of a port has a queued copy. -/
def classQueued (d : Dev) (p t : Nat) : Bool := (queued d (quayOfPort p)).any fun e => e.2.port == p && e.2.tc == t

/-- The credit of a class brought to now under the conditions that held since it was last brought up to date (R189). -/
def cbsOne (d : Dev) (p t : Nat) : Dev :=
  let (en, idle, hi) := cbsCfg d p t
  let old : Credit := kvD d.credits (crKey p t) { last := d.now }
  if !en then { d with credits := kvDel d.credits (crKey p t) }
  else
    let ticks := d.now - old.last
    let gain (k : Int) : Int := k * ticks * 16 / 3125
    let sendingT := match kvGet d.tx p with | some f => f.tc == t | none => false
    let held := match kvGet d.susp p with | some f => f.tc == t | none => false
    let gs := if (operList d p).isSome then (portSt d p).gateClass else (gatesNow d p 0).1
    let isOpen := gs / 2 ^ t % 2 = 1
    let c : Int := if sendingT then old.c + gain ((idle : Int) - portRate d p)
      else if held then old.c
      else if classQueued d p t then (if isOpen then old.c + gain idle else old.c)
      else if old.c < 0 then min 0 (old.c + gain idle) else 0
    let c1 : Int := if hi ≠ 0 then min c (hi * 65536) else c
    { d with credits := kvPut d.credits (crKey p t) { c := c1, last := max old.last d.now } }

/-- The credits of a port brought to now; called before anything that changes their conditions. -/
def cbsSync (d : Dev) (p : Nat) : Dev := if p < 26 then (List.range 8).foldl (fun d t => cbsOne d p t) d else d

/-- The configuration change time is reached, by time or by a step (R186, R188): the waiting list runs. -/
def gateConfigOp (d0 : Dev) (p : Nat) : Dev :=
  match (gatesOf d0 p).pend with
  | none => d0
  | some h =>
    if timeOf d0 h.dom < h.ct then d0
    else
      let d := cbsSync d0 p
      let (pg, o) := gatePg p
      let d1 := wf (setGates d p { gatesOf d p with oper := some h, pend := none, hold := false }) pg (o + 0x20) 0 2 1
      gateIrq (setPort d1 p { portSt d1 p with gateClass := (gatesNow d1 p (selLead d1 p)).1 }) p 0

/-- Whether the credit of a class lets it be selected. -/
def cbsOk (d : Dev) (p t : Nat) : Bool :=
  if p < 26 ∧ (cbsCfg d p t).1 then decide (0 ≤ (kvD d.credits (crKey p t) { last := d.now }).c) else true

/-- Whether the shadow values of the credit-based shapers are valid (R190). -/
def cbsShadowValid (d : Dev) (p : Nat) : Bool :=
  let cl := (List.range 8).filter fun t => rb d (macPage p) (0x240 + t * 8) 32
  let slope (t : Nat) : Nat := rf d (macPage p) (0x240 + t * 8) 0 32
  cl.all (fun t => slope t != 0) && decide (cl.foldl (fun a t => a + slope t) 0 ≤ rateOf (rf d (macPage p) 0x88 0 4))

/-! ### Shapers (R191 to R194) -/

def shaper (d : Dev) (n i : Nat) : Shaper := kvD (quay d n).shapers i {}
def setShaper (d : Dev) (n i : Nat) (s : Shaper) : Dev :=
  setQuay d n { quay d n with shapers := kvPut (quay d n).shapers i s }

/-- CIR, PIR, CBS, PBS and OVH of a shaper (Table 6.4) from its two words. -/
structure ShCfg where
  cir : Nat
  pir : Nat
  cbs : Nat
  pbs : Nat
  ovh : Nat

/-- The parameters of a shaper in the active half. -/
def shCfg (d : Dev) (n i : Nat) : ShCfg :=
  let a := hier d n i 0
  let b := hier d n i 1
  { cir := max 1 (fld a 0 32), pir := max 1 (fld a 32 32), cbs := fld b 0 24, pbs := fld b 24 24, ovh := fld b 48 6 }

/-- Units of 2^-16 ns in a fine slot (Table 6.3). -/
def slotUnits : Nat := 655360

/-- Entries of a slot of the wheel of a quay. -/
def slotLoad (d : Dev) (n : Nat) (s : Bool × Nat) : Nat := ((quay d n).shapers.filter fun e => e.2.slot == some s).length

/-- Where an entry for a time can be placed (`fits` of R191): a slot, a full slot, or out of span. -/
def wheelSlot (d : Dev) (n t now : Nat) : Option (Bool × Nat) × Bool :=
  let f := (t + slotUnits - 1) / slotUnits
  let p := now / slotUnits
  let s : Bool × Nat := if f ≤ p + 1023 then (false, f) else (true, f / 1024)
  if p + 1023 < f ∧ p / 1024 + 1023 < f / 1024 then (none, false)
  else if slotLoad d n s < 16 then (some s, false) else (none, true)

/-- Fall-back to bucket mode (R191): the wait that remains is carried into CT. -/
def fallBack (d : Dev) (n i now : Nat) (full : Bool) : Dev :=
  let s := shaper d n i
  let k := shCfg d n i
  let ct : Int := -(((s.net - now) * k.cir / 8000000 : Nat) : Int)
  let d1 := setShaper d n i { s with bucket := true, slot := none, ct := ct, pt := k.pbs * 65536, last := now, elig := false }
  irq (cnt d1 (quayPage n 1) (if full then 0x108 else 0x100) 1) (quayPage n 1) 0

/-- A shaper is placed on the wheel, or falls back (`place` of R191). -/
def placeShaper (d : Dev) (n i now : Nat) : Dev :=
  let s := shaper d n i
  if s.net ≤ now then setShaper d n i { s with slot := none, elig := true }
  else match wheelSlot d n s.net now with
    | (some sl, _) => setShaper d n i { s with slot := some sl, elig := false }
    | (none, full) => fallBack d n i now full

/-- The buckets of a shaper refilled to now (`refill` of R191) with given parameters. -/
def refillWith (k : ShCfg) (s : Shaper) (now : Nat) : Shaper :=
  let up (rate : Nat) : Int := (((now - s.last) * rate / 8000000 : Nat) : Int)
  { s with ct := min (k.cbs * 65536) (s.ct + up k.cir), pt := min (k.pbs * 65536) (s.pt + up k.pir), last := now }

/-- A shaper is charged with a frame of L octets (`charge` of R191). -/
def chargeShaper (d : Dev) (n i len : Nat) : Dev :=
  let now := locNow d
  let k := shCfg d n i
  let l2 := len + k.ovh
  let s := shaper d n i
  if !s.bucket then
    placeShaper (setShaper d n i { s with net := max s.net now + l2 * 8000000 * 65536 / k.cir }) n i now
  else
    let s1 := refillWith k s now
    let s2 := { s1 with ct := s1.ct - l2 * 65536, pt := s1.pt - l2 * 65536 }
    let wait : Int := max 0 (max (-s2.ct * 8000000 / (k.cir : Int)) (-s2.pt * 8000000 / (k.pir : Int)))
    let t := now + wait.toNat
    let d1 := setShaper d n i { s2 with elig := decide (0 ≤ s2.ct ∧ 0 ≤ s2.pt) }
    if now < t then
      match wheelSlot d1 n t now with
      | (some sl, _) =>
        cnt (setShaper d1 n i { s2 with bucket := false, net := t, slot := some sl, elig := false }) (quayPage n 1) 0x110 1
      | (none, _) => d1
    else d1

/-- Whether a shaper is eligible. -/
def shaperOk (d : Dev) (n i : Nat) : Bool := (shaper d n i).elig

/-- A fine slot of the wheel is reached (R192). -/
def slotReleaseOp (d : Dev) (n : Nat) : Dev :=
  let p := locNow d / slotUnits
  (quay d n).shapers.foldl (fun d e =>
    match e.2.slot with
    | some (false, f) => if f ≤ p then setShaper d n e.1 { e.2 with slot := none, elig := true } else d
    | _ => d) d

/-- The coarse slot of the next coarse interval moves into the fine wheel (R192). -/
def coarseMoveOp (d : Dev) (n : Nat) : Dev :=
  let now := locNow d
  let c := (now / slotUnits + 1) / 1024
  (quay d n).shapers.foldl (fun d e =>
    match e.2.slot with
    | some (true, k) =>
      if k ≤ c then
        let f := (e.2.net + slotUnits - 1) / slotUnits
        if slotLoad d n (false, f) < 16 then setShaper d n e.1 { e.2 with slot := some (false, f) }
        else fallBack d n e.1 now true
      else d
    | _ => d) d

/-- Every shaper in bucket mode is evaluated (R193). -/
def bucketEvalOp (d : Dev) (n : Nat) : Dev :=
  (quay d n).shapers.foldl (fun d e =>
    if e.2.bucket then
      let s := refillWith (shCfg d n e.1) e.2 (locNow d)
      setShaper d n e.1 { s with elig := decide (0 ≤ s.ct ∧ 0 ≤ s.pt) }
    else d) d

/-- At a switch of QUAY n page 1 the bucket-mode shapers are refilled with their old parameters (R194). -/
def shapersAtSwitch (d : Dev) (n : Nat) : Dev :=
  (quay d n).shapers.foldl (fun d e =>
    if e.2.bucket then setShaper d n e.1 (refillWith (shCfg d n e.1) e.2 (locNow d)) else d) d

end Sys2Proof.Machine
end

