-- ==== Sys2Proof/Machine/Forwarding.lean ====
section
/-! DEFINITION. The tables of the quay pipeline (chapter 4): VLAN classification, the MAC/VLAN table, multicast groups,
streams, filters and meters, FRER, and the admission of copies. -/

namespace Sys2Proof.Machine

/-! ### VLAN classification (R109) -/

/-- QUAY_PORT_CFG_j of an ingress port as a view has it. -/
structure PortCfg where
  pvid   : Nat
  defPcp : Nat
  learn  : Nat
  untag  : Bool
  tagOk  : Bool
  trust  : Bool
deriving DecidableEq, Repr

def portCfg (d : Dev) (vw : View) (p : Nat) : PortCfg :=
  let w := va d vw (quayPage (quayOfPort p) 0) (0x100 + slotOfPort p * 8)
  { pvid := fld w 0 12, defPcp := fld w 12 3, learn := fld w 16 2, untag := bit w 18, tagOk := bit w 19, trust := bit w 20 }

/-- The classification VID and PCP of a frame; none where the accept settings refuse it (R109). -/
def classify (c : PortCfg) (p : Parsed) : Option (Nat × Nat) :=
  match p.outer with
  | none => if c.untag then some (c.pvid, c.defPcp) else none
  | some (vid, pcp, _) =>
    let q := if c.trust then pcp else c.defPcp
    if vid = 0 then (if c.untag then some (c.pvid, q) else none)
    else if c.tagOk then some (vid, q) else none

/-! ### The MAC/VLAN table (R110 to R116) -/

/-- First address of the bucket of {VID, MAC} (R110). -/
def macBucket (vid mac : Nat) : Nat := 0x01400000 + crc32 (beBytes 2 vid ++ beBytes 6 mac) % 16384 * 64

/-- The valid entry of {VID, MAC}; one that names a port from 29 to 62 acts as not valid (R2, R515). -/
def macFind (t : Store) (vid mac : Nat) : Option Nat :=
  ((List.range 4).map fun k => macBucket vid mac + k * 16).find? fun a =>
    bit (tIn t a) 63 && fld (tIn t a) 0 48 == mac && fld (tIn t a) 48 12 == vid
      && (bit (tIn t (a + 8)) 6 || decide (fld (tIn t (a + 8)) 0 6 < 29) || fld (tIn t (a + 8)) 0 6 == 63)

/-- What the SA lookup of a frame finds (R113, R114): miss, SA_DROP, SA_STATIC_MISMATCH. -/
structure SaOut where
  miss     : Bool := false
  drop     : Bool := false
  mismatch : Bool := false
deriving DecidableEq, Repr

/-- The learning insertion of an SA that the read missed (R113, R116). -/
def learnSa (d : Dev) (e : Instant) (n p vid sa : Nat) : Dev :=
  let full := fullTbl d
  let pg := quayPage n 0
  match macFind full vid sa with
  | some _ => cnt d pg 0x250 1
  | none =>
    match ((List.range 4).map fun k => macBucket vid sa + k * 16).find? fun a => tIn full a == 0 with
    | some a => cnt (issueNew d (e + 20) a [mkWord [(0, sa), (48, vid), (63, 1)], mkWord [(0, p), (20, 1)]]) pg 0x248 1
    | none => irq (cnt d pg 0x258 1) pg 1

/-- The SA lookup of a frame that entered at e (R113, R114): a STATIC entry of another port stays as it is. An entry that names a group
has no port: it counts as one of another port, and its rewrite makes it name the port (DESIGN CHOICE, log 174). -/
def saLookup (d : Dev) (e : Instant) (seen : Store) (n p vid sa learn : Nat) : Dev × SaOut :=
  match macFind seen vid sa with
  | none => (if learn = 0 then d else learnSa d e n p vid sa, { miss := true })
  | some a =>
    let w0 := tIn seen a
    let w1 := tIn seen (a + 8)
    let other := fld w1 0 6 != p || bit w1 6
    let hit := setBit w1 20 true
    if other && bit w0 60 then (d, { drop := bit w0 61, mismatch := true })
    else if other then
      (cnt (issue d (e + 20) (a + 8) [setBit (setFld hit 0 6 p) 6 false]) (quayPage n 0) 0x260 1, { drop := bit w0 61 })
    else (issue d (e + 20) (a + 8) [hit], { drop := bit w0 61 })

/-- The ports of a mask. -/
def maskPorts (m : Nat) : List Nat := (List.range 29).filter fun p => m / 2 ^ p % 2 == 1

/-- A multicast group (R111): none where it is invalid. -/
def group (t : Store) (g : Nat) : Option (List Nat) :=
  let w := tIn t (0x03800000 + g * 8)
  if bit w 63 then some (maskPorts (fld w 0 29)) else none

/-- What the DA lookup gives (R112): the destinations, whether one port was hit, whether flooded, whether DA_DROP. -/
structure DaOut where
  dests : List Nat
  hit   : Bool := false
  flood : Bool := false
  drop  : Bool := false
deriving DecidableEq, Repr

/-- The DA lookup of {VID, DA} for the member ports of the VLAN (R112). -/
def daLookup (seen : Store) (vid da member : Nat) : DaOut :=
  let flood : DaOut := { dests := maskPorts member, flood := true }
  if da = 2 ^ 48 - 1 then flood
  else match macFind seen vid da with
    | none => flood
    | some a =>
      let w1 := tIn seen (a + 8)
      if bit w1 19 then { dests := [], drop := true }
      else if bit w1 6 then (match group seen (fld w1 8 11) with | some l => { dests := l } | none => flood)
      else { dests := [fld w1 0 6].filter (· < 29), hit := true }

/-- The time between two aging sweeps in units of 2^-16 ns of local time (R115, Table 4.20): none where aging is off. -/
def agePeriod (d : Dev) : Option Nat :=
  let s := rf d (.quay 0 0) 0xb0 0 16
  if s = 0 then none else some (max s 10 * secUnits / 2)

/-- The aging sweep (R115), due half of AGE_S after the last one: the sweep of one MAC/VLAN entry. -/
def agingOne (d : Dev) (a : Nat) : Dev :=
  let w0 := trd d a
  let w1 := trd d (a + 8)
  if bit w0 63 && !bit w0 60 && !bit w1 20 then twr d a 0 else twr d (a + 8) (setBit w1 20 false)

/-- The aging sweep (R115). -/
def agingOp (d : Dev) : Dev :=
  match agePeriod d with
  | none => d
  | some per =>
    if locNow d < d.agedAt + per then d
    else
      let es := ((d.tbl.filter fun e => 0x01400000 ≤ e.1 && e.1 < 0x01500000).map fun e => e.1 - e.1 % 16).eraseDups
      es.foldl agingOne { d with agedAt := locNow d }

/-! ### Streams (R117, R118) -/

/-- Address of stream entry i in the active half. -/
def streamAddr (i : Nat) : Nat := 0x02200000 + i * 32

/-- Whether the entry at an address is of a type and matches a frame (Table 4.10). -/
def streamIs (t : Store) (a ty vid : Nat) (p : Parsed) : Bool :=
  let w0 := tIn t a
  let w1 := tIn t (a + 8)
  let w2 := tIn t (a + 16)
  bit w0 63 && fld w0 60 3 == ty && fld w0 48 12 == vid && !(bit w2 58 && bit w2 59) &&
    (if ty = 3 then
      p.kind == 1 && fld w0 0 32 == p.dip && (!bit w1 48 || fld w1 0 32 == p.sip) && (!bit w1 49 || fld w1 32 8 == p.proto)
        && (!bit w1 50 || fld w1 40 6 == p.dscp) && (!bit w2 32 || (p.l4 && fld w2 0 16 == p.sport))
        && (!bit w2 33 || (p.l4 && fld w2 16 16 == p.dport))
    else fld w0 0 48 == (if ty = 1 then p.sa else p.da))

/-- The stream handle of a frame in quay n (R118): none where no entry matches. -/
def streamFind (t : Store) (n vid : Nat) (p : Parsed) : Option Nat :=
  [3, 2, 1, 0].findSome? fun ty =>
    let key := beBytes 2 vid ++ (if ty = 3 then beBytes 4 p.dip else beBytes 6 (if ty = 1 then p.sa else p.da))
    let first := 1024 * n + 4 * (crc32 key % 256)
    ((List.range 4).map (first + ·)).find? fun i => streamIs t (streamAddr i) ty vid p

/-! ### Filters and meters (R120 to R123) -/

def filter (d : Dev) (i : Nat) : Filter := kvD d.filters i {}
def setFilter (d : Dev) (i : Nat) (f : Filter) : Dev := { d with filters := kvPut d.filters i f }

/-- A meter's colour for a frame of L octets with an input colour (R122): 0 green, 1 yellow, 2 red; drop; new DEI. -/
def meterOp (d : Dev) (t : Store) (m len : Nat) (yellowIn : Bool) : Dev × Bool × Option Bool :=
  let c := 0x02600000 + m * 32
  let w0 := tIn t c
  let bad := decide (25000000 < fld w0 0 32) || decide (25000000 < fld w0 32 32)
  let cir := if bad then 0 else fld w0 0 32
  let eir := if bad then 0 else fld w0 32 32
  let w1 := tIn t (c + 8)
  let w2 := tIn t (c + 16)
  let s : Meter := kvD d.meters m {}
  let now := locNs d % 2 ^ 63
  let dt := now - s.last
  let cbs := fld w1 0 32 * 65536
  let ebs := fld w1 32 32 * 65536
  let nc := s.ct + cir * dt * 128 / 15625
  let ct := min nc cbs
  let et := min (s.et + eir * dt * 128 / 15625 + (if bit w2 0 then nc - cbs else 0)) ebs
  let need := len * 65536
  let put (x : Meter) : Dev := { d with meters := kvPut d.meters m x }
  let state := 0x02800000 + m * 32
  if !s.red && (!bit w2 1 || !yellowIn) && decide (need ≤ ct) then
    (put { ct := ct - need, et := et, last := now, red := false }, false, none)
  else if !s.red && decide (need ≤ et) then
    (tcnt (put { ct := ct, et := et - need, last := now, red := false }) (state + 16), bit w2 2, some (bit w2 4))
  else
    (tcnt (put { ct := ct, et := et, last := now, red := s.red || bit w2 3 }) (state + 24), true, none)

/-- The filter of stream entry i with its meter (R120): pass, new DEI. -/
def filterOp (d : Dev) (t : Store) (n i len : Nat) (dei : Bool) : Dev × Bool × Option Bool :=
  let w3 := tIn t (streamAddr i + 24)
  let pg := quayPage n 0
  let f0 := filter d i
  let f := { f0 with hits := min ctrMax (f0.hits + 1) }
  let drop (d : Dev) : Dev × Bool × Option Bool := (cnt d pg 0x268 1, false, none)
  if fld w3 0 16 ≠ 0 ∧ fld w3 0 16 < len then
    let d1 := setFilter d i { f with sdu := min ctrMax (f.sdu + 1), blocked := f.blocked || bit w3 16 }
    drop (if bit w3 16 then irq d1 pg 2 else d1)
  else if f.blocked then drop (setFilter d i f)
  else if bit w3 26 then
    let (d1, red, de) := meterOp d t (512 * n + fld w3 17 9) len dei
    if red then drop (setFilter d1 i { f with red := min ctrMax (f.red + 1) })
    else (setFilter d1 i { f with pass := min ctrMax (f.pass + 1) }, true, de)
  else (setFilter d i { f with pass := min ctrMax (f.pass + 1) }, true, none)

/-- Whether a stream entry's filter needs the frame's length (R121). -/
def needsLen (t : Store) (i : Nat) : Bool :=
  let w3 := tIn t (streamAddr i + 24)
  fld w3 0 16 != 0 || bit w3 26

/-! ### FRER (R124, R125) -/

def frerAddr (i : Nat) : Nat := 0x02900000 + i * 64

/-- A counter of a function: 0 PASSED, 1 DISCARDED, 2 OUT_OF_ORDER, 3 ROGUE, 4 LOST. -/
def frerCnt (d : Dev) (i k n : Nat) : Dev :=
  let a := frerAddr i + 24 + k * 8
  if n = 0 then d else twr d a (BitVec.ofNat 64 (min ctrMax ((trd d a).toNat + n)))

/-- A frame passes a function. -/
def frerPass (d : Dev) (i : Nat) : Dev × Bool :=
  let a := frerAddr i + 16
  (frerCnt (twr d a (setFld (trd d a) 32 32 (locMs d))) i 0 1, true)

/-- Zeros among the k oldest bits of a history of length len. -/
def zerosOut (h len k : Nat) : Nat := ((List.range k).filter fun x => len ≤ x || h / 2 ^ (len - 1 - x) % 2 == 0).length

/-- Sequence recovery by function i (802.1CB vector and match recovery): whether the frame passes. A function that is not
valid lets every frame pass untouched. -/
def frerRecover (d : Dev) (n i : Nat) (seq : Option Nat) : Dev × Bool :=
  let a := frerAddr i
  let w0 := trd d a
  if !bit w0 63 then (d, true)
  else match seq with
    | none => if bit w0 25 then frerPass (cnt d (quayPage n 0) 0x270 1) i else (d, false)
    | some s =>
      let len := if fld w0 16 8 < 2 ∨ 64 < fld w0 16 8 then 64 else fld w0 16 8
      let h := (trd d (a + 8)).toNat
      let dl := toSigned 16 (s + 65536 - fld w0 0 16)
      let w1 := setFld w0 0 16 s
      if bit w0 26 then frerPass (twr (twr d a (setBit w1 26 false)) (a + 8) 1) i
      else if bit w0 24 then
        if dl = 0 then (frerCnt d i 1 1, false) else frerPass (frerCnt (twr d a w1) i 2 (if dl = 1 then 0 else 1)) i
      else if (len : Int) ≤ dl ∨ dl ≤ -(len : Int) then (frerCnt d i 3 1, false)
      else if dl ≤ 0 then
        let k := (-dl).toNat
        if h / 2 ^ k % 2 = 1 then (frerCnt d i 1 1, false)
        else frerPass (frerCnt (twr d (a + 8) (BitVec.ofNat 64 (h + 2 ^ k))) i 2 1) i
      else
        let k := dl.toNat
        let d1 := frerCnt (frerCnt d i 4 (zerosOut h len k)) i 2 (if k = 1 then 0 else 1)
        frerPass (twr (twr d1 a w1) (a + 8) (BitVec.ofNat 64 ((h * 2 ^ k + 1) % 2 ^ len))) i

/-- Sequence generation by function i: the number that goes into every egress copy. -/
def frerGenerate (d : Dev) (i : Nat) : Dev × Option Nat :=
  let w0 := trd d (frerAddr i)
  if bit w0 63 then (twr d (frerAddr i) (setFld w0 0 16 ((fld w0 0 16 + 1) % 65536)), some (fld w0 0 16)) else (d, none)

/-- A recovery function resets (R125): TAKE_ANY, HISTORY; counted by the quay of its last decision. RESET_MS must have
passed since the last passed frame; a RESET_MS of 0 is no timeout. -/
def frerResetOp (d : Dev) (i : Nat) : Dev :=
  let a := frerAddr i
  let w2 := trd d (a + 16)
  let ms := fld w2 0 16
  let gone := (locMs d % 2 ^ 32 + 2 ^ 32 - fld w2 32 32) % 2 ^ 32
  if bit (trd d a) 63 ∧ ¬bit (trd d a) 26 ∧ ms ≠ 0 ∧ ms ≤ gone then
    cnt (twr (twr d a (setBit (trd d a) 26 true)) (a + 8) 0) (quayPage (kvD d.frerQ i 0) 0) 0x278 1
  else d

/-! ### Unreachable ports (R25, R77, R253) -/

/-- Whether a port is unreachable in the sense of R77. -/
def unreachable (d : Dev) (p : Nat) : Bool :=
  if p < 26 then !linkIsUp d p
  else if p = 28 then disabled d .ferry || !domUp d 14 || disabled d (macPage 28)
  else disabled d (macPage p)

/-! ### Admission (R126, R172, R175) -/

/-- Key of a service node: port and traffic class. -/
def svcKey (p t : Nat) : Nat := p * 8 + t

/-- The turn of the descriptor of a frame from quay m in the cycle `t` in which it reaches quay n (R30): the copies of quay n's own
frames first (DESIGN CHOICE, log 20), then the other quays in round robin. -/
def xbarTurn (d : Dev) (n m : Nat) (t : Instant) : Nat × Dev :=
  if n = m then (0, d)
  else
    let q := quay d n
    let first := match q.xbar with
      | some (c, f, last) => if c = t then f else (last + 1) % 4
      | none => 0
    let turn (k : Nat) : Nat := 1 + (k + 4 - first) % 4
    let last := match q.xbar with
      | some (c, _, x) => if c = t ∧ turn m < turn x then x else m
      | none => m
    (turn m, setQuay d n { q with xbar := some (t, first, last) })

/-- A copy takes its place in a queue cell: behind those whose descriptors came before its own. -/
def putInOrder (c : Copy) (l : List Copy) : List Copy :=
  let before (x : Copy) : Bool := decide (x.arr < c.arr ∨ (x.arr = c.arr ∧ x.rank ≤ c.rank))
  l.filter before ++ c :: l.filter fun x => !before x

/-- Whether a copy of an earlier generation of a service is still queued (R175). -/
def barred (d : Dev) (p t gen : Nat) : Bool :=
  (queued d (quayOfPort p)).any fun e => e.2.port == p && e.2.tc == t && decide (e.2.svcGen < gen)

/-- A copy admitted to a queue cell under a pool. -/
def pushCopy (d0 : Dev) (qc : Nat) (c0 : Copy) : Dev :=
  let n := quayOfPort c0.port
  let (rank, d) := xbarTurn (cbsSync d0 c0.port) n (quayOfPort c0.ing) c0.arr
  let x := qcell d n qc
  setQcell d n qc { x with copies := putInOrder { c0 with rank := rank } x.copies }

/-- The outcome of an admission: no queue cell, refused, admitted to a cell. -/
inductive Adm where
  | noq | refused
  | done (qc : Nat)
deriving DecidableEq, Repr

/-- The admission of a copy of class t whose charge is given (R126, R172). Refusals count on the egress quay; a copy that earlier
generations of its service hold back counts QUAY_BARRIER_HOLD (R175). -/
def admitCopy (d : Dev) (c : Copy) (t src : Nat) (flow : List Byte) (charge : Nat) : Dev × Adm :=
  let n := quayOfPort c.port
  match placeOf d c.port t src flow with
  | none => (dropEntry (cnt d (quayPage n 1) 0x120 1) c, .noq)
  | some qc =>
    match admitPool d n qc charge with
    | none => (dropEntry (irq (cnt d (quayPage n 0) 0x208 1) (quayPage n 0) 0) c, .refused)
    | some r =>
      let gen := kvD (quay d n).svcGen (svcKey c.port t) 0
      let held := barred d c.port t gen
      (pushCopy (if held then cnt d (quayPage n 1) 0x118 1 else d) qc { c with cells := charge, cell := qc, rsv := r, tc := t, svcGen := gen, heldCnt := held, decNs := locNs d }, .done qc)

/-- Cells charged at the decision point, from the length where it is known (R126). -/
def chargeOf (len : Option Nat) (maxLen : Nat) : Nat := cellCount (len.getD maxLen)

/-- Periods of CLK_FAB by which a delivery to port H, C or the Ferry starts after the egress scheduler has the copy (R137): the 7 of
scheduler and hand-over, and 10 more to the Ferry. A port with a MAC has its own share in the transmission. -/
def deliverTicks (p : Nat) : Nat := if p < 26 then 0 else if p < 28 then 7 else 17

/-- Periods of CLK_FAB between the decision in a quay and the egress scheduler of a port (R29). -/
def crossTicks (n p : Nat) : Nat := if quayOfPort p = n then 0 else 4

end Sys2Proof.Machine
end

