-- ==== Sys2Proof/Machine/Pipeline.lean ====
section
/-! DEFINITION. The quay pipeline (chapter 4): reception of a header (R101), pipeline entry (R102), the decision of an
Ethernet frame, and its tail (R130, R131). A frame that entered in cycle e waits in the pipeline and is decided at its decision
point e + 19 (R105, log 20). -/

namespace Sys2Proof.Machine

/-! ### Reception (R74, R89, R90, R101) -/

/-- Whether a port accepts a frame: its MAC runs, RX_EN, link up, its quay not isolated. -/
def rxAccepts (d : Dev) (p : Nat) : Bool :=
  running d (macPage p) && rb d (macPage p) 0x80 0 && (decide (26 ≤ p) || linkIsUp d p) && !isolated d (quayOfPort p)

/-- The S_NODE test of R89: 0 not classified, 1 UNK_TO, 2 NODE_SA_MISMATCH. -/
def nodeClass (d : Dev) (p : Nat) (f : EthFrame) : Nat :=
  let pg := phyPage p
  let c := ac d pg 0xd8
  let node (k : Nat) : W64 := ac d pg (0x100 + k * 8)
  let sa := beNat (slice f.octets 6 6)
  if portType p != .s || !bit c 42 then 0
  else match f.opportunity with
    | some k =>
      if k = fld (portSt d p).plcaNow 1 8 then 1
      else if !bit (node k) 63 then 1
      else if !bit (node k) 48 && fld (node k) 0 48 != sa then 2 else 0
    | none => if (List.range 32).any (fun k => bit (node k) 63 && fld (node k) 0 48 == sa) then 0 else 2

/-- A classified frame is counted and recorded (R89, R90). Of a frame received in CSMA/CD fall-back, which has no opportunity,
LAST_UNK_TO is 0 (DESIGN CHOICE, log 180). -/
def nodeRecord (d : Dev) (p k : Nat) (f : EthFrame) : Dev :=
  let pg := phyPage p
  if k = 0 then d
  else
    let d1 := cnt d pg (if k = 1 then 0x258 else 0x260) 1
    let d2 := wf (wf d1 pg 0xe0 3 5 (f.opportunity.getD 0)) pg 0xe0 8 48 (beNat (slice f.octets 6 6))
    irq d2 pg 2

/-- The receive timestamp (R215, R217, R218), with the latency values in force at the header. The capture that a header command names is what
the port's time-stamp unit captured, within its accuracy. -/
def rxStamp (d : Dev) (p : Nat) (f : EthFrame) : Option Nat :=
  if p < 26 ∧ rb d (tsPage p) 0x80 0 then
    let x : Int := (f.capture : Int) - (rf d (tsPage p) 0x88 0 32 : Nat)
    let res := (stampGrain d p).1
    some (x / res * res - toSigned 32 (rf d (tsPage p) 0x90 0 32)).toNat
  else none

/-- A frame discarded at its header keeps its place for its tail. -/
def rxGone (d : Dev) (p why : Nat) (f : EthFrame) : Dev :=
  let s := portSt d p
  setPort d p { s with rx := s.rx ++ [{ fid := d.nextFid, octets := f.octets, gone := why, media := f.media }] }

/-- A ready header joins its quay (R102). -/
def pushReady (d : Dev) (h : ReadyHdr) : Dev :=
  let n := quayOfPort h.port
  setQuay d n { quay d n with ready := (quay d n).ready ++ [h] }

/-- When a presentation of port 26, 27 or 28 that could be made at an instant is ready: 4 cycles later (R102), and kept apart
from the port's other presentations by the spacing of R104. -/
def presSlot (d : Dev) (p : Nat) (t : Instant) : Instant :=
  let gap := if p = 26 then 20 else 16
  let q := quay d 3
  let used := (q.ready.filter (·.port == p)).map (·.ready) ++ (kvGet q.lastPres p).toList
  (List.range used.length).foldl (fun r _ => match used.find? fun u => decide (r < u + gap ∧ u < r + gap) with
    | some u => u + gap
    | none => r) (t + 4)

/-- A frame of port 26 or 27 is presented and counted. -/
def present (d : Dev) (h : ReadyHdr) : Dev :=
  let d1 := cnt (cnt d (macPage h.port) 0x100 (h.frame.octets.length + 4)) (macPage h.port) 0x108 1
  pushReady { d1 with nextFid := d.nextFid + 1 } { h with fid := d.nextFid, ready := presSlot d h.port d.now }

/-- The counters of a port's medium (Tables 3.6, 3.11): the FEC of B and M ports, the blocks of B, M and G ports, wrong SMDs. -/
def mediaCount (d : Dev) (p : Nat) (x : Media) : Dev :=
  let ph := phyPage p
  let d1 := if portType p = .b ∨ portType p = .m then cnt (cnt d ph 0x228 x.fecCorrected) ph 0x230 x.fecLost else d
  if portType p = .s then d1 else cnt (cnt d1 ph 0x238 x.blockErr) (macPage p) 0x138 x.smdErr

/-- A header window is complete, or ports 26 and 27 present a frame (R101). Only the Ferry presents on port 28. -/
def headerOp (d : Dev) (p : Nat) (f : EthFrame) : Dev :=
  if p = 28 ∨ !rxAccepts d p then d
  else if 26 ≤ p then present d { fid := 0, port := p, ready := 0, frame := f }
  else headerIn (mediaCount d p f.media) p f
where
  /-- A frame that a MAC accepts (R74, R89, R90, R101). -/
  headerIn (d : Dev) (p : Nat) (f : EthFrame) : Dev :=
  if ab d (macPage p) 0x80 5 ∧ !f.preambleOk then cnt (rxGone d p 1 f) (macPage p) 0x128 1
  else if f.octets.length + 4 < 64 then cnt (rxGone d p 1 f) (macPage p) 0x118 1
  else
    match macsecHead d p f.octets with
    | (none, d1) => rxGone d1 p 2 f
    | (some plain, d1) =>
      let g : EthFrame := { f with octets := plain }
      let k := nodeClass d1 p g
      let d2 := nodeRecord d1 p k g
      if k ≠ 0 ∧ ab d2 (phyPage p) 0xd8 41 then rxGone d2 p 1 f
      else
        let s := portSt d2 p
        let r : RxFrame := { fid := d2.nextFid, octets := f.octets, preempt := f.preemptable && mergeActive d2 p,
                             len := plain.length + 4, media := f.media }
        let d3 := setPort { d2 with nextFid := d2.nextFid + 1 } p { s with rx := s.rx ++ [r] }
        pushReady d3 { fid := r.fid, port := p, ready := d.now + 4 + (if macsecRxForce d2 p then 12 else 0), frame := g,
                       unknown := k != 0, stamp := rxStamp d p f }

/-! ### What every copy of a decided frame shares -/

/-- A frame at its decision point. `len`: the length of R121 where one is known. `pos`: octets of the frame. -/
structure Plan where
  fid    : Nat
  n      : Nat
  p      : Nat
  e      : Instant
  octets : List Byte
  parsed : Parsed
  cfg    : ParseCfg
  vid    : Nat
  pcp    : Nat
  dei    : Bool
  fwdVid : Nat
  fwdPcp : Nat
  newDa  : Option Nat := none
  pop    : Bool := false
  seq    : Option Nat := none
  len    : Option Nat
  whole  : Bool
  cutOk  : Bool
  maxLen : Nat
  sz     : Nat
  info   : RxMeta
  tsId   : Option Nat

/-- The octets of the copy for a port that leaves it untagged or not (R118, R125, R144). -/
def Plan.copyOctets (x : Plan) (untag : Bool) : List Byte :=
  let a := match x.newDa with | some da => Machine.newDa da x.octets | none => x.octets
  let b := retag x.cfg x.parsed untag x.fwdVid x.fwdPcp x.dei a
  let c := if x.pop then popRtag x.cfg b else b
  match x.seq with | some s => pushRtag x.cfg s c | none => c

/-- The flow bytes of a frame for SUB_SEL 2; of a presentation of the Ferry, the index of its source endpoint (R172). -/
def Plan.flow (x : Plan) : List Byte := if x.p = 28 then [BitVec.ofNat 8 x.info.src] else x.parsed.flowBytes x.octets x.vid

/-- A copy with given octets for a port. -/
def Plan.copy (x : Plan) (port : Nat) (octets : List Byte) (tagged : Bool) : Copy :=
  { fid := x.fid, ing := x.p, port := port, octets := octets, maxLen := x.maxLen,
    len := x.len.map fun l => l + (octets.length - (if x.seq.isSome then 6 else 0)) - x.octets.length,
    tail := x.whole, arr := x.e + 19 + crossTicks x.n port, eligAt := x.e + 19 + crossTicks x.n port + deliverTicks port, tsId := x.tsId, rtag := x.seq.isSome,
    etype := x.parsed.etype, info := { x.info with tagged := tagged } }

/-- Whether a copy for a port and class would be forwarded cut-through (R129), conditions 2 to 5: the gate must
accept the copy (R183). -/
def cutTest (d : Dev) (x : Plan) (c : Copy) (port t : Nat) : Bool :=
  x.cutOk && decide (port < 26) && ab d (macPage port) 0x80 3
    && decide (rf d (macPage port) 0xb8 1 4 ≤ rf d (macPage x.p) 0xb8 1 4)
    && gateAdmits d t c
    && (match placeOf d port t x.info.src x.flow with
        | some qc => (qcell d (quayOfPort port) qc).copies == []
        | none => false)

/-- A copy is forwarded cut-through or store-and-forward (R129); frames of the internal ports are neither (R40). -/
def countPath (d : Dev) (x : Plan) (port : Nat) (cut : Bool) : Dev :=
  if x.p < 26 then cnt d (quayPage (quayOfPort port) 0) (if cut then 0x228 else 0x230) 1 else d

/-- One forwarded copy: its class, cut-through or not, and its admission (R126, R129, R172). -/
def sendCopy (d : Dev) (x : Plan) (untagMask port : Nat) : Dev :=
  let untag := untagMask / 2 ^ port % 2 == 1
  let c := x.copy port (x.copyOctets untag) (!untag)
  match tcOf d port x.fwdPcp with
  | none => cnt d (quayPage (quayOfPort port) 1) 0x120 1
  | some t =>
    let cut := cutTest d x c port t
    match admitCopy d { c with cut := cut } t x.info.src x.flow (chargeOf x.len x.maxLen) with
    | (d1, .done _) => countPath d1 x port cut
    | (d1, _) => d1

/-- The quarantine copy for port H (R162): class 0, tagged as every copy that leaves port 26 (R144, R324), cut to 128 octets with TRUNC. -/
def sendQuar (d : Dev) (x : Plan) (untagMask : Nat) (a : Action) (dz : Nat) : Dev :=
  let lost (d : Dev) : Dev := cnt d (.bwt 0) 0x118 1
  if unreachable d 26 || isolated d 3 then lost d
  else if (tcOf d 26 x.fwdPcp).isNone then lost (cnt d (quayPage 3 1) 0x120 1)
  else
    let untag := untagMask / 2 ^ 26 % 2 == 1
    let o0 := { x with seq := none, pop := false }.copyOctets untag
    let o := if ab d (.bwt 0) 0x98 4 then o0.take 128 else o0
    let c0 := x.copy 26 o (!untag)
    let c : Copy := { c0 with rtag := false, tsId := none, len := if x.whole then some (o.length + 4) else x.len,
                              info := { c0.info with quar := true, rule := a.fromRule, dstZone := dz } }
    match admitCopy d c 0 x.info.src x.flow (chargeOf x.len x.maxLen) with
    | (d1, .done _) => countPath d1 x 26 false
    | (d1, _) => lost d1

/-- A mirror copy under session s (R163). -/
def sendMirror (d : Dev) (x : Plan) (s : Nat) : Dev :=
  let w := trd d (0x03804000 + s * 16)
  let port := fld w 0 6
  if !bit w 63 || decide (28 < port) then d
  else
    let lost (d : Dev) : Dev := cnt d (.bwt 0) 0x120 1
    if unreachable d port || isolated d (quayOfPort port) then lost d
    else
      let o0 := if bit w 7 then addTag 0x8100 (fld w 8 12) (fld w 20 3) false x.octets else x.octets
      let o := if bit w 6 then o0.take 128 else o0
      let c0 := x.copy port o (bit w 7 || !x.parsed.tags.isEmpty)
      let c : Copy := { c0 with rtag := false, tsId := none, len := if x.whole then some (o.length + 4) else x.len,
                                info := { c0.info with mirror := true } }
      match tcOf d port (fld w 20 3) with
      | none => lost (cnt d (quayPage (quayOfPort port) 1) 0x120 1)
      | some t =>
        match admitCopy d c t x.info.src x.flow (chargeOf x.len x.maxLen) with
        | (d1, .done _) => countPath d1 x port false
        | (d1, _) => lost d1

/-! ### The tail (R121, R130, R131) -/

/-- Whether a copy belongs to a frame's forwarded copies. -/
def Copy.isFwd (c : Copy) : Bool := !c.info.quar && !c.info.mirror

/-- The copies of a frame that a test selects are freed in every quay. -/
def freeCopies (d : Dev) (fid : Nat) (sel : Copy → Bool) : Dev :=
  [0, 1, 2, 3].foldl (fun d n => takeCopies d n (fun c => c.fid == fid && sel c) freeCopy) d

/-- The DEI bit of the outer tag of a copy's octets. -/
def deiOctets (b : Bool) (l : List Byte) : List Byte :=
  let x := octetAt l 14
  l.take 14 ++ [BitVec.ofNat 8 (x / 32 * 32 + b.toNat * 16 + x % 16)] ++ l.drop 15

/-- A meter's DEI goes into the tagged forwarded copies of a frame. -/
def setDei (d : Dev) (fid : Nat) (sel : Copy → Bool) (b : Option Bool) : Dev :=
  match b with
  | none => d
  | some x =>
    [0, 1, 2, 3].foldl (fun d n => mapCopies d n fun c =>
      if c.fid == fid && c.isFwd && c.info.tagged && sel c then { c with octets := deiOctets x c.octets } else c) d

/-- Breakwater meters by destination: each meter acts once, and its red drops the copies that name it (R151). -/
def metersOp (d : Dev) (t : Store) (n len : Nat) (dei : Bool) (ms : List (Nat × Nat)) : Dev × List Nat × List (Nat × Bool) :=
  ((ms.map (·.2)).eraseDups).foldl (fun (acc : Dev × List Nat × List (Nat × Bool)) m =>
    let (d1, red, de) := meterOp acc.1 t (512 * n + m) len dei
    let ports := (ms.filter (·.2 == m)).map (·.1)
    (d1, if red then acc.2.1 ++ ports else acc.2.1,
      acc.2.2 ++ (match de with | some b => ports.map (fun p => (p, b)) | none => []))) (d, [], [])

/-- A cut-through copy that a port sends stomped is counted (R131). -/
def countStomp (d : Dev) (p : Nat) : Dev := cnt (cnt d (quayPage (quayOfPort p) 0) 0x238 1) (macPage p) 0x190 1

/-- A cut-through copy is ended by the egress MAC with an inverted FCS (R131): one in transmission is counted at once, one that still
waits in its queue cell when its transmission starts. -/
def stompFid (d : Dev) (fid : Nat) : Dev :=
  let hit (c : Copy) : Bool := c.fid == fid && c.cut && !c.tail && !c.bad
  let ended (c : Copy) : Copy := if hit c then { c with bad := true, tail := true } else c
  let d1 := (d.tx ++ d.susp).foldl (fun d e => if hit e.2.copy then countStomp d e.1 else d) d
  let mark (l : List (Nat × TxFrame)) : List (Nat × TxFrame) := l.map fun e => (e.1, { e.2 with copy := ended e.2.copy })
  [0, 1, 2, 3].foldl (fun d k => mapCopies d k ended) { d1 with tx := mark d1.tx, susp := mark d1.susp }

/-- A frame ends badly (R131): its cut-through copies are stomped, its other queued copies freed. -/
def endBadly (d : Dev) (fid : Nat) : Dev := freeCopies (stompFid d fid) fid (fun c => !c.bad)

/-- A frame ends well: deferred filter and meters (R121), then its copies, in transmission too, have their tail, their length and the
cells actually used (R126). -/
def endWell (d : Dev) (p : Nat) (r : RxFrame) : Dev :=
  let n := quayOfPort p
  let t := (viewOf d r.epoch).tbl
  let (d1, pass, de) := match r.defer with
    | some i => filterOp d t n i r.len r.dei
    | none => (d, true, none)
  let d2 := if pass then setDei d1 r.fid (fun _ => true) de else freeCopies d1 r.fid Copy.isFwd
  let (d3, red, des) := if pass then metersOp d2 t n r.len (de.getD r.dei) r.meters else (d2, [], [])
  let d4 := freeCopies d3 r.fid (fun c => c.isFwd && red.contains c.port)
  let d5 := des.foldl (fun d x => setDei d r.fid (fun c => c.port == x.1) (some x.2)) d4
  let lag := 5 + (if macsecRxForce d p then 12 else 0)
  let done (c : Copy) : Copy :=
    if c.fid = r.fid ∧ !c.tail then
      { c with tail := true, len := some (c.octets.length + 4 - (if c.rtag then 6 else 0)), cells := cellCount r.len,
               eligAt := if c.cut then c.eligAt else max c.eligAt (r.tailAt + lag + crossTicks n c.port + deliverTicks c.port) }
    else c
  let d6 := [0, 1, 2, 3].foldl (fun d k => mapCopies d k done) d5
  let fin (l : List (Nat × TxFrame)) : List (Nat × TxFrame) := l.map fun e => (e.1, { e.2 with copy := done e.2.copy })
  { d6 with tx := fin d6.tx, susp := fin d6.susp }

/-- A decided frame whose tail has arrived (R131). -/
def settleFrame (d : Dev) (p : Nat) (r : RxFrame) (ok : Bool) : Dev :=
  let pg := quayPage (quayOfPort p) 0
  let mism := match r.derived with | some l => l != r.len | none => false
  let d1 := if mism then irq (cnt d pg 0x288 1) pg 3 else d
  if ok && !mism then endWell d1 p r else endBadly d1 r.fid

/-- The frame in reception whose tail is next: the one that came last and has no tail yet. -/
def inReception (s : PortSt) : Option RxFrame := (s.rx.reverse).find? (fun r => r.tailed == none)

/-- A frame leaves the receiver's list. -/
def rxDrop (d : Dev) (p fid : Nat) : Dev :=
  let s := portSt d p
  setPort d p { s with rx := s.rx.filter (·.fid != fid) }

/-- A frame in the receiver's list changes. -/
def rxPut (d : Dev) (p : Nat) (r : RxFrame) : Dev :=
  let s := portSt d p
  setPort d p { s with rx := s.rx.map fun x => if x.fid = r.fid then r else x }

/-- Counter of a good frame's size (Table 3.6). -/
def sizeCnt (len : Nat) : Nat :=
  if len ≤ 64 then 0x150 else if len ≤ 127 then 0x158 else if len ≤ 255 then 0x160 else if len ≤ 511 then 0x168
  else if len ≤ 1023 then 0x170 else if len ≤ 1522 then 0x178 else 0x1d0

/-- The MAC's judgement of a frame from DA to FCS of a length: counters, and whether it is good (R74). -/
def macTail (d : Dev) (p len : Nat) (fcsOk : Bool) : Dev × Bool :=
  let pg := macPage p
  if af d pg 0x90 0 14 < len then (cnt d pg 0x120 1, false)
  else if !fcsOk then (cnt d pg 0x110 1, false)
  else (cnt (cnt (cnt d pg 0x100 len) pg 0x108 1) pg (sizeCnt len) 1, true)

/-- The last octet of the frame in reception has arrived (R130, R131). -/
def tailOp (d : Dev) (p : Nat) (fcsOk : Bool) : Dev :=
  match inReception (portSt d p) with
  | none => d
  | some r =>
    if r.gone = 1 then rxDrop d p r.fid
    else
      let d1 := if r.preempt then cnt d (macPage p) 0x148 r.media.frags else d
      let (d2, good) := if r.preempt && r.media.asmErr != 0 then (cnt d1 (macPage p) 0x140 r.media.asmErr, false)
        else macTail d1 p (r.octets.length + 4) fcsOk
      if r.gone = 2 then rxDrop d2 p r.fid
      else
        let (ok, d3) := if good then macsecTail d2 p r.octets else (false, d2)
        let r1 := { r with tailed := some ok, tailAt := d.now }
        if r.decided then settleFrame (rxDrop d3 p r.fid) p r1 ok else rxPut d3 p r1

/-! ### The decision of an Ethernet frame -/

/-- The destinations of a frame after membership and reachability (R25, R77, R112, R144): a frame whose reachable destinations all lie
in isolated quays counts QUAY_ISO_DROP. -/
def reachSet (d : Dev) (n p member : Nat) (o : DaOut) : Dev × List Nat :=
  let pg := quayPage n 0
  let inVlan := o.dests.filter fun x => member / 2 ^ x % 2 == 1
  let d1 := if o.hit && inVlan != o.dests then cnt d pg 0x210 1 else d
  let all := inVlan.filter (· != p)
  let live := all.filter fun x => !unreachable d x
  let reach := live.filter fun x => !isolated d (quayOfPort x)
  if live ≠ [] then (if reach = [] then cnt d1 pg 0x200 1 else d1, reach)
  else match all with
    | [x] => (cnt d1 (macPage x) 0x198 1, [])
    | _ => (d1, [])

/-- The tap verdict (R258): FWD where a copy is FWD, QUAR where none is and one is QUAR, else DROP. -/
def tapVerdict (acts : List (Nat × Action)) : Nat :=
  if acts.any (fun a => a.2.verdict == 0) then 0 else if acts.any (fun a => a.2.verdict == 2) then 2 else 1

/-- Quarantine and mirror copies of a frame (R162, R163). -/
def sideMore (d : Dev) (x : Plan) (untagMask : Nat) (acts : List (Nat × Action)) (zone : Nat → Nat) : Dev :=
  let d1 := match acts.find? (fun a => a.2.verdict == 2) with
    | some (p, a) => sendQuar d x untagMask a (zone p)
    | none => d
  match acts.findSome? (fun a => a.2.mirror) with
  | some s => sendMirror d1 x s
  | none => d1

/-- The tap of a frame whose WITNESS action is set (R160, R258), with what it carries. -/
def sendTap (d : Dev) (acts : List (Nat × Action)) (tp : Tap) : Dev :=
  match acts.find? (fun a => a.2.witness.isSome) with
  | some (_, a) =>
    let times := (List.range 5).map (timeOf d)
    let syncs := (List.range 5).map (syncOf d)
    { d with tapQ := d.tapQ ++ [{ tp with wtag := a.witness.getD 0, verdict := tapVerdict acts, times := times, syncs := syncs }] }
  | none => d

/-- What the frame leaves beside its forwarded copies (R151, R160, R162, R163): taps, mirror and quarantine copies. -/
def sideCopies (d : Dev) (x : Plan) (untagMask : Nat) (o : BwOut) (zone : Nat → Nat) : Dev :=
  let pctl := mkWord [(0, x.cfg.extra), (16, x.cfg.rtag.toNat), (17, x.cfg.v6ext.toNat)]
  let tp : Tap := { wtag := 0, verdict := 0, src := x.info.src, octets := x.octets, kind := x.parsed.kind, pctl := pctl,
                    epoch := x.info.epoch }
  sideMore (sendTap d o.acts tp) x untagMask o.acts zone

/-- The forwarded copies of a frame: filter, FRER, meters, admission (R120 to R129, R151). -/
def forward (d : Dev) (vw : View) (x : Plan) (stream : Option Nat) (untagMask : Nat) (acts : List (Nat × Action)) : Dev :=
  let fwd := acts.filter fun a => a.2.verdict == 0
  if fwd = [] then d
  else
    let meters := fwd.filterMap fun a => a.2.meter.map fun m => (a.1, m)
    let deferF : Option Nat := match stream with
      | some i => if x.len.isNone && needsLen vw.tbl i then some i else none
      | none => none
    let deferM := if x.len.isNone then meters else []
    let (d1, pass, de) := match stream, x.len with
      | some i, some l => filterOp d vw.tbl x.n i l x.dei
      | some i, none => if deferF.isSome then (d, true, none) else filterOp d vw.tbl x.n i 0 x.dei
      | none, _ => (d, true, none)
    let (d2, red, des) := if pass ∧ deferM = [] then metersOp d1 vw.tbl x.n (x.len.getD 0) (de.getD x.dei) meters else (d1, [], [])
    let w2 := match stream with | some i => tIn vw.tbl (streamAddr i + 16) | none => 0
    let fn := fld w2 48 10
    let left := fwd.filter fun a => !red.contains a.1
    if !pass || left.isEmpty then d2
    else
      let (d3, ok) := if bit w2 58 then frerRecover { d2 with frerQ := kvPut d2.frerQ fn x.n } x.n fn x.parsed.rtag else (d2, true)
      if !ok then d3
      else
        let (d4, seq) := if bit w2 59 then frerGenerate d3 fn else (d3, none)
        let w0 := match stream with | some i => tIn vw.tbl (streamAddr i) | none => 0
        let x1 := { x with seq := seq, pop := bit w2 60 && bit w0 63, dei := de.getD x.dei,
                           cutOk := x.cutOk && deferF.isNone && deferM.isEmpty }
        let d5 := left.foldl (fun d a =>
          let dei := match des.find? (·.1 == a.1) with | some y => y.2 | none => x1.dei
          sendCopy d { x1 with dei := dei } untagMask a.1) d4
        match (portSt d5 x.p).rx.find? (·.fid == x.fid) with
        | some r => rxPut d5 x.p { r with defer := deferF, meters := deferM, dei := x.dei }
        | none => d5

/-- What a decided frame was: the receiver keeps it until its tail, or its tail is there already. -/
def markDecided (d : Dev) (p fid epoch : Nat) (derived : Option Nat) : Dev :=
  match (portSt d p).rx.find? (·.fid == fid) with
  | none => d
  | some r =>
    let r1 := { r with decided := true, derived := derived, epoch := epoch }
    match r.tailed with
    | none => rxPut d p r1
    | some ok => settleFrame (rxDrop d p fid) p r1 ok

/-- The decision, at its decision point, of the frame of a header that entered quay n at e: parser, classification, keep-alives (R288,
whatever the verdict), lookups, Breakwater, copies. The SA lookup acts, and learns, also for a frame that membership, zone or its lookups then drop (DESIGN CHOICE, log 176). -/
def decideEth (d : Dev) (n : Nat) (e : Instant) (h : ReadyHdr) : Dev :=
  let vw := curView d
  let p := h.port
  let pg := quayPage n 0
  let l := h.frame.octets
  let cfgP := portCfg d vw p
  let cfg := parseCfg (let w := va d vw pg 0x80; if fld w 0 16 = 0x8100 ∨ fld w 0 16 = 0x88A8 then setFld w 0 16 0 else w)
  let pa := parse l cfg
  let d1 := if pa.trunc then cnt d pg 0x218 1 else d
  let d2 := if pa.err then cnt d1 pg 0x220 1 else d1
  let vdrop (d : Dev) : Dev := cnt d pg 0x210 1
  match classify cfgP pa with
  | none => vdrop d2
  | some (vid, pcp) =>
    let seen := tableAt d2 (e + 9)
    let d2 := kaNote d2 (kaOfEth d2 p vid (if pa.l4 && pa.proto == 17 then some pa.dport else none))
    let (d3, sa) := saLookup d2 e seen n p vid pa.sa cfgP.learn
    match vlanEntry vw.tbl vid with
    | none => vdrop d3
    | some (member, _, _) =>
      if member / 2 ^ p % 2 = 0 then vdrop d3
      else
        match zoneOf vw.tbl p vid with
        | none => cnt d3 (.bwt 0) 0x128 1
        | some sz =>
          if sa.drop || (sa.miss && cfgP.learn == 2) then vdrop d3
          else
            let stream := streamFind vw.tbl n vid pa
            let w0 := match stream with | some i => tIn vw.tbl (streamAddr i) | none => 0
            let w1 := match stream with | some i => tIn vw.tbl (streamAddr i + 8) | none => 0
            let active := stream.isSome && fld w0 60 3 == 2
            let fVid := if active then fld w1 48 12 else vid
            let fPcp := if active && bit w1 63 then fld w1 60 3 else pcp
            let fDa := if active then fld w1 0 48 else pa.da
            match vlanEntry vw.tbl fVid with
            | none => vdrop d3
            | some (fMember, untagMask, _) =>
              let o := daLookup seen fVid fDa fMember
              if o.drop then vdrop d3
              else
                let d4 := if o.flood then cnt d3 pg 0x240 1 else d3
                let (d5, dests) := reachSet d4 n p fMember o
                let rx := (portSt d p).rx.find? (·.fid == h.fid)
                let whole := decide (26 ≤ p)
                let len : Option Nat := if whole then some (l.length + 4) else pa.derivedLen
                let x : Plan :=
                  { fid := h.fid, n := n, p := p, e := e, octets := l, parsed := pa, cfg := cfg, vid := vid, pcp := pcp,
                    dei := (match pa.outer with | some (_, _, b) => b | none => false),
                    fwdVid := fVid, fwdPcp := fPcp, newDa := if active then some fDa else none, len := len, whole := whole,
                    cutOk := !whole && bit (va d vw pg 0x88) 0 && ab d (macPage p) 0x80 2 && !macsecRxForce d p
                      && !(match rx with | some r => r.preempt | none => false),
                    maxLen := if whole then l.length + 4 else af d (macPage p) 0x90 0 14, sz := sz,
                    info := { ts := h.stamp, src := p, pcp := pcp, unknown := h.unknown, vid := vid, srcZone := sz,
                              epoch := vw.epoch },
                    tsId := h.tsId }
                let subj : Subject :=
                  { kind := pa.kind, src := p, srcZone := sz, pcp := pcp, vid := vid,
                    flags := pa.flagBits h.unknown sa.mismatch, stream := stream, body := pa.keyBody l }
                let (d6, out) := breakwater d5 { q := n, vw := vw, subj := subj, parsed := some pa, dests := dests,
                                                 len := len.getD 0, e := e }
                let d7 := forward d6 vw x stream untagMask out.acts
                let zone (y : Nat) : Nat := (zoneOf vw.tbl y vid).getD 63
                markDecided (sideCopies d7 x untagMask out zone) p h.fid vw.epoch (if whole then none else pa.derivedLen)

/-- The next ready header of a quay: the earliest, in ascending port number (R102). -/
def nextReady (q : Quay) : Option ReadyHdr :=
  q.ready.foldl (fun m h => match m with
    | none => some h
    | some x => if h.ready < x.ready ∨ (h.ready = x.ready ∧ h.port < x.port) then some h else m) none

/-- The cycle in which a ready header enters its quay (R102): at its readiness, and at least 2 cycles after the last entry. -/
def entryCycle (d : Dev) (n : Nat) (h : ReadyHdr) : Instant :=
  match (quay d n).lastEnt with
  | some x => max h.ready (x + 2)
  | none => h.ready

/-- A header leaves the ready list and enters the pipeline at e: the entry wait is recorded (R102, R103). -/
def admitHeader (d : Dev) (n : Nat) (e : Instant) (h : ReadyHdr) : Dev :=
  let q := quay d n
  let wait := e - h.ready
  let last := if 26 ≤ h.port then kvPut q.lastPres h.port h.ready else q.lastPres
  let d1 := setQuay d n { q with ready := q.ready.filter (·.fid != h.fid), pipe := q.pipe ++ [(e, h)], lastEnt := some e, lastPres := last }
  if (rd d (quayPage n 0) 0x280).toNat < wait then wr d1 (quayPage n 0) 0x280 (BitVec.ofNat 64 wait) else d1

/-- Whether the next header of a quay has entered by now: the cycle of its entry has come, and the quay runs. -/
def canEnter (d : Dev) (n : Nat) : Bool :=
  let q := quay d n
  match nextReady q with
  | none => false
  | some h =>
    decide (entryCycle d n h ≤ d.now) && running d (quayPage n 0) && !isolated d n

/-- The decision of an Ethernet frame's header that entered at e, undecided frames that the link lost excepted (R78). -/
def decidedEth (d : Dev) (n : Nat) (e : Instant) (h : ReadyHdr) : Dev :=
  if h.port < 26 ∧ ((portSt d h.port).rx.find? (·.fid == h.fid)).isNone then d
  else
    let d2 := decideEth d n e h
    if h.port < 26 then
      match (portSt d2 h.port).rx.find? (·.fid == h.fid) with
      | some r => if r.decided then d2 else markDecided d2 h.port h.fid d.epoch none
      | none => d2
    else d2

end Sys2Proof.Machine
end

