-- ==== Sys2Proof/Machine/Egress.lean ====
section
/-! DEFINITION. Egress (chapter 6): selection (R176, R177), weighted fair queuing (R178), preemption (R132, R133), the
transmission of a copy and its end, gate events (R182, R185), EEE (R93, R94), sampling (R196 to R198). -/

namespace Sys2Proof.Machine

/-! ### Queue cells as the scheduler sees them -/

/-- The cells of a port whose head copy is of class t, in ascending order (R170, R173). -/
def classCells (d : Dev) (p t : Nat) : List Nat :=
  (quay d (quayOfPort p)).qcells.filterMap fun e => match e.2.copies with
    | c :: _ => if c.port = p ∧ c.tc = t then some e.1 else none
    | [] => none

/-- The weight of a cell: a cell that is not valid keeps the weight it had at its switch (R175). -/
def weightOf (d : Dev) (n i : Nat) : Nat :=
  let w := hier d n i 2
  max 1 (if bit w 63 then fld w 0 16 else (qcell d n i).weight)

/-- Whether an element's shaper lets it be selected: SHAPER and SHAPER_EN at given bits of its word 2. -/
def elemOk (d : Dev) (n elem lo en : Nat) : Bool :=
  let w := hier d n elem 2
  if bit w 63 && bit w en then shaperOk d n (fld w lo 11) else true

/-- Whether the barrier of R175 holds a copy: an earlier generation of its service is still queued. -/
def barrier (d : Dev) (c : Copy) : Bool := barred d c.port c.tc c.svcGen

/-- Whether a head copy is eligible under R130 and R175. -/
def headReady (d : Dev) (c : Copy) : Bool := decide (c.eligAt ≤ d.now) && (c.cut || c.tail) && !barrier d c

/-- Whether a cell with a head copy is eligible (R177). -/
def cellOk (d : Dev) (i : Nat) (c : Copy) : Bool :=
  headReady d c && elemOk d (quayOfPort c.port) i 16 27 && gateAdmits d c.tc c

/-- The length of a copy for its finish tag (R178). -/
def tagLen (c : Copy) : Nat := c.len.getD c.maxLen

/-- The increment of a finish tag. -/
def tagStep (d : Dev) (n i : Nat) (c : Copy) : Nat :=
  let w := weightOf d n i
  (tagLen c * 65536 + w - 1) / w

/-- Copies at the head of a cell that can never fit their gate are dropped (R184); `k` bounds the copies. -/
def dropOversize (d : Dev) (n i : Nat) : Nat → Dev
  | 0 => d
  | k + 1 =>
    match (qcell d n i).copies with
    | c :: l =>
      if c.port < 27 ∧ headReady d c ∧ neverFits d c.tc c then
        let (pg, o) := gatePg c.port
        let d1 := setQcell d n i { qcell d n i with copies := l }
        dropOversize (freeCopy (gateIrq (cnt d1 pg (o + 0x38) 1) c.port 2) c) n i k
      else d
    | [] => d

/-- One cell looked at (R178): a cell that becomes eligible takes its tag from V. -/
def lookCell (d0 : Dev) (n i : Nat) : Dev :=
  let d := dropOversize d0 n i (qcell d0 n i).copies.length
  let x := qcell d n i
  match x.copies with
  | [] => setQcell d n i { x with elig := false }
  | c :: _ =>
    if !cellOk d i c then setQcell d n i { x with elig := false }
    else if x.elig then d
    else
      let v := kvD (quay d n).vtime (svcKey c.port c.tc) 0
      setQcell d n i { x with elig := true, tag := (v + tagStep d n i c) % 2 ^ 32 }

/-- Every cell of a port looked at. -/
def lookPort (d : Dev) (p : Nat) : Dev :=
  let n := quayOfPort p
  let cells := (quay d n).qcells.filterMap fun e => match e.2.copies with
    | c :: _ => if c.port = p then some e.1 else none
    | [] => none
  cells.foldl (fun d i => lookCell d n i) d

/-- Whether a precedes b in serial-number arithmetic (R178). -/
def precedes (a b : Nat) : Bool :=
  let k := (b + 2 ^ 32 - a) % 2 ^ 32
  decide (1 ≤ k ∧ k < 2 ^ 31)

/-- The eligible cell of a class with the smallest tag, the lowest index on equal tags (R178). -/
def bestCell (d : Dev) (p t : Nat) : Option Nat :=
  let n := quayOfPort p
  ((classCells d p t).filter fun i => (qcell d n i).elig).foldl (fun m i => match m with
    | none => some i
    | some j => if precedes (qcell d n i).tag (qcell d n j).tag then some i else some j) none

/-- Whether a class of a port may be selected: service shaper and credit (R177). -/
def classOk (d : Dev) (p t : Nat) : Bool :=
  elemOk d (quayOfPort p) (512 + svcOf p t) 21 32 && cbsOk d p t

/-- The selection of a port among the classes that a test lets through (R177): class and cell. -/
def pick (d : Dev) (p : Nat) (ok : Nat → Bool) : Option (Nat × Nat) :=
  if !elemOk d (quayOfPort p) (640 + slotOfPort p) 0 11 then none
  else [7, 6, 5, 4, 3, 2, 1, 0].findSome? fun t =>
    if ok t && classOk d p t then (bestCell d p t).map fun i => (t, i) else none

/-- The queue cells of a quay under a shaper that is not eligible stop being eligible (R178). -/
def shaperHolds (d : Dev) (n s : Nat) : Dev :=
  if shaperOk d n s then d
  else
    let q := quay d n
    let under (i : Nat) : Bool := let w := hier d n i 2; bit w 63 && bit w 27 && fld w 16 11 == s
    setQuay d n { q with qcells := q.qcells.map fun e => if under e.1 then (e.1, { e.2 with elig := false }) else e }

/-- The shapers on a copy's path: cell, service node, port node, each charged (R177, R191). -/
def chargePath (d : Dev) (p t i len : Nat) : Dev :=
  let n := quayOfPort p
  let one (d : Dev) (elem lo en : Nat) : Dev :=
    let w := hier d n elem 2
    if bit w 63 && bit w en then shaperHolds (chargeShaper d n (fld w lo 11) len) n (fld w lo 11) else d
  one (one (one d i 16 27) (512 + svcOf p t) 21 32) (640 + slotOfPort p) 0 11

/-- The head of a cell is taken: V, charges, the tag of the next head (R178). -/
def takeHead (d : Dev) (p t i : Nat) : Dev × Option Copy :=
  let n := quayOfPort p
  let x := qcell d n i
  match x.copies with
  | [] => (d, none)
  | c :: l =>
    let d0 := cbsSync d p
    let q := quay d0 n
    let d1 := setQuay d0 n { q with vtime := kvPut q.vtime (svcKey p t) x.tag }
    let d2 := setQcell (chargePath d1 p t i (tagLen c)) n i { x with copies := l, elig := false }
    match l with
    | c2 :: _ =>
      if cellOk d2 i c2 ∧ c2.port = p ∧ c2.tc = t then
        (setQcell d2 n i { x with copies := l, elig := true, tag := (x.tag + tagStep d2 n i c2) % 2 ^ 32 }, some c)
      else (d2, some c)
    | [] => (d2, some c)

/-! ### Transmission (R176, R219) -/

/-- Periods of CLK_FAB from a selection to the first preamble bit (R176). -/
def leadTicks (d : Dev) (p : Nat) : Nat := if macsecTxOn d p then 19 else 7

/-- Local time at an instant at or before now. -/
def locAt (d : Dev) (t : Instant) : Nat := locNow d - (d.now - t) * (tsStep / 4)

/-- The transmit timestamp of a frame that started at an instant (R215): the octet after the SFD, 8 octets on, with the latency values in
force. It is off by an error that the device does not state, within the accuracy of Table 7.7, and has the resolution of that table: the
error is a free value (log 190). -/
def txStamp (d : Dev) (p : Nat) (start : Instant) : Nat × Dev :=
  let (k, d1) := freeNat d
  let (res, acc) := stampGrain d p
  let x : Int := (locAt d start : Int) + octetTime d p 8 + (rf d (tsPage p) 0x88 32 32 : Nat) + (k % (2 * acc + 1) : Nat) - acc
  ((x / res * res + toSigned 32 (rf d (tsPage p) 0x90 32 32)).toNat, d1)

/-- A frame in transmission with its timestamp, where its copy was presented with TS_REQ (R215, R219). -/
def stamped (d : Dev) (p : Nat) (f : TxFrame) : TxFrame × Dev :=
  if f.stamp.isSome ∨ f.copy.tsId.isNone ∨ 26 ≤ p then (f, d)
  else
    let (x, d1) := txStamp d p f.begun
    ({ f with stamp := some x }, d1)

/-- The frames whose octet after the SFD has passed the MDI have their timestamps (R215). -/
def stampsDue (d : Dev) : Dev :=
  d.tx.foldl (fun d e =>
    if f8 d e.1 e.2 ≤ d.now then
      let (f, d1) := stamped d e.1 e.2
      if f = e.2 then d else { d1 with tx := kvPut d1.tx e.1 f }
    else d) d
where
  /-- When the octet after the SFD of a frame passes the MDI. -/
  f8 (d : Dev) (p : Nat) (f : TxFrame) : Instant := f.begun + octetTicks 8 (portRate d p)

/-- TW of MAC_EEE_CTRL in periods of CLK_FAB (Table 3.14). -/
def eeeTw (d : Dev) (p : Nat) : Nat :=
  let x := af d (macPage p) 0xa0 24 16
  (if x = 0 then (if portType p = .m then 80 else 120) else x) * 160

/-- IDLE_US of MAC_EEE_CTRL. -/
def eeeIdle (d : Dev) (p : Nat) : Nat := af d (macPage p) 0xa0 8 16 * usTicks

/-- Whether the transmitter is in LPI. -/
def lpiOn (d : Dev) (p : Nat) : Bool := rb d (macPage p) 0xb8 9

/-- Octets of a fragment that have left by an instant. -/
def sentBy (d : Dev) (p : Nat) (f : TxFrame) (t : Instant) : Nat :=
  (t - f.start) * portRate d p / (8 * 1600000) - 8

/-- Where the MAC may interrupt a preemptable frame from an instant on (R132): octets of this fragment. -/
def cutPoint (d : Dev) (p : Nat) (f : TxFrame) (t : Instant) : Option Nat :=
  let x := max (minFrag d p - 4) (sentBy d p f t)
  if f.preempt && mergeActive d p && decide (f.sent + x + 64 ≤ f.total) then some x else none

/-- A preemptable frame in transmission is interrupted (R132). -/
def suspend (d0 : Dev) (p : Nat) (f0 : TxFrame) (x : Nat) : Dev :=
  let (f, d) := stamped d0 p f0
  let d1 := cbsSync d p
  cnt { d1 with tx := kvDel d1.tx p,
                susp := kvPut d1.susp p { f with sent := f.sent + x, frags := f.frags + 1 } } (macPage p) 0x1a0 1

/-- What is left of the wake time of a transmitter in LPI (R93): all of TW where it has not begun to wake. -/
def wakeLeft (d : Dev) (p : Nat) : Nat :=
  if lpiOn d p then (match (portSt d p).lpiWakeAt with | some x => x - d.now | none => eeeTw d p) else 0

/-- A copy begins its transmission at an Ethernet port; a copy that MACsec refuses is freed (R374). -/
def startTx (d0 : Dev) (p t : Nat) (c : Copy) (after : Instant) : Dev :=
  let d := if c.bad then countStomp d0 p else d0
  match macsecTx d p c.octets with
  | (none, d1) => freeCopy d1 c
  | (some l, d1) =>
    let lead := leadTicks d p
    let wake := wakeLeft d p
    let start := max (d.now + lead) after + wake
    let len := (c.len.getD c.maxLen) + (l.length - c.octets.length) + (if c.rtag then 6 else 0)
    let f : TxFrame := { copy := c, tc := t, start := start, begun := start, ends := start + octetTicks (8 + len) (portRate d p),
                         octets := l, preempt := preemptable d p t, total := len }
    let d2 := { d1 with tx := kvPut d1.tx p f }
    if lpiOn d p then setPort d2 p { portSt d2 p with lpiWakeAt := some (d.now + wake) } else d2

/-- A suspended frame resumes (R132). -/
def resumeTx (d : Dev) (p : Nat) (f : TxFrame) : Dev :=
  let d1 := cbsSync d p
  let start := d.now + leadTicks d p
  let g := { f with start := start, ends := start + octetTicks (8 + (f.total - f.sent)) (portRate d p) }
  { d1 with susp := kvDel d1.susp p, tx := kvPut d1.tx p g }

/-- A frame looped back is received by its own port (MAC_CTRL.LOOP_MAC, LOOP_PCS). -/
def loopBack (d : Dev) (p : Nat) (l : List Byte) (bad : Bool) : Dev :=
  tailOp (headerOp d p { octets := l, capture := locNow d }) p (!bad)

/-- The frame in transmission has left (R176): it is on the wire, or looped back; counters, timestamp. -/
def endTx (d0 : Dev) (p : Nat) (e : EccEvent) : Dev :=
  let d := cbsSync d0 p
  match kvGet d.tx p with
  | none => d
  | some f0 =>
    let dE := if e.lost ∧ !f0.copy.bad then cnt (bufRead d e) (macPage p) 0x190 1 else bufRead d e
    let f := if e.lost then { f0 with copy := { f0.copy with bad := true } } else f0
    let bad := f.copy.bad
    let pg := macPage p
    let d1 := { dE with tx := kvDel dE.tx p }
    let d2 := if bad then d1 else cnt (cnt d1 pg 0x180 (f.octets.length + 4)) pg 0x188 1
    let (f1, d2) := stamped d2 p f
    let d3 := tsqEntry d2 f.copy (if bad then locAt d f.begun else f1.stamp.getD 0) bad false (decide (1 < f.frags))
    let s := portSt d3 p
    let d4 := setPort d3 p { s with emptyFrom := d.now, lastTx := f.ends }
    if rb d4 pg 0x80 12 || rb d4 pg 0x80 13 then loopBack d4 p f.octets bad
    else emit d4 (.ethFrame p f.octets bad)

/-- Whether a port makes selections (R176): its MAC runs, TX_EN, link up, not paused, no jabber, not silenced, its quay not isolated. -/
def txReady (d : Dev) (p : Nat) : Bool :=
  let pg := macPage p
  running d pg && rb d pg 0x80 1 && !portSilent d p && !isolated d (quayOfPort p) && running d (quayPage (quayOfPort p) 1)
    && (decide (26 ≤ p) || (linkIsUp d p && !rb d pg 0xb8 11 && !(portSt d p).jabber))

/-- The selection of an Ethernet port (R176, R177, R132): a frame that has left makes room; an express class may
interrupt a preemptable frame; a suspended frame resumes when no express copy is eligible. -/
def selectEth (d0 : Dev) (p : Nat) (e : EccEvent) : Dev :=
  if !txReady d0 p then d0
  else
    let d1 := match kvGet d0.tx p with
      | some f => if f.copy.tail ∧ f.ends ≤ d0.now + leadTicks d0 p then endTx d0 p .clean else d0
      | none => d0
    let d := lookPort (cbsSync d1 p) p
    let hold := mergeActive d p && (gatesOf d p).hold
    let express (t : Nat) : Bool := !preemptable d p t
    let send (d : Dev) (t i : Nat) (after : Instant) : Dev :=
      match takeHead d p t i with
      | (d2, none) => d2
      | (d2, some c) =>
        if e.lost then freeCopy (cnt (bufRead d2 e) (macPage p) 0x190 1) c else startTx (bufRead d2 e) p t c after
    match kvGet d.tx p with
    | some f =>
      (match pick d p express, cutPoint d p f (d.now + leadTicks d p) with
        | some (t, i), some x =>
          let at0 := f.start + octetTicks (8 + x + 4 + 12) (portRate d p)
          if f.preempt ∧ (kvGet d.susp p).isNone then send (suspend d p f x) t i at0 else d
        | _, _ => d)
    | none =>
      match kvGet d.susp p with
      | some f =>
        (match pick d p express with
          | some (t, i) => send d t i 0
          | none => if !hold ∧ gateAdmits d f.tc f.copy then resumeTx d p f else d)
      | none =>
        match pick d p (fun t => express t || !hold) with
        | some (t, i) => send d t i 0
        | none => d

/-! ### Gate events (R182, R185) -/

/-- An entry of the operational list takes effect: gate states for the credits, queue cells that become or stop being eligible, hold and
release, preemption at the close. -/
def gateEventOp (d0 : Dev) (p : Nat) : Dev :=
  let d := cbsSync d0 p
  match operList d p with
  | none => d
  | some _ =>
    let (gs, op, k) := gatesNow d p (selLead d p)
    let (pg, o) := gatePg p
    let d1 := lookPort (setPort d p { portSt d p with gateClass := gs }) p
    let d2 := wf (wf d1 pg (o + 0x20) 8 8 gs) pg (o + 0x20) 16 11 k
    let g := gatesOf d2 p
    let hold := if mergeActive d2 p then (if op = 1 then true else if op = 2 then false else g.hold) else false
    let d3 := setGates d2 p { g with hold := hold }
    match kvGet d3.tx p with
    | some f =>
      if f.preempt ∧ (hold ∨ gs / 2 ^ f.tc % 2 = 0) ∧ (kvGet d3.susp p).isNone then
        match cutPoint d3 p f d3.now with
        | some x => suspend d3 p f x
        | none => d3
      else d3
    | none => d3

/-! ### EEE (R93, R94) -/

/-- EEE can be used (R93): EEE_EN, an M port or a G port at 1000 Mb/s, auto-negotiation, in which both ends advertise EEE (log 21). -/
def eeeReady (d : Dev) (p : Nat) : Bool :=
  ab d (macPage p) 0xa0 0 && linkIsUp d p && rb d (macPage p) 0x88 8
    && (portType p == .m || (portType p == .g && rf d (macPage p) 0xb8 1 4 == 2))

/-- Whether a gate of a non-empty or credit-shaped class opens within some periods of CLK_FAB from now (R94). -/
def gateSoon (d : Dev) (p ticks : Nat) : Bool :=
  match operList d p with
  | none => false
  | some g =>
    (List.range 8).any fun t =>
      ((cbsCfg d p t).1 || classQueued d p t)
        && soon t (ticks * (tsStep / 4)) (g.ahead (pendCt d p (selLead d p) g) (timeOf d g.dom + selLead d p)) 0 true
where
  /-- Whether class t opens over segments at most `lim` from here, being open or not before them. -/
  soon (t lim : Nat) : List (Nat × Nat × Nat × Nat) → Nat → Bool → Bool
    | [], _, _ => false
    | (n, gs, _) :: l, acc, was =>
      let now := gs / 2 ^ t % 2 == 1
      if lim < acc then false else (now && !was) || soon t lim l (acc + n) now

/-- The transmitter enters LPI when every queue of the port has been empty for IDLE_US (R93, R94). -/
def lpiEntryOp (d : Dev) (p : Nat) : Dev :=
  if eeeReady d p ∧ !portBusy d p ∧ !lpiOn d p ∧ !gateSoon d p (eeeTw d p + usTicks) ∧ (portSt d p).emptyFrom + eeeIdle d p ≤ d.now then
    let d1 := irq (cnt (wb d (macPage p) 0xb8 9 true) (macPage p) 0x1c0 1) (macPage p) 2
    setPort d1 p { portSt d1 p with lpiFrom := some d.now, lpiWakeAt := none }
  else d

/-- The link has woken (R93): LPI_TX falls, the time in LPI counts. -/
def lpiWakeOp (d : Dev) (p : Nat) : Dev :=
  let s := portSt d p
  let due : Bool := match s.lpiWakeAt with | some x => decide (x ≤ d.now) | none => false
  if lpiOn d p ∧ due then
    let us := match s.lpiFrom with | some x => (d.now - x) / usTicks | none => 0
    let d1 := setPort d p { s with lpiFrom := none, lpiWakeAt := none, emptyFrom := d.now }
    irq (cnt (wb d1 (macPage p) 0xb8 9 false) (macPage p) 0x1c8 us) (macPage p) 2
  else d

/-- A gate opening is due TW from now: a port in LPI starts to wake (R94). -/
def lpiGateWakeOp (d : Dev) (p : Nat) : Dev :=
  if lpiOn d p ∧ (portSt d p).lpiWakeAt.isNone ∧ gateSoon d p (eeeTw d p) then
    setPort d p { portSt d p with lpiWakeAt := some (d.now + eeeTw d p) }
  else d

/-! ### Queue observation (R196 to R198) -/

/-- REQ_WM and PERIOD_US of a quay (Table 6.11). -/
def sampWm (d : Dev) (n : Nat) : Nat := max 1 (rf d (quayPage n 2) 0x80 20 12)
def sampPeriod (d : Dev) (n : Nat) : Nat :=
  let x := rf d (quayPage n 2) 0x80 8 10
  if x = 0 ∨ 1000 < x then 1000 else x

/-- COUNT of the ring. -/
def ringCount (d : Dev) (n : Nat) : Dev := wf d (quayPage n 2) 0x88 0 13 (quay d n).ring.length

/-- One sample enters the ring, or is lost (R196, R197). -/
def sampleOne (d : Dev) (n i time : Nat) : Dev :=
  let q := quay d n
  let pg := quayPage n 2
  if 4096 ≤ q.ring.length then irq (wb (cnt d pg 0x90 1) pg 0x88 16 true) pg 1
  else
    let c := (qcell d n i).copies
    let hol := match c with | h :: _ => min 268435455 (time - h.decNs) | [] => 0
    let w0 := mkWord [(0, time % 2 ^ 40), (40, i), (49, q.pass % 16384), (63, 1)]
    let w1 := mkWord [(0, c.foldl (fun a x => a + x.cells) 0), (18, c.length), (36, hol)]
    setQuay d n { q with ring := q.ring ++ [(w0, w1)] }

/-- Whether a sampling pass is due: a multiple of PERIOD_US of local time has come since the last pass, or since sampling began (R196). -/
def sampDue (d : Dev) (n : Nat) : Bool :=
  let per := sampPeriod d n * 65536000
  decide ((quay d n).sampAt / per < locNow d / per)

/-- SAMP_WATER stands while COUNT ≥ REQ_WM (R198): a bit that was cleared is raised again. -/
def sampWater (d : Dev) (n : Nat) : Dev :=
  if sampWm d n ≤ (quay d n).ring.length ∧ !rb d (quayPage n 2) 0x20 0 then irq d (quayPage n 2) 0 else d

/-- A sampling pass (R196): one cell per period of CLK_FAB, in ascending order. -/
def samplingOp (d0 : Dev) (n : Nat) : Dev :=
  if !rb d0 (quayPage n 2) 0x80 0 || !running d0 (quayPage n 2) || !sampDue d0 n then d0
  else
    let d := setQuay d0 n { quay d0 n with sampAt := locNow d0 }
    let cells := (List.range 512).filter fun i => rb d (quayPage n 2) (0xc0 + i / 64 * 8) (i % 64)
    let d1 := (cells.zipIdx).foldl (fun d x => sampleOne d n x.1 ((locNow d + x.2 * (tsStep / 4)) / 65536)) d
    let q := quay d1 n
    sampWater (ringCount (setQuay d1 n { q with pass := q.pass + 1 }) n) n

/-- One read of a drain of (word 0, word 1) entries (R198): what it returns, the entries left, whether word 1 is next. -/
def drainStep (l : List (W64 × W64)) (half : Bool) (addr width : Nat) : W64 × List (W64 × W64) × Bool :=
  match l with
  | [] => (0, [], false)
  | (a, b) :: r =>
    let w := if half then b else a
    if width = 3 then (w, if half then r else l, !half)
    else if width = 2 then (BitVec.ofNat 64 (fld w (if addr / 4 % 2 = 1 then 32 else 0) 32), l, half)
    else (w, l, half)

/-- A drain read of a quay's sampling ring. -/
def ringDrain (d : Dev) (n addr width : Nat) : W64 × Dev :=
  let q := quay d n
  let (w, l, h) := drainStep q.ring q.ringHalf addr width
  (w, ringCount (setQuay d n { q with ring := l, ringHalf := h }) n)

/-- A drain read of a port's transmit timestamp queue (R220). -/
def tsqDrain (d : Dev) (p addr width : Nat) : W64 × Dev :=
  let (w, l, h) := drainStep (kvD d.time.txqs p []) (d.time.txqHalf.contains p) addr width
  let halves := d.time.txqHalf.filter (· != p) ++ (if h then [p] else [])
  let t := { d.time with txqs := (if l = [] then kvDel d.time.txqs p else kvPut d.time.txqs p l), txqHalf := halves }
  (w, wf { d with time := t } (tsPage p) 0x98 0 6 l.length)

end Sys2Proof.Machine
end

