-- ==== Sys2Proof/Machine/HostPort.lean ====
section
/-! DEFINITION. The frame queue pairs of ports H and C (R318 to R328): doorbells, descriptor and data reads, presentation
of TX frames, delivery of copies into RX buffers, completions. -/

namespace Sys2Proof.Machine

/-! ### Queue pairs and their registers (Table 12.13) -/

/-- Index of a queue pair: port C from 16 on. -/
def QueueRef.idx (q : QueueRef) : Nat := if q.portC then 16 + q.q.val else q.q.val

/-- The page of a queue pair, and the offset of its BASE. -/
def hqPage (i : Nat) : Page := if i < 16 then .host 1 else .scarab 1
def hqOff (i : Nat) (rx : Bool) : Nat := 0x100 + i % 16 * 0x40 + (if rx then 0x20 else 0)

def hostQ (d : Dev) (i : Nat) : HostQ := kvD d.host.qs i {}
def setHostQ (d : Dev) (i : Nat) (q : HostQ) : Dev := { d with host := { d.host with qs := kvPut d.host.qs i q } }

/-- The word of a queue's CFG and STAT. -/
def hqCfg (d : Dev) (i : Nat) (rx : Bool) : W64 := rd d (hqPage i) (hqOff i rx + 8)
def hqEn (d : Dev) (i : Nat) (rx : Bool) : Bool := bit (hqCfg d i rx) 4
def hqStat (d : Dev) (i : Nat) (rx : Bool) (lo len : Nat) : Nat := rf d (hqPage i) (hqOff i rx + 16) lo len
def hqSet (d : Dev) (i : Nat) (rx : Bool) (lo len x : Nat) : Dev := wf d (hqPage i) (hqOff i rx + 16) lo len x

/-- Descriptors of a ring (R321); a SIZE_LOG2 above 9 acts as the reset value (R515). -/
def hqSize (d : Dev) (i : Nat) (rx : Bool) : Nat :=
  let k := fld (hqCfg d i rx) 0 4
  2 ^ ((if 9 < k then 0 else k) + 6)

def hqHead (d : Dev) (i : Nat) (rx : Bool) : Nat := hqStat d i rx 0 15
def hqTail (d : Dev) (i : Nat) (rx : Bool) : Nat := hqStat d i rx 17 15

/-- Descriptors that the device owns. -/
def hqOwned (d : Dev) (i : Nat) (rx : Bool) : Nat :=
  (hqTail d i rx + hqSize d i rx - hqHead d i rx) % hqSize d i rx

/-- Host address of a descriptor. -/
def hqDesc (d : Dev) (i : Nat) (rx : Bool) (k : Nat) : Nat :=
  (rd d (hqPage i) (hqOff i rx)).toNat / 4096 * 4096 + k % hqSize d i rx * 32

/-- Whether memory requests can be issued (R320): Bus Master Enable for port H. -/
def canDma (d : Dev) (i : Nat) : Bool := decide (16 ≤ i) || (rb d (.host 0) 0x80 7 && domUp d (Page.host 0).domain)

/-- A memory request of a queue: of the endpoint for port H (R320), of the interconnect for port C. -/
def hqMem (d : Dev) (i : Nat) (o : Out) : Dev := if i < 16 then hostMem d o else emit d o

/-- A failed memory request of a queue: of PCIe for port H (R320). -/
def hqErr (d : Dev) (i : Nat) : Dev := if i < 16 then irq (cnt d (.host 0) 0x98 1) (.host 0) 1 else d

/-- STOPPED with its interrupt (R322, R325): TXQ_STOP_q or RX_NOBUF_q. -/
def hqStop (d : Dev) (i : Nat) (rx : Bool) : Dev :=
  irq (hqSet d i rx 15 1 1) (hqPage i) (i % 16 + if rx then 16 else 0)

/-! ### Completions (R327, R328) -/

/-- The message of a queue on its vector. -/
def sigNow (d : Dev) (i : Nat) (rx : Bool) : Dev :=
  let q := hostQ d i
  let d1 := setHostQ d i (if rx then { q with sigRx := 0 } else { q with sigTx := 0 })
  msixVec d1 (fld (hqCfg d i rx) 8 6) (256 + 2 * i + rx.toNat)

/-- A completion of a queue (R328). -/
def complete (d : Dev) (i : Nat) (rx : Bool) : Dev :=
  let q := hostQ d i
  let n := (if rx then q.sigRx else q.sigTx) + 1
  let q1 : HostQ := if rx then { q with sigRx := n, sigRxAt := if n = 1 then d.now else q.sigRxAt }
    else { q with sigTx := n, sigTxAt := if n = 1 then d.now else q.sigTxAt }
  let d1 := setHostQ d i q1
  if fld (hqCfg d i rx) 16 6 ≤ n then sigNow d1 i rx else d1

/-- COAL_US has passed since the oldest completion not signalled (R328). -/
def coalesceOp (d : Dev) (i : Nat) (rx : Bool) : Dev :=
  let q := hostQ d i
  let n := if rx then q.sigRx else q.sigTx
  let at0 := if rx then q.sigRxAt else q.sigTxAt
  if n ≠ 0 ∧ at0 + fld (hqCfg d i rx) 32 16 * usTicks ≤ d.now then sigNow d i rx else d

/-! ### TX (R322, R323) -/

/-- Whether a TX queue has work. -/
def txWork (d : Dev) (i : Nat) : Bool :=
  hqEn d i false && hqStat d i false 15 1 == 0 && hqOwned d i false != 0 && (hostQ d i).phase == 0
    && !(hostQ d i).more && canDma d i

/-- The next queue of a port whose frame is fetched: PRIO before others, round robin after the last turn (R323). -/
def txNext (d : Dev) (portC : Bool) : Option Nat :=
  let n := if portC then 8 else 16
  let base := if portC then 16 else 0
  let turn := if portC then d.host.turnC else d.host.turnH
  let l := ((List.range n).map fun k => base + (turn + 1 + k) % n).filter (txWork d)
  match l.find? (fun i => bit (hqCfg d i false) 5) with
  | some i => some i
  | none => l.head?

/-- The queue whose frame a port fetches. -/
def curOf (d : Dev) (portC : Bool) : Option Nat := if portC then d.host.curC else d.host.curH
def setCur (d : Dev) (portC : Bool) (c : Option Nat) : Dev :=
  { d with host := if portC then { d.host with curC := c } else { d.host with curH := c } }

/-- A port that fetches no frame begins one: its descriptors are read, at most nine (log 23). -/
def txKick (d : Dev) (portC : Bool) : Dev :=
  match curOf d portC with
  | some _ => d
  | none =>
    match txNext d portC with
    | none => d
    | some i =>
      let d1 := setHostQ (setCur d portC (some i)) i { hostQ d i with phase := 1, descs := [], data := [] }
      let d2 := { d1 with host := if portC then { d1.host with turnC := i % 16 } else { d1.host with turnH := i } }
      emit d2 (.hostRead (hqDesc d2 i false (hqHead d2 i false)) (32 * min 9 (hqOwned d2 i false)))

/-- A port goes on from a queue that has no frame in progress: QUIESCED where it is disabled (Table 12.14). -/
def txIdle (d : Dev) (i : Nat) (q : HostQ) : Dev :=
  let d1 := setCur (setHostQ d i { q with phase := 0, descs := [], data := [] }) (decide (16 ≤ i)) none
  if hqEn d1 i false then d1 else hqSet d1 i false 16 1 1

/-- The end of a TX frame (R323): word 3 of its descriptors, HEAD, a completion; the port goes on to its next frame. -/
def txFinish (d : Dev) (i status : Nat) (n : Nat) : Dev :=
  let head := hqHead d i false
  let d1 := (List.range n).foldl (fun d k =>
    hqMem d i (.hostWrite (hqDesc d i false (head + k) + 24) (leBytes 8 (1 + status * 2)))) d
  let d2 := hqSet d1 i false 0 15 ((head + n) % hqSize d1 i false)
  txIdle (complete d2 i false) i (hostQ (complete d2 i false) i)

/-- The descriptors up to and with the first EOP. -/
def toEop : List (List W64) → List (List W64) × Bool
  | [] => ([], false)
  | x :: l => if bit (x.getD 1 0) 16 then ([x], true) else let (r, b) := toEop l; (x :: r, b)

/-- Octets of a list of TX descriptors. -/
def descLen (l : List (List W64)) : Nat := l.foldl (fun a x => a + fld (x.getD 1 0) 0 16) 0

/-- TX descriptors have arrived: an ill-formed frame is discarded (R322), another's data is read. -/
def txDescsOp (d : Dev) (i : Nat) (ws : List (List W64)) : Dev :=
  let q := hostQ d i
  if q.phase ≠ 1 then d
  else
    let portC := decide (16 ≤ i)
    let (fr, eop) := toEop (ws.take (min 9 (hqOwned d i false)))
    if fr = [] then txKick (txIdle d i { q with more := true }) portC
    else if q.skip then txKick (txFinish (setHostQ d i { q with skip := !eop }) i 1 fr.length) portC
    else if eop && decide (fr.length ≤ 8) then
      let n := descLen fr
      if n < 60 ∨ 10236 < n ∨ fr.any (fun x => fld (x.getD 1 0) 0 16 == 0) then txKick (txFinish d i 1 fr.length) portC
      else
        let d1 := setHostQ d i { q with phase := 2, descs := fr, data := [] }
        fr.foldl (fun d x => hqMem d i (.hostRead (x.getD 0 0).toNat (fld (x.getD 1 0) 0 16))) d1
    else if 9 ≤ fr.length then txKick (txFinish (setHostQ d i { q with skip := !eop }) i 1 fr.length) portC
    else txKick (txIdle d i { q with more := true }) portC

/-- Data of the TX frame in progress has arrived; a whole frame is presented, or discarded (R322, R323). -/
def txDataOp (d : Dev) (i : Nat) (o : List Byte) : Dev :=
  let q := hostQ d i
  if q.phase ≠ 2 then d
  else
    let portC := decide (16 ≤ i)
    let p := if portC then 27 else 26
    let all := q.data ++ o
    let n := descLen q.descs
    if all.length < n then setHostQ d i { q with data := all }
    else
      let w1 := (q.descs.headD []).getD 1 0
      let w2 := (q.descs.headD []).getD 2 0
      let f0 := all.take n
      let f := if bit w1 18 then addTag 0x8100 (fld w2 0 12) (fld w2 12 3) false f0 else f0
      if rxAccepts d p then
        let d1 := present d { fid := 0, port := p, ready := 0, frame := { octets := f },
                              tsId := if bit w1 17 then some (fld w1 48 16) else none }
        txKick (txFinish d1 i 0 q.descs.length) portC
      else txKick (txFinish d i 3 q.descs.length) portC

/-- An error completion or a timeout of a queue (R320, R322): the frame, where its descriptors are known, is discarded, the queue stops. -/
def txErrorOp (d : Dev) (i : Nat) : Dev :=
  let d0 := hqErr d i
  let q := hostQ d0 i
  if q.phase = 0 then d0
  else
    let d1 := if q.descs = [] then txIdle d0 i q else txFinish d0 i 2 q.descs.length
    txKick (hqStop d1 i false) (decide (16 ≤ i))

/-! ### RX (R324 to R326) -/

/-- RX descriptors that were posted and not asked for are read. -/
def rxKick (d : Dev) (i : Nat) : Dev :=
  let q := hostQ d i
  let sz := hqSize d i true
  let n := (hqTail d i true + sz - q.fetched) % sz
  if hqEn d i true && hqStat d i true 15 1 == 0 && !q.rxBusy && n != 0 && canDma d i then
    emit (setHostQ d i { q with rxBusy := true }) (.hostRead (hqDesc d i true q.fetched) (32 * n))
  else d

/-- RX descriptors have arrived; one that violates R325 stops the queue. -/
def rxDescsOp (d : Dev) (i : Nat) (ws : List (List W64)) : Dev :=
  let q := hostQ d i
  if !q.rxBusy then d
  else if q.rxStale then rxKick (setHostQ d i { q with rxBusy := false, rxStale := false }) i
  else
    let sz := hqSize d i true
    let l := ws.take ((hqTail d i true + sz - q.fetched) % sz)
    let bad (x : List W64) : Bool :=
      let n := fld (x.getD 1 0) 0 16
      n % 64 != 0 || decide (n < 256) || decide (16384 < n)
    let good := l.takeWhile (fun x => !bad x)
    let bufs := good.zipIdx.map fun x => ((x.1.getD 0 0).toNat, fld (x.1.getD 1 0) 0 16, (q.fetched + x.2) % sz)
    let d1 := setHostQ d i { q with rxBusy := false, bufs := q.bufs ++ bufs, fetched := (q.fetched + good.length) % sz }
    if good.length < l.length then hqStop d1 i true else rxKick d1 i

/-- An RX descriptor read fails: the queue stops. -/
def rxErrorOp (d : Dev) (i : Nat) : Dev :=
  let d0 := hqErr d i
  let q := hostQ d0 i
  let d1 := setHostQ d0 i { q with rxBusy := false, rxStale := false }
  if q.rxStale then rxKick d1 i else hqStop d1 i true

/-- The buffers that a frame of `n` octets takes; none where there are too few. -/
def takeBufs : List (Nat × Nat × Nat) → Nat → Option (List (Nat × Nat × Nat))
  | _, 0 => some []
  | [], _ + 1 => none
  | b :: l, n + 1 => if n + 1 ≤ b.2.1 then some [b] else (takeBufs l (n + 1 - b.2.1)).map (b :: ·)

/-- The RX ring of a class, and of a quarantine copy (R324). -/
def rxRing (d : Dev) (p t : Nat) (c : Copy) : Nat :=
  if p = 26 then (if c.info.quar then af d (.bwt 0) 0x98 0 4 else rf d (.host 1) 0x80 (4 * t) 4)
  else 16 + rf d (.scarab 1) 0x80 (4 * t) 4 % 8

/-- The written-back descriptor of a buffer (Table 12.5). -/
def rxBack (c : Copy) (len total : Nat) (sop eop : Bool) : List W64 :=
  let ts := c.info.ts.getD 0
  let q := c.info.quar
  [mkWord [(0, tNs ts), (32, tFrac ts), (48, len)],
   mkWord [(0, tSec ts % 2 ^ 48), (48, c.info.ts.isSome.toNat), (49, sop.toNat), (50, eop.toNat), (51, q.toNat),
     (52, c.info.src), (58, c.info.pcp), (61, c.info.unknown.toNat)],
   mkWord [(0, c.info.vid), (12, c.info.tagged.toNat), (24, if q then c.info.rule.getD 0 else 0),
     (35, if q then c.info.rule.isNone.toNat else 0), (36, if q then c.info.srcZone else 0), (42, if q then c.info.dstZone else 0)],
   mkWord [(0, if eop then total else 0), (63, 1)]]

/-- The data writes of a frame, and the descriptor writes that follow them (R327). -/
def rxWrites (d : Dev) (i : Nat) (c : Copy) (total : Nat) :
    List (Nat × Nat × Nat) → List Byte → Bool → List Out × List Out
  | [], _, _ => ([], [])
  | b :: l, o, sop =>
    let part := o.take b.2.1
    let (ds, bs) := rxWrites d i c total l (o.drop b.2.1) false
    (.hostWrite b.1 part :: ds,
     .hostWrite (hqDesc d i true b.2.2) ((rxBack c part.length total sop l.isEmpty).flatMap wordBytes) :: bs)

/-- A copy is written into its buffers: data, descriptors, HEAD, a completion (R324, R327). -/
def rxDeliver (d : Dev) (p i : Nat) (c : Copy) (bufs : List (Nat × Nat × Nat)) : Dev :=
  let total := c.octets.length
  let (ds, bs) := rxWrites d i c total bufs c.octets true
  let q := hostQ d i
  let d1 := { setHostQ d i { q with bufs := q.bufs.drop bufs.length } with out := d.out ++ ds ++ bs }
  let d2 := hqSet d1 i true 0 15 ((hqHead d1 i true + bufs.length) % hqSize d1 i true)
  complete (cnt (cnt d2 (macPage p) 0x180 (total + 4)) (macPage p) 0x188 1) i true

/-- A head copy of port H or C can be delivered now, is dropped for want of a buffer, or waits (R326). -/
inductive RxFate where
  | go (bufs : List (Nat × Nat × Nat))
  | drop
  | wait
deriving DecidableEq, Repr

/-- What becomes of a head copy of class t. -/
def rxFate (d : Dev) (p t : Nat) (c : Copy) : RxFate :=
  let i := rxRing d p t c
  let q := hostQ d i
  if !canDma d i then .wait
  else if hqStat d i true 15 1 = 1 then .wait
  else match (if hqEn d i true then takeBufs q.bufs c.octets.length else none) with
    | some b => .go b
    | none => if q.rxBusy then .wait else if bit (hqCfg d i true) 5 then .drop else .wait

/-- A copy freed for want of a buffer: NOBUF and its interrupt (R326). -/
def rxNoBuf (d : Dev) (i : Nat) (c : Copy) : Dev :=
  freeCopy (irq (hqSet d i true 32 32 (hqStat d i true 32 32 + 1)) (hqPage i) (i % 16 + 16)) c

/-- The selection of port H or C (R177, R324, R326): classes whose head waits for a buffer are passed over. -/
def selectHost (d0 : Dev) (p : Nat) (e : EccEvent) : Dev :=
  if !txReady d0 p then d0
  else
    let d := lookPort d0 p
    let n := quayOfPort p
    let fate (t : Nat) : Option RxFate :=
      (bestCell d p t).bind fun i => ((qcell d n i).copies.head?).map fun c => rxFate d p t c
    match pick d p (fun t => fate t != some .wait) with
    | none => d
    | some (t, i) =>
      match takeHead d p t i with
      | (d1, none) => d1
      | (d1, some c) =>
        let d2 := bufRead d1 e
        if e.lost then freeCopy d2 c
        else
          let ring := rxRing d2 p t c
          match rxFate d p t c with
          | .go b => rxDeliver d2 p ring c b
          | .drop => rxNoBuf d2 ring c
          | .wait => d2

/-! ### Doorbells and CFG (R321, R322) -/

/-- A doorbell (R321): bits above the ring size are ignored. -/
def doorbellOp (d : Dev) (i : Nat) (rx : Bool) (v : W64) : Dev :=
  let d1 := hqSet d i rx 17 15 (fld v 0 15 % hqSize d i rx)
  if rx then rxKick d1 i else txKick (setHostQ d1 i { hostQ d1 i with more := false }) (decide (16 ≤ i))

/-- Whether BASE and SIZE_LOG2 of a queue accept writes (R321). -/
def hqOpen (d : Dev) (i : Nat) (rx : Bool) : Bool := !hqEn d i rx && hqStat d i rx 16 1 == 1

/-- A write of a queue's BASE (R321). -/
def hqBaseOp (d : Dev) (i : Nat) (rx : Bool) (v : W64) : Dev :=
  if hqOpen d i rx then wr d (hqPage i) (hqOff i rx) (mergeFld v 0 0 12)
  else if (rd d (hqPage i) (hqOff i rx)) = mergeFld v 0 0 12 then d else conflict d (hqPage i) 1

/-- A write of a queue's CFG: SIZE_LOG2 under R321, EN resumes a stopped queue, EN = 0 quiesces it. -/
def hqCfgOp (d : Dev) (i : Nat) (rx : Bool) (v : W64) : Dev :=
  let pg := hqPage i
  let old := hqCfg d i rx
  let ok := hqOpen d i rx
  let inval := decide (9 < fld v 0 4)
  let d0 := if fld v 0 4 = fld old 0 4 then d else if !ok then conflict d pg 1 else if inval then invalidValue d pg else d
  let new := mergeFld (v &&& (maskOf 0 6 ||| maskOf 8 6 ||| maskOf 16 6 ||| maskOf 32 16)) (if ok && !inval then v else old) 0 4
  let d1 := wr d0 pg (hqOff i rx + 8) new
  let q := hostQ d1 i
  if bit v 4 then
    let d2 := hqSet (hqSet d1 i rx 15 1 0) i rx 16 1 0
    if rx then rxKick d2 i else txKick d2 (decide (16 ≤ i))
  else if rx then
    hqSet (setHostQ d1 i { q with bufs := [], fetched := hqHead d1 i true, rxStale := q.rxBusy }) i rx 16 1 1
  else if q.phase = 0 then hqSet (setHostQ d1 i { q with more := false, skip := false }) i rx 16 1 1 else d1

/-- A read completion for a queue pair (R320). -/
def completionOp (d : Dev) (i : Nat) : Completion → Dev
  | .txDescs ws => txDescsOp d i ws
  | .rxDescs ws => rxDescsOp d i ws
  | .data o => txDataOp d i o
  | .error => if (hostQ d i).phase ≠ 0 then txErrorOp d i else if (hostQ d i).rxBusy then rxErrorOp d i else d

/-- The PCIe link changes (Table 12.13): HOST_PCIE_STAT, LINK_CHANGE; requests and queues that waited for Bus
Master Enable go on. -/
def pcieLinkOp (d : Dev) (k : PcieLink) : Dev :=
  let w := mkWord [(0, k.speed % 8), (3, k.width % 8), (6, k.up.toNat), (7, (k.bme && k.up).toNat), (8, k.pm % 4)]
  let d1 := irq (wr d (.host 0) 0x80 w) (.host 0) 0
  let d2 := if rb d1 (.host 0) 0x80 7 then { d1 with host := { d1.host with held := [] }, out := d1.out ++ d1.host.held } else d1
  (List.range 16).foldl rxKick (txKick d2 false)

end Sys2Proof.Machine
end

