-- ==== Sys2Proof/Machine/Acf.lean ====
section
/-! DEFINITION. IEEE 1722 carriers and their ACF messages (R249, R254, R263), laid out as IEEE 1722-2016 has them (log 25). -/

namespace Sys2Proof.Machine

/-- The header octets of an ACF message: CAN, CAN brief and LIN (Table 8.5); another type has its first quadlet. -/
def acfHeader (ty : Nat) : Nat := if ty = 1 then 16 else if ty = 2 then 8 else if ty = 3 then 12 else 4

/-- An ACF message found in a frame: type, offset, octets. -/
structure AcfMsg where
  type : Nat
  off  : Nat
  len  : Nat
deriving DecidableEq, Repr

/-- The header of a carrier: subtype, octets of the header, sequence_num, stream_id, octets of ACF messages. -/
structure Avtp where
  subtype : Nat
  hdr     : Nat
  seq     : Nat
  stream  : Nat
  len     : Nat
deriving DecidableEq, Repr

/-- The AVTP header at an offset of a frame: NTSCF (0x82, 12 octets) or TSCF (0x05, 24 octets). -/
def avtpAt (l : List Byte) (a : Nat) : Avtp :=
  let st := octetAt l a
  if st = 0x82 then
    { subtype := st, hdr := 12, seq := octetAt l (a + 3), stream := beNat (slice l (a + 4) 8), len := be16 l (a + 1) % 2048 }
  else
    { subtype := st, hdr := 24, seq := octetAt l (a + 2), stream := beNat (slice l (a + 4) 8), len := be16 l (a + 20) }

/-- The messages from `off` to `stop` that lie wholly in the frame, and whether a bad length ended the walk (R254); a message has at least
4 octets, so as many steps as the frame has octets reach its end. -/
def acfWalk (l : List Byte) (stop : Nat) : Nat → Nat → List AcfMsg × Bool
  | 0, _ => ([], false)
  | n + 1, off =>
    if stop ≤ off then ([], false)
    else
      let ty := octetAt l off / 2
      let len := (be16 l off % 512) * 4
      if l.length < off + 2 ∨ len < acfHeader ty ∨ stop < off + len ∨ l.length < off + len then ([], true)
      else
        let r := acfWalk l stop n (off + len)
        ({ type := ty, off := off, len := len } :: r.1, r.2)

/-- The octets of data of a message, without its padding. -/
def acfData (l : List Byte) (m : AcfMsg) : List Byte :=
  slice l (m.off + acfHeader m.type) (m.len - acfHeader m.type - octetAt l (m.off + 2) / 64)

/-- The can_identifier of a CAN or CAN brief message, right-aligned. -/
def acfCanId (l : List Byte) (m : AcfMsg) : Nat := beNat (slice l (m.off + acfHeader m.type - 4) 4) % 2 ^ 29

/-- The DLC of a data length: of FD above 8 octets the code of the next larger length (R246). -/
def dlcOf (fdf : Bool) (n : Nat) : Nat :=
  if n ≤ 8 then n
  else if !fdf then 8
  else if n ≤ 12 then 9 else if n ≤ 16 then 10 else if n ≤ 20 then 11 else if n ≤ 24 then 12
  else if n ≤ 32 then 13 else if n ≤ 48 then 14 else 15

/-- The CAN frame of a CAN or CAN brief message. -/
def acfCan (l : List Byte) (m : AcfMsg) : CanFrame :=
  let b := octetAt l (m.off + 2)
  let fdf := b / 2 % 2 == 1
  let data := acfData l m
  { id := acfCanId l m, ide := b / 8 % 2 == 1, fdf := fdf, rtr := b / 16 % 2 == 1, brs := b / 4 % 2 == 1, esi := b % 2 == 1,
    dlc := dlcOf fdf data.length, data := data }

/-- The LIN frame of a LIN message; identifiers 0x3C and 0x3D use the classic checksum (R235), and the message names no
checksum: the enhanced one is taken for the others (log 26). -/
def acfLin (l : List Byte) (m : AcfMsg) : LinFrame :=
  let fid := octetAt l (m.off + 3) % 64
  { fid := fid, enhanced := fid != 0x3C && fid != 0x3D, data := acfData l m }

/-- The bus_id of a message. -/
def acfBus (l : List Byte) (m : AcfMsg) : Nat :=
  if m.type = 3 then octetAt l (m.off + 2) % 32 else octetAt l (m.off + 3) % 32

/-- Octets filled with zeros to whole quadlets, and how many were added. -/
def quadPad (l : List Byte) : List Byte × Nat :=
  let k := (4 - l.length % 4) % 4
  (l ++ List.replicate k 0, k)

/-- The first two octets of a message of this type and octet count. -/
def acfStart (ty len : Nat) : List Byte := beBytes 2 (ty * 512 + len / 4)

/-- The ACF message of a CAN frame (Table 8.5); `ts` is its message_timestamp, where mtv is set. -/
def acfOfCan (f : CanFrame) (brief : Bool) (bus : Nat) (ts : Option Nat) : List Byte :=
  let (body, pad) := quadPad f.data
  let mtv := ts.isSome && !brief
  let b := pad * 64 + mtv.toNat * 32 + f.rtr.toNat * 16 + f.ide.toNat * 8 + f.brs.toNat * 4 + f.fdf.toNat * 2 + f.esi.toNat
  let stamp := if brief then [] else beBytes 8 ((if mtv then ts.getD 0 else 0) % 2 ^ 64)
  acfStart (if brief then 2 else 1) ((if brief then 8 else 16) + body.length) ++ beBytes 1 b ++ beBytes 1 bus ++ stamp
    ++ beBytes 4 f.id ++ body

/-- The ACF message of a LIN frame (Table 8.5): the identifier in its protected form. -/
def acfOfLin (f : LinFrame) (bus : Nat) (ts : Option Nat) : List Byte :=
  let (body, pad) := quadPad f.data
  acfStart 3 (12 + body.length) ++ beBytes 1 (pad * 64 + ts.isSome.toNat * 32 + bus) ++ beBytes 1 (linPid f.fid)
    ++ beBytes 8 (ts.getD 0 % 2 ^ 64) ++ body

/-- A carrier (R249): DA, SA, C-tag where the stream has a VID, EtherType 0x22F0, NTSCF header, messages; zeros up to the 64 octets,
FCS included, below which a frame is a runt (R74, log 60). -/
def ntscf (da sa vid pcp stream seq : Nat) (msgs : List Byte) : List Byte :=
  let tag := if vid = 0 then [] else beBytes 2 0x8100 ++ beBytes 2 (pcp * 8192 + vid)
  let l := beBytes 6 da ++ beBytes 6 sa ++ tag ++ beBytes 2 0x22F0 ++ beBytes 1 0x82 ++ beBytes 2 (0x8000 + msgs.length % 2048)
    ++ beBytes 1 seq ++ beBytes 8 stream ++ msgs
  l ++ List.replicate (60 - l.length) 0

end Sys2Proof.Machine
end

