-- ==== Sys2Proof/Machine/Xwe.lean ====
section
/-! DEFINITION. The Cross-Witness Engine (chapter 9): taps, extraction of samples, comparators, violations and evidence,
and the checks of a commit of its page. -/

namespace Sys2Proof.Machine

/-- The XWE replaced. -/
def setXwe (d : Dev) (x : XweSt) : Dev := { d with xwe := x }

/-- A tap enters the FIFO of 64 entries (R259); while the XWE does not run it takes none (log 27). -/
def tapEnter (d : Dev) (tp : Tap) : Dev :=
  if !running d .xwe ∨ !domUp d Page.xwe.domain then d
  else if 64 ≤ d.xwe.fifo.length then raise (irq (cnt d .xwe 0x708 1) .xwe 2) .xwe 0
  else
    let q := d.xwe.fifo ++ [tp]
    setXwe d { d.xwe with fifo := q, high := max d.xwe.high q.length }

/-! ### Descriptors and fields (Table 9.1, R261 to R263) -/

/-- Word j of descriptor i in the active half of a view. -/
def xweDesc (vw : View) (i j : Nat) : W64 := tIn vw.tbl (0x03F00000 + i * 32 + j * 8)

/-- A field of an area, in the bit numbering of ENDIAN (R261); none where it does not lie wholly before `stop`. -/
def xweField (l : List Byte) (off stop pos len : Nat) (big : Bool) : Option Nat :=
  let last := off + (pos + len - 1) / 8 + 1
  if stop < last ∨ len = 0 then none
  else
    let area := slice l off (last - off)
    some (if big then beNat area / 2 ^ (8 * (last - off) - pos - len) % 2 ^ len else leNat area / 2 ^ pos % 2 ^ len)

/-- What a descriptor finds at a base: nothing where its match test fails, else its raw value, or none where the field
or the match word lies outside (R262). `ident`: the can_identifier of an ACF message. -/
def xweRead (w0 w1 w2 : W64) (l : List Byte) (off stop : Nat) (ident : Option Nat) : Option (Option Nat) :=
  let mask := fld w1 32 32
  let field := xweField l off stop (fld w0 16 11) (fld w0 32 6) (bit w0 38)
  if mask = 0 then some field
  else
    let mo := off + fld w2 0 16
    let word := match ident with
      | some i => some i
      | none => if stop < mo + 4 then none else some (beNat (slice l mo 4))
    match word with
    | none => some none
    | some x => if (x ^^^ fld w1 0 32) &&& mask = 0 then some field else none

/-- The content of a tap (R258): octets, and how many of them are carried. -/
def tapContent (tp : Tap) : List Byte × Nat :=
  match tp.can, tp.lin with
  | some f, _ => (f.data, min 64 f.data.length)
  | none, some f => (f.data, f.data.length)
  | none, none => (tp.octets, min 256 tp.octets.length)

/-- The ACF CAN messages among the first 16 of a carrier: identifier, first data octet, end (R263). -/
def tapMsgs (tp : Tap) (p : Parsed) : List (Nat × Nat × Nat) :=
  if tp.can.isSome || tp.lin.isSome || p.etype != 0x22F0 || !(p.sub == 0x82 || p.sub == 0x05) then []
  else
    let a := avtpAt tp.octets p.l2
    let ms := (acfWalk tp.octets (p.l2 + a.hdr + a.len) 16 (p.l2 + a.hdr)).1
    (ms.filter fun m => m.type == 1 || m.type == 2).filterMap fun m =>
      let off := m.off + acfHeader m.type
      if 256 < off then none
      else some (acfCanId tp.octets m, off, min 256 (off + (acfData tp.octets m).length))

/-- The ACF messages that the walk of R263 covers in a tap, for the time it takes (R260). -/
def tapWalked (tp : Tap) (p : Parsed) : Nat :=
  if tp.can.isSome || tp.lin.isSome || p.etype != 0x22F0 || !(p.sub == 0x82 || p.sub == 0x05) then 0
  else
    let a := avtpAt tp.octets p.l2
    (acfWalk tp.octets (p.l2 + a.hdr + a.len) 16 (p.l2 + a.hdr)).1.length

/-- What a descriptor reads of a tap: nothing, or its raw value, or none for XWE_SHORT (R262, R263). -/
def xweExtract (vw : View) (tp : Tap) (p : Parsed) (msgs : List (Nat × Nat × Nat)) (i : Nat) : Option (Option Nat) :=
  let w0 := xweDesc vw i 0
  let w1 := xweDesc vw i 1
  let w2 := xweDesc vw i 2
  let (l, stop) := tapContent tp
  let eth := tp.can.isNone && tp.lin.isNone
  let base := fld w0 14 2
  if base = 0 then xweRead w0 w1 w2 l 0 stop none
  else if base = 1 then
    if eth && (p.kind == 1 || p.kind == 2) then xweRead w0 w1 w2 l p.l2 stop none else none
  else if base = 2 then
    if eth && p.l4 && p.proto == 17 then xweRead w0 w1 w2 l (p.l4off + 8) stop none
    else if eth && p.l4 && p.proto == 6 then
      xweRead w0 w1 w2 l (p.l4off + 4 * (octetAt l (p.l4off + 12) / 16)) stop none
    else none
  else
    let rs := msgs.filterMap fun m => xweRead w0 w1 w2 l m.2.1 m.2.2 (some m.1)
    match (rs.filterMap id).getLast? with
    | some r => some (some r)
    | none => if rs = [] then none else some none

/-- Whether descriptor i reads a tap at all (R262): valid, WTAG, SRC, VERDICT_SEL. -/
def xweReads (vw : View) (tp : Tap) (i : Nat) : Bool :=
  let w0 := xweDesc vw i 0
  let vs := fld w0 40 2
  bit w0 63 && fld w0 0 8 == tp.wtag && (fld w0 8 6 == 31 || fld w0 8 6 == tp.src)
    && (vs == 0 || (vs == 1 && tp.verdict == 0) || (vs == 2 && tp.verdict != 0))

/-- The value of a sample (R264): raw × SCALE × 2^-24 + OFFSET × 2^-8 in units of 2^-16, toward minus infinity. -/
def xweValue (w0 w3 : W64) (raw : Nat) : Int :=
  let r : Int := if bit w0 39 then toSigned (fld w0 32 6) raw else raw
  r * toSigned 32 (fld w3 0 32) / 256 + toSigned 32 (fld w3 32 32) * 256

/-- One descriptor applied to a tap: the device, and the signal that took a sample with its time. -/
def xweSample (vw : View) (tp : Tap) (p : Parsed) (msgs : List (Nat × Nat × Nat)) (acc : Dev × List (Nat × Nat)) (i : Nat) :
    Dev × List (Nat × Nat) :=
  let (d, got) := acc
  let w0 := xweDesc vw i 0
  match xweExtract vw tp p msgs i with
  | none => (d, got)
  | some none => (cnt d .xwe 0x710 1, got)
  | some (some raw) =>
    if bit w0 45 ∧ fld (xweDesc vw i 2) 32 32 ≤ raw then (cnt d .xwe 0x718 1, got)
    else
      let dm := fld w0 42 3
      let tm := tp.times.getD dm 0
      let old := kvD d.xwe.sigs i {}
      let s : XweSig := { has := true, val := xweValue w0 (xweDesc vw i 3) raw, time := tm, dom := dm,
                          sync := tp.syncs.getD dm true, verdict := tp.verdict, count := (old.count + 1) % 2 ^ 64 }
      (setXwe (cnt d .xwe 0x700 1) { d.xwe with sigs := kvPut d.xwe.sigs i s }, got ++ [(i, tm)])

/-! ### Comparators (R266 to R268) -/

/-- The registers of comparator c in a view: CTRL, CORR, TOL. -/
def cmpReg (d : Dev) (vw : View) (c j : Nat) : W64 := va d vw .xwe (0x100 + c * 0x18 + j * 8)

/-- The input signals of a comparator: A, then its references. -/
def cmpInputs (ctrl : W64) : List Nat :=
  if bit ctrl 0 then [fld ctrl 8 8, fld ctrl 16 8, fld ctrl 24 8, fld ctrl 32 8] else [fld ctrl 8 8, fld ctrl 16 8]

/-- The domain of a comparator: that of its signal A. -/
def cmpDom (vw : View) (ctrl : W64) : Nat := fld (xweDesc vw (fld ctrl 8 8) 0) 42 3

/-- The median of three values. -/
def median3 (a b c : Int) : Int := max (min a b) (min (max a b) c)

/-- What an evaluation finds (R266): rc and dev where nothing is stale, the value of A where it is fresh, how many
references are fresh. -/
structure CmpEval where
  rcDev : Option (Int × Int)
  a     : Int
  sync  : Bool
  fresh : Nat
deriving DecidableEq, Repr

/-- The condition of R266 at time t. -/
def cmpCond (d : Dev) (vw : View) (c t : Nat) : CmpEval :=
  let ctrl := cmpReg d vw c 0
  let corr := cmpReg d vw c 1
  let tol := cmpReg d vw c 2
  let win := fld tol 32 12 * 65536000000
  let get (i : Nat) : Option Int :=
    let s := kvD d.xwe.sigs i {}
    if s.has && decide (t - s.time ≤ win) then some s.val else none
  let refs := ((cmpInputs ctrl).drop 1).filterMap get
  let a := get (fld ctrl 8 8)
  let r : Option Int := if bit ctrl 0 then
      (match refs with
       | [x, y, z] => some (median3 x y z)
       | [x, y] => some ((x + y) / 2)
       | _ => none)
    else refs.head?
  let rcDev := match a, r with
    | some av, some rv =>
      let rc := toSigned 32 (fld corr 0 32) * rv / 16777216 + toSigned 32 (fld corr 32 32) * 256
      some (rc, av - rc)
    | _, _ => none
  { rcDev := rcDev, a := a.getD 0, sync := (kvD d.xwe.sigs (fld ctrl 8 8) {}).sync, fresh := refs.length }

/-- Seconds and nanoseconds of a time as in Table 9.2. -/
def witTime (x : Nat) : List Byte := leBytes 4 (tSec x) ++ leBytes 4 (tNs x)

/-- The XWE generation a view belongs to: the page's GEN, or the one before for a tap of the previous generation. -/
def xweGen (d : Dev) (vw : View) : Nat :=
  if vw.epoch < d.xwe.ep then (genOf d .xwe + 2 ^ 32 - 1) % 2 ^ 32 else genOf d .xwe

/-- A record of evidence on its way to the Scarab, whose queue holds 16 (R272, R273). -/
def witRecord (d : Dev) (vw : View) (c ev onset t : Nat) (e : CmpEval) : Dev :=
  let ctrl := cmpReg d vw c 0
  if !bit ctrl 3 then d
  else if 16 ≤ (d.manQ.filter fun r => r.type == 7).length then irq (cnt d .xwe 0x728 1) .xwe 3
  else
    let rc := match e.rcDev with | some x => x.1 | none => 0
    let flags := e.sync.toNat + e.rcDev.isNone.toNat * 2 + (bit ctrl 0).toNat * 4 + e.fresh * 8
    let body := leBytes 1 c ++ leBytes 1 ev ++ leBytes 1 flags ++ leBytes 1 (cmpDom vw ctrl) ++ leBytes 4 (xweGen d vw)
      ++ witTime onset ++ witTime t ++ leBytes 8 (ofSigned 64 e.a) ++ leBytes 8 (ofSigned 64 rc)
    { d with manQ := d.manQ ++ [{ type := 7, source := 2, body := body }] }

/-- violation(c, t) of R272. -/
def xweViolation (d : Dev) (vw : View) (c onset t : Nat) (e : CmpEval) : Dev :=
  let d1 := wb (wb d .xwe 0xd0 c true) .xwe 0xd8 c true
  witRecord (irq (cnt d1 .xwe 0x720 1) .xwe 0) vw c 1 onset t e

/-- violation_end(c, t) of R272. -/
def xweViolEnd (d : Dev) (vw : View) (c onset t : Nat) (e : CmpEval) : Dev :=
  witRecord (irq (wb d .xwe 0xd0 c false) .xwe 1) vw c 2 onset t e

/-- evaluate(c, t) of R268. -/
def xweEval (d : Dev) (vw : View) (t c : Nat) : Dev :=
  let ctrl := cmpReg d vw c 0
  let tol := cmpReg d vw c 2
  let e := cmpCond d vw c t
  let persist := fld tol 44 12 * 655360000000
  let clear := fld tol 56 8 * 655360000000
  let lim (rc : Int) : Int := (fld tol 0 24 : Int) * 256 + (fld tol 24 8 : Int) * rc.natAbs / 256
  let v : Option Bool := match e.rcDev with
    | some (rc, dev) => some (decide (lim rc < (dev.natAbs : Int)))
    | none => if fld ctrl 1 2 = 1 then some true else if fld ctrl 1 2 = 2 then some false else none
  let s0 := kvD d.xwe.cmps c {}
  let s := { s0 with stale := e.rcDev.isNone, dev := match e.rcDev with | some x => x.2 | none => s0.dev }
  let put (d : Dev) (s : XweCmp) : Dev := setXwe d { d.xwe with cmps := kvPut d.xwe.cmps c s }
  match v with
  | none => put d s
  | some true =>
    let s1 := if s.state = 0 then { s with since := none, state := 1, onset := some t } else { s with since := none }
    let onset := s1.onset.getD t
    if s1.state = 1 ∧ persist < t - onset then xweViolation (put d { s1 with state := 2 }) vw c onset t e
    else put d s1
  | some false =>
    let since := s.since.getD t
    let s1 := { s with since := some since }
    if clear ≤ t - since then
      let d1 := put d { s1 with state := 0 }
      if s.state = 2 then xweViolEnd d1 vw c (s.onset.getD t) t e else d1
    else put d s1

/-- The valid comparators of a view that satisfy a test, in ascending order. -/
def cmpsOf (d : Dev) (vw : View) (f : W64 → Bool) : List Nat :=
  (List.range 64).filter fun c => bit (cmpReg d vw c 0) 63 && f (cmpReg d vw c 0)

/-- The XWE is occupied for so many cycles of CLK_EDGE more, from its next one on (R260, R267). -/
def xweBusy (d : Dev) (cycles : Nat) : Dev :=
  setXwe d { d.xwe with busyTo := max d.xwe.busyTo ((d.now + 9) / 10 * 10) + cycles * 10 }

/-- A tick of a domain (R267): every comparator of the domain at the tick instant, each in 1 cycle of CLK_EDGE. -/
def xweTickEval (d : Dev) (dm t : Nat) : Dev :=
  let vw := curView d
  let cs := cmpsOf d vw fun ctrl => cmpDom vw ctrl == dm
  xweBusy (cs.foldl (fun d c => xweEval d vw t c) d) cs.length

/-- The ticks that wait behind no tap are evaluated. -/
def xweTicksDue (d : Dev) : Dev :=
  let due := d.xwe.ticks.filter fun k => k.2.2 == 0
  let d1 := setXwe d { d.xwe with ticks := d.xwe.ticks.filter fun k => k.2.2 != 0 }
  due.foldl (fun d k => xweTickEval d k.1 k.2.1) d1

/-- The refill of the XWE page ends for software once no tap of the previous generation waits (R260). -/
def xweRelease (d : Dev) : Dev :=
  if d.xwe.refDone ∧ d.xwe.fifo.all (fun tp => d.xwe.ep ≤ tp.epoch) then
    refillEnd (setXwe d { d.xwe with refDone := false }) .xwe
  else d

/-- The XWE takes its next tap (R260), parsed as its own quay parsed it: samples first, then the comparators of the signals that took one. While a tap occupies
it, it takes no other: 4 cycles of CLK_EDGE, 1 for each message walked, 2 for each sample, 1 for each comparator. -/
def xweTapOp (d : Dev) : Dev :=
  match d.xwe.fifo with
  | [] => d
  | tp :: rest =>
    if !running d .xwe ∨ d.now < d.xwe.busyTo then d
    else
      let vw := viewOf d tp.epoch
      let p := { parse tp.octets (parseCfg tp.pctl) with kind := tp.kind }
      let d0 := setXwe d { d.xwe with fifo := rest, ticks := d.xwe.ticks.map fun k => (k.1, k.2.1, k.2.2 - 1) }
      let descs := (List.range 256).filter (xweReads vw tp)
      let (d1, got) := descs.foldl (xweSample vw tp p (tapMsgs tp p)) (d0, [])
      let cmps := cmpsOf d1 vw fun ctrl => (cmpInputs ctrl).any fun i => got.any (·.1 == i)
      let d2 := cmps.foldl (fun d c =>
        match got.find? (fun g => (cmpInputs (cmpReg d vw c 0)).contains g.1) with
        | some g => xweEval d vw g.2 c
        | none => d) d1
      let walk := if descs.any (fun i => fld (xweDesc vw i 0) 14 2 == 3) then tapWalked tp p else 0
      xweRelease (xweTicksDue (xweBusy d2 (4 + walk + 2 * got.length + cmps.length)))

/-- The ticks of the domains `dms` are reckoned from now on: the XWE begins to run, TICK_MS changes, or a domain begins to count. -/
def xweTickFrom (d : Dev) (dms : List Nat) (time : Nat → Nat) : Dev :=
  setXwe d { d.xwe with lastTick := dms.foldl (fun l i => kvPut l i (time i)) d.xwe.lastTick }

/-- The ticks of every domain are reckoned from its present time on. -/
def xweTicksAnew (d : Dev) : Dev := xweTickFrom d (List.range 5) (timeOf d)

/-- A multiple of TICK_MS in a domain's time is reached (R267): behind the taps that wait. -/
def xweTickOp (d : Dev) (dm : Nat) : Dev :=
  let per := af d .xwe 0x80 0 10 * 65536000000
  let tt := if per = 0 then 0 else timeOf d dm / per * per
  if !running d .xwe ∨ !domOn d dm ∨ per = 0 then d
  else if (match kvGet d.xwe.lastTick dm with | some x => decide (tt ≤ x) | none => false) = true then d
  else
    let x := { d.xwe with lastTick := kvPut d.xwe.lastTick dm tt, ticks := d.xwe.ticks ++ [(dm, tt, d.xwe.fifo.length)] }
    xweTicksDue (setXwe d x)

/-- A step of a domain moves sample times, ONSET, FALSE_SINCE and the times of queued taps (R269); ticks passed over
are not evaluated. -/
def xweStep (d : Dev) (dm : Nat) (delta : Int) : Dev :=
  let mv (x : Nat) : Nat := ((x : Int) + delta).toNat
  let vw := curView d
  let sigs := d.xwe.sigs.map fun e => (e.1, if e.2.dom == dm then { e.2 with time := mv e.2.time } else e.2)
  let cmps := d.xwe.cmps.map fun e =>
    (e.1, if cmpDom vw (cmpReg d vw e.1 0) == dm then { e.2 with onset := e.2.onset.map mv, since := e.2.since.map mv } else e.2)
  let fifo := d.xwe.fifo.map fun tp => { tp with times := tp.times.set dm (mv (tp.times.getD dm 0)) }
  let ticks := d.xwe.ticks.map fun k => if k.1 == dm then (k.1, mv k.2.1, k.2.2) else k
  let per := af d .xwe 0x80 0 10 * 65536000000
  let now := timeOf d dm
  let last := if per = 0 then d.xwe.lastTick else kvPut d.xwe.lastTick dm (now / per * per)
  setXwe d { d.xwe with sigs := sigs, cmps := cmps, fifo := fifo, ticks := ticks, lastTick := last }

/-- A power-up of PD_EDGE and a block soft reset (R270): samples, FIFO and comparators; the numbers of samples stay. -/
def xweClear (d : Dev) : Dev :=
  setXwe d { ep := d.epoch, sigs := d.xwe.sigs.map fun (e : Nat × XweSig) => (e.1, ({ count := e.2.count } : XweSig)) }

/-! ### The page (R138, R265, R271) -/

/-- XWE_TAP_STAT, the windows onto a signal and onto a comparator (Tables 9.4, 9.5). -/
def xweView (d : Dev) (off : Nat) : Option W64 :=
  let s := kvD d.xwe.sigs (rf d .xwe 0x90 0 8) {}
  let ci := rf d .xwe 0xb8 0 6
  let c := kvD d.xwe.cmps ci {}
  if off = 0x88 then some (mkWord [(0, d.xwe.fifo.length), (8, d.xwe.high)])
  else if off = 0x98 then some (BitVec.ofNat 64 (ofSigned 64 s.val))
  else if off = 0xa0 then some (BitVec.ofNat 64 (tSec s.time))
  else if off = 0xa8 then some (if s.has then tNsWord s.time ||| mkWord [(48, s.sync.toNat), (49, s.verdict), (63, 1)] else 0)
  else if off = 0xb0 then some (BitVec.ofNat 64 s.count)
  else if off = 0xc0 then
    some (mkWord [(0, c.state), (2, c.since.isSome.toNat), (3, c.stale.toNat),
                  (32, (match c.onset with | some t => t / 65536000000 | none => 0) % 2 ^ 32)])
  else if off = 0xc8 then some (BitVec.ofNat 64 (ofSigned 64 c.dev))
  else none

/-- Whether the shadow of the XWE page holds only valid values (R265, R271). -/
def xweShadowValid (d : Dev) : Bool :=
  let w (i : Nat) : W64 := trd d (0x03D00000 + i * 32)
  let sig (i : Nat) : Bool := bit (w i) 63
  let live := (List.range 256).filter sig
  let tick := rf d .xwe 0x80 0 10
  let descOk (i : Nat) : Bool :=
    let len := fld (w i) 32 6
    let dm := fld (w i) 42 3
    len != 0 && decide (len ≤ 32) && decide (fld (w i) 16 11 + len ≤ 2048) && fld (w i) 40 2 != 3 && decide (dm ≤ 4) && domOn d dm
  let cmpOk (c : Nat) : Bool :=
    let ctrl := rd d .xwe (0x100 + c * 0x18)
    let ins := cmpInputs ctrl
    !bit ctrl 63 || (fld ctrl 1 2 != 3 && rf d .xwe (0x110 + c * 0x18) 32 12 != 0 && ins.all sig
      && ins.all (fun i => fld (w i) 42 3 == fld (w (fld ctrl 8 8)) 42 3))
  live.all descOk && live.all (fun i => decide ((live.filter fun j => fld (w j) 0 8 == fld (w i) 0 8).length ≤ 8))
    && (List.range 64).all cmpOk && decide (1 ≤ tick) && decide (tick ≤ 1000)

/-- IN_USE_XWE (R271): a valid descriptor of the active generation names the domain. -/
def xweUses (d : Dev) (dm : Nat) : Bool :=
  (List.range 256).any fun i => bit (xweDesc (curView d) i 0) 63 && fld (xweDesc (curView d) i 0) 42 3 == dm

end Sys2Proof.Machine
end

