-- ==== Sys2Proof/Machine/Time.lean ====
section
/-! DEFINITION. The time base as software drives it (R199 to R208), timed outputs (R210 to R212) and capture inputs
(R213, R214). Timestamps of ports lie in Egress. -/

namespace Sys2Proof.Machine

/-- A register of domain i on TIME page 0. -/
def tReg (i off : Nat) : Nat := 0x100 + i * 0x40 + off

/-- The first CLK_TS edge at least 8 cycles of CLK_SYS after now (R201, R203, R206). -/
def leadEdge (d : Dev) : Nat := (d.now + 16 + 3) / 4

/-- The references to a domain, bits [12:8] of its STAT in order (R202, Table 7.3). -/
def domUses (d : Dev) (i : Nat) : List Bool :=
  [(List.range 8).any fun n => slotState d n == 2 && (slotTime d n).2 == i,
   (List.range 27).any fun p => (match (gatesOf d p).oper with | some g => g.dom == i | none => false)
     || (match (gatesOf d p).pend with | some g => g.dom == i | none => false),
   d.time.touts.any fun e => (e.2.state == 1 || e.2.state == 2) && e.2.dom == i,
   (List.range 8).any fun m => rb d (.time 1) (0x200 + m * 0x18) 0 && rf d (.time 1) (0x200 + m * 0x18) 3 3 == i,
   xweUses d i]

/-- TIME_D_d_STAT as it reads: IN_USE bits follow the references (Table 7.3). -/
def timeStat (d : Dev) (i : Nat) : W64 :=
  (rd d (.time 0) (tReg i 0x30) &&& maskOf 0 3) ||| mkWord ((domUses d i).zipIdx.map fun u => (8 + u.2, u.1.toNat))

/-- An accepted write that restarts the SYNC watchdog of a domain (R205). -/
def syncRestart (d : Dev) (i : Nat) : Dev := setDom d i { dom d i with wdFrom := d.now }

/-- An event of a domain counter at a CLK_TS edge to come. -/
def domEv (d : Dev) (i e : Nat) (ev : TimeEv) : Dev :=
  setDom d i { dom d i with evs := (dom d i).evs ++ [(e, ev)] }

/-- TIME_D_d_RATE written (R201). -/
def rateOp (d : Dev) (i : Nat) (v : W64) : Dev :=
  let r := toSigned 40 (fld v 0 40)
  if r < -549755813 ∨ 549755813 < r then invalidValue d (.time 0)
  else syncRestart (domEv (wr d (.time 0) (tReg i 8) (v &&& maskOf 0 40)) i (leadEdge d) (.rate r)) i

/-- The snapshot of a domain reads 0 while the domain is disabled (R202). -/
def snapClear (d : Dev) (i : Nat) : Dev := wr (wr d (.time 0) (0xb0 + i * 0x10) 0) (.time 0) (0xb8 + i * 0x10) 0

/-- TIME_D_d_CTRL written (R202, R205): a refused write changes nothing. A domain that is disabled drops what is due to it. -/
def timeCtrlOp (d : Dev) (i : Nat) (v : W64) : Dev :=
  let w := v &&& (maskOf 0 2 ||| maskOf 16 16)
  let was := rb d (.time 0) (tReg i 0) 0
  if was ∧ !bit v 0 then
    if (domUses d i).any id then invalidValue d (.time 0)
    else
      let x := dom d i
      let d1 := setDom (wr d (.time 0) (tReg i 0) w) i
        { x with on := false, ctr := 0, evs := x.evs.filter (fun e => e.2 != .load), steps := [] }
      let d2 := snapClear (wb d1 (.time 0) (tReg i 0x30) 2 false) i
      if bit v 1 then syncRestart d2 i else d2
  else if !was ∧ bit v 0 then
    let d1 := domEv (wr d (.time 0) (tReg i 0) (setBit w 1 false)) i (leadEdge d) .load
    syncRestart (xweTickFrom d1 [i] fun _ => locNow d) i
  else
    let d1 := wr d (.time 0) (tReg i 0) w
    if bit v 1 then syncRestart d1 i else d1

/-- TIME_D_d_CMD written (R203, R204): the operands are latched with the command. One written while a step is pending applies at the edge
after that step's. -/
def timeCmdOp (d : Dev) (i : Nat) (v : W64) : Dev :=
  let ns := rd d (.time 0) (tReg i 0x18)
  if (bit v 0 && bit v 1) || !rb d (.time 0) (tReg i 0) 0 || (bit v 0 && decide (1000000000 ≤ fld ns 0 32)) then
    invalidValue d (.time 0)
  else if !bit v 0 && !bit v 1 then syncRestart d i
  else
    let d1 := syncRestart d i
    let x := dom d1 i
    let e := match x.steps.getLast? with
      | some s => if s.edge + 1 ≤ d.now / 4 then leadEdge d else s.edge + 1
      | none => leadEdge d
    let val : Int := if bit v 0 then (tMake (rd d (.time 0) (tReg i 0x10)).toNat (fld ns 0 32) (fld ns 32 16) : Nat)
      else toSigned 64 (rd d (.time 0) (tReg i 0x20)).toNat
    wb (setDom d1 i { x with steps := x.steps ++ [{ edge := e, abs := bit v 0, val := val }] }) (.time 0) (tReg i 0x30) 2 true

/-- The counter of a domain after a step that is due, or nothing where the result would be less than 0 (R203). -/
def stepCtr (d : Dev) (x : TimeDom) (s : TimeStep) : Option Nat :=
  if s.abs then some ((s.val.toNat) * 2 ^ 40 + (d.now / 4 - s.edge) * domInc x.rate)
  else
    let r := (x.ctr : Int) + s.val * (2 ^ 40 : Nat)
    if r < 0 then none else some r.toNat

/-! ### Timed outputs (R210 to R212) -/

/-- A timed output. -/
def tout (d : Dev) (n : Nat) : Tout := kvD d.time.touts n {}

/-- A timed output replaced; STATE and PULSES follow. -/
def setTout (d : Dev) (n : Nat) (x : Tout) : Dev :=
  let d1 := { d with time := { d.time with touts := kvPut d.time.touts n x } }
  wf (wf d1 (.time 1) (0xa8 + n * 0x30) 0 2 x.state) (.time 1) (0xa8 + n * 0x30) 32 32 x.pulses

/-- ARM_REJECT of R210, checked in this order (log 28): busy, domain, time, too early, period, width; 0 where ARM is accepted. -/
def toutReject (d : Dev) (n : Nat) : Nat :=
  let o := 0x80 + n * 0x30
  let c := rd d (.time 1) o
  let dm := fld c 2 3
  let ns := fld (rd d (.time 1) (o + 0x10)) 0 32
  let start := tMake (rd d (.time 1) (o + 8)).toNat ns (fld (rd d (.time 1) (o + 0x10)) 32 16)
  let per := rf d (.time 1) (o + 0x18) 0 40
  let wid := rf d (.time 1) (o + 0x20) 0 32
  if (tout d n).state = 1 ∨ (tout d n).state = 2 then 6
  else if 4 < dm ∨ !domOn d dm then 2
  else if 1000000000 ≤ ns then 3
  else if start < timeOf d dm + 65536000 then 1
  else if bit c 5 ∧ per < 100 then 4
  else if wid < 10 ∨ (bit c 5 ∧ per < wid + 10) then 5 else 0

/-- STOP of an output: idle at once, ending any pulse (R211). -/
def toutStopOp (d : Dev) (n : Nat) : Dev :=
  let x := tout d n
  let d1 := setTout d n { x with state := 0, active := false }
  if x.active then emit d1 (.tout n false) else d1

/-- ARM of an output (R210). -/
def toutArmOp (d : Dev) (n : Nat) : Dev :=
  let o := 0x80 + n * 0x30
  let r := toutReject d n
  let d1 := wf d (.time 1) (o + 0x28) 4 3 r
  if r ≠ 0 then d1
  else
    let c := rd d (.time 1) o
    let st := tMake (rd d (.time 1) (o + 8)).toNat (rf d (.time 1) (o + 0x10) 0 32) (rf d (.time 1) (o + 0x10) 32 16)
    setTout d1 n { state := 1, dom := fld c 2 3, periodic := bit c 5, lowIdle := !bit c 6, start := st, next := st,
                   period := rf d (.time 1) (o + 0x18) 0 40 * 65536, width := rf d (.time 1) (o + 0x20) 0 32 * 65536,
                   pulses := (tout d n).pulses }

/-- A write of TOUT_n_CTRL: its fields, then STOP, then ARM (log 28). -/
def toutCtrlOp (d : Dev) (n : Nat) (v : W64) : Dev :=
  let d1 := writeFields d (.time 1) (0x80 + n * 0x30) v
  let d2 := if bit v 1 then toutStopOp d1 n else d1
  if bit v 0 then toutArmOp d2 n else d2

/-- An output goes active; the pulse ends WIDTH later in domain time. -/
def toutRise (d : Dev) (n : Nat) (x : Tout) (at0 : Nat) : Dev :=
  emit (setTout d n { x with state := 2, active := true, next := at0 + x.width, pulses := (x.pulses + 1) % 2 ^ 32 }) (.tout n true)

/-- An output returns to its idle level: a one-shot output is done (R211). -/
def toutFall (d : Dev) (n : Nat) (x : Tout) (next : Nat) : Dev :=
  let d1 := emit (setTout d n { x with state := if x.periodic then 2 else 3, active := false, next := next }) (.tout n false)
  if x.periodic then d1 else irq d1 (.time 1) n

/-- A programmed edge of an output is reached, within the 1 ns of R211. -/
def toutEdgeOp (d : Dev) (n : Nat) : Dev :=
  let x := tout d n
  if (x.state ≠ 1 ∧ x.state ≠ 2) ∨ timeOf d x.dom + 65536 < x.next then d
  else if x.active then toutFall d n x (x.next - x.width + x.period) else toutRise d n x x.next

/-- What a step of its domain from time `t0` does to an output (R212). -/
def toutStep (d : Dev) (i t0 n : Nat) : Dev :=
  let x := tout d n
  let t1 := timeOf d i
  if x.dom ≠ i ∨ (x.state ≠ 1 ∧ x.state ≠ 2) then d
  else
    let skipped := decide (t0 < t1) && (if x.periodic || x.active then decide (x.next ≤ t1) else decide (x.next < t1))
    let d1 := if skipped then irq (wb d (.time 1) (0xa8 + n * 0x30) 8 true) (.time 1) n else d
    if x.periodic then
      let k := if t1 < x.start then 0 else (t1 - x.start) / x.period + 1
      let nx := x.start + k * x.period
      if x.active then toutFall d1 n x nx else setTout d1 n { x with next := nx }
    else if x.active then toutFall d1 n x x.next
    else if x.start ≤ t1 then toutRise d1 n x t1 else d1

/-! ### The step itself (R203, R188, R212, R269) -/

/-- What follows a changed time of domain i: gates, outputs, XWE times. `t0`: its time before. -/
def afterStep (d : Dev) (i t0 : Nat) : Dev :=
  let ports := (List.range 27).filter fun p =>
    (match (gatesOf d p).oper with | some g => g.dom == i | none => false)
      || (match (gatesOf d p).pend with | some g => g.dom == i | none => false)
  let d1 := ports.foldl (fun d p => gateEventOp (gateConfigOp d p) p) d
  let d2 := (List.range 8).foldl (fun d n => toutStep d i t0 n) d1
  xweStep d2 i ((timeOf d2 i : Int) - t0)

/-- The CLK_TS edge of the oldest pending step of domain i (R203). -/
def stepApplyOp (d : Dev) (i : Nat) : Dev :=
  let x := dom d i
  match x.steps with
  | [] => d
  | s :: rest =>
    if d.now / 4 < s.edge then d
    else
      let x1 := { x with steps := rest }
      let d1 := wb (setDom d i x1) (.time 0) (tReg i 0x30) 2 (decide (rest ≠ []))
      match stepCtr d x1 s with
      | none => wb d1 (.time 0) (tReg i 0x30) 1 true
      | some c =>
        let t0 := timeOf d i
        let d2 := cbsAll d1
        let d3 := irq (cnt (setDom d2 i { x1 with ctr := c }) (.time 0) (tReg i 0x38) 1) (.time 0) (4 + i)
        afterStep d3 i t0
where
  /-- Credits run up to the step on the gates before it. -/
  cbsAll (d : Dev) : Dev := (List.range 26).foldl (fun d p => cbsSync d p) d

/-- SYNC_WD_MS has passed since the last accepted write (R205). -/
def syncWatchdogOp (d : Dev) (i : Nat) : Dev :=
  let wd := rf d (.time 0) (tReg i 0) 16 16
  if wd = 0 ∨ !rb d (.time 0) (tReg i 0) 1 ∨ d.now < (dom d i).wdFrom + wd * msTicks then d
  else irq (wb (wb d (.time 0) (tReg i 0) 1 false) (.time 0) (tReg i 0x30) 0 true) (.time 0) i

/-- TIME_SNAP.TRIG (R206): joins a snapshot that is pending. -/
def snapOp (d : Dev) (v : W64) : Dev :=
  if !bit v 0 then d
  else
    let d1 := wb d (.time 0) 0x90 1 false
    match d1.time.snapDue with
    | some _ => d1
    | none => { d1 with time := { d1.time with snapDue := some (leadEdge d) } }

/-- The duplicate counters differ (R208). -/
def ctrMismatchOp (d : Dev) : Dev := raise d (.time 0) 0

/-! ### Capture inputs (R213, R214) -/

/-- An entry of a capture FIFO (Table 7.4). -/
def tcapEntry (d : Dev) (dm : Nat) (rising : Bool) : List W64 :=
  let l := locNow d
  let x := timeOf d dm
  [tNsWord l ||| mkWord [(48, rising.toNat), (63, 1)], BitVec.ofNat 64 (tSec l % 2 ^ 48),
   tNsWord x ||| mkWord [(48, dm), (51, (syncOf d dm).toNat)], BitVec.ofNat 64 (tSec x)]

/-- An edge at a capture input. -/
def tcapEdgeOp (d : Dev) (m : Nat) (rising : Bool) : Dev :=
  let o := 0x200 + m * 0x18
  let c := rd d (.time 1) o
  let sel := fld c 1 2
  if !bit c 0 ∨ !(sel == 3 || (sel == 1 && rising) || (sel == 2 && !rising)) then d
  else
    let q := kvD d.time.tcaps m []
    let early := match kvGet d.time.tcapAt m with | some t => decide (locNow d < t + 655360) | none => false
    if early then cnt d (.time 1) (o + 0x10) 1
    else if 8 ≤ q.length then irq (wb (cnt d (.time 1) (o + 0x10) 1) (.time 1) (o + 8) 4 true) (.time 1) (16 + m)
    else
      let t := { d.time with tcaps := kvPut d.time.tcaps m (q ++ [tcapEntry d (fld c 3 3) rising]),
                             tcapAt := kvPut d.time.tcapAt m (locNow d) }
      irq (wf { d with time := t } (.time 1) (o + 8) 0 4 (q.length + 1)) (.time 1) (8 + m)

/-- TCAP_m_CTRL written: an enable with DOMAIN 5 to 7 is refused (R214). -/
def tcapCtrlOp (d : Dev) (m : Nat) (v : W64) : Dev :=
  if bit v 0 ∧ 5 ≤ fld v 3 3 then invalidValue d (.time 1) else writeFields d (.time 1) (0x200 + m * 0x18) v

/-- Every timed output idle and every capture FIFO empty: a soft reset of TIME, a power-down of its domain (R211, R214). -/
def timedClear (d : Dev) : Dev :=
  let d1 := (List.range 8).foldl (fun d n => setTout (toutStopOp d n) n {}) d
  let d2 := (List.range 8).foldl (fun d m => wf d (.time 1) (0x208 + m * 0x18) 0 4 0) d1
  { d2 with time := { d2.time with tcaps := [], tcapAt := [] } }

/-- A drain read of a capture FIFO (R198, R214). -/
def tcapDrain (d : Dev) (m addr width : Nat) : W64 × Dev :=
  match kvD d.time.tcaps m [] with
  | (w :: ws) :: r =>
    if width = 3 then
      let q := if ws = [] then r else ws :: r
      let t := { d.time with tcaps := if q = [] then kvDel d.time.tcaps m else kvPut d.time.tcaps m q }
      (w, wf { d with time := t } (.time 1) (0x208 + m * 0x18) 0 4 q.length)
    else (BitVec.ofNat 64 (fld w (if addr / 4 % 2 = 1 then 32 else 0) 32), d)
  | _ => (0, d)

end Sys2Proof.Machine
end

