-- ==== Sys2Proof/Machine/Can.lean ====
section
/-! DEFINITION. CAN controllers (R224 to R234): reception, the transmit area, error confinement, CANsec, and the checks
of enabling a controller and of a commit of its page. -/

namespace Sys2Proof.Machine

/-- A CAN channel and its page. -/
def canFin (k : Nat) : Fin 24 := ⟨k % 24, Nat.mod_lt _ (by decide)⟩
def canPg (k : Nat) : Page := .can (canFin k)
def can (d : Dev) (k : Nat) : CanSt := kvD d.cans k {}
def setCan (d : Dev) (k : Nat) (x : CanSt) : Dev := { d with cans := kvPut d.cans k x }

/-- Periods of CLK_FAB in a cycle of CLK_EDGE (6.25 ns). -/
def edgeTicks : Nat := 10

/-- Restricted operation of a controller, for any of its causes (R229). -/
def canRestricted (d : Dev) (k : Nat) : Bool :=
  let x := can d k
  rb d (canPg k) 0x80 3 || claimGated d || x.edgeChk || x.sleepSeq || x.yielded || halted d

/-- Since when a controller starts no frame for a sleep sequence or a yield, `x` being what it was: from now, where neither ran. -/
def canQuiet (d : Dev) (k : Nat) (x : CanSt) : Dev :=
  if x.sleepSeq || x.yielded then d else setCan d k { can d k with quietAt := d.now }

/-- CAN_STAT.STATE: 0 error active, 1 error passive, 2 bus-off, 3 integrating. -/
def canState (d : Dev) (k : Nat) : Nat := rf d (canPg k) 0xc0 16 2

/-- PROTO of a controller, and whether it includes the format of a frame (R231). -/
def canProto (d : Dev) (k : Nat) : Nat := rf d (canPg k) 0x80 0 2
def canHasFormat (d : Dev) (k : Nat) (f : CanFrame) : Bool :=
  if f.xlf then canProto d k == 2 else if f.fdf then decide (1 ≤ canProto d k) else true

/-- Blocks of message RAM that a frame takes (R227). -/
def canBlocks (f : CanFrame) : Nat := 1 + (f.data.length + 31) / 32

/-- Blocks of the receive FIFO of a channel in use: frames that the Ferry has not taken. -/
def rxBlocks (d : Dev) (k : Nat) : Nat :=
  ((d.ferry.ready.filter fun w => w.src == 32 + k && w.stream.isNone).map fun w =>
    match w.can with | some f => canBlocks f | none => 0).sum

/-- CAN_STAT as it reads (Table 8.19). -/
def canStat (d : Dev) (k : Nat) : W64 :=
  (rd d (canPg k) 0xc0 &&& (maskOf 0 18 ||| maskOf 24 8))
    ||| mkWord [(18, (canRestricted d k).toNat), (19, (claimGated d).toNat), (32, rxBlocks d k), (48, (can d k).tx.length)]

/-! ### Enabling (R225, Table 8.18) -/

/-- Whether a bit-timing register holds valid fields: least TSEG1, most TSEG1. -/
def btOk (w : W64) (lo hi : Nat) : Bool :=
  let brp := fld w 0 6
  let s1 := fld w 8 9
  let s2 := fld w 24 8
  let sjw := fld w 32 8
  decide (1 ≤ brp ∧ brp ≤ 32 ∧ lo ≤ s1 ∧ s1 ≤ hi ∧ 1 ≤ s2 ∧ s2 ≤ 128 ∧ 1 ≤ sjw ∧ sjw ≤ 128 ∧ sjw ≤ s1 ∧ sjw ≤ s2)

/-- Cycles of CLK_EDGE in a bit (R225). -/
def bitCycles (w : W64) : Nat := fld w 0 6 * (1 + fld w 8 9 + fld w 24 8)

/-- Whether a controller may be enabled (R225). -/
def canEnableOk (d : Dev) (k : Nat) : Bool :=
  let pg := canPg k
  let mode := rd d pg 0x80
  let n := rd d pg 0x88
  let fd := rd d pg 0x90
  let xl := rd d pg 0x98
  let pwm := rd d pg 0xa0
  let proto := fld mode 0 2
  let tms := bit mode 6
  proto != 3 && btOk n 2 256 && btOk fd 1 255 && btOk xl 1 255 && decide (160 ≤ bitCycles n)
    && (proto == 0 || decide (20 ≤ bitCycles fd)) && (proto != 2 || decide ((if tms then 8 else 16) ≤ bitCycles xl))
    && (!tms || (fld pwm 0 6 != 0 && fld pwm 8 6 != 0 && fld pwm 16 6 != 0 && fld pwm 0 6 + fld pwm 8 6 == bitCycles xl))

/-! ### Error confinement (R230, ISO 11898-1; log 29) -/

/-- TEC and REC replaced, and the state that follows from them (R230): above 255 the controller goes bus-off, which is an exit from error
passive too. -/
def canErrCounts (d : Dev) (k tec rec : Nat) : Dev :=
  let pg := canPg k
  let d1 := wf (wf d pg 0xc0 0 8 (min 255 tec)) pg 0xc0 8 8 (min 255 rec)
  if 255 < tec then
    let d0 := if canState d k = 1 then irq d1 pg 1 else d1
    let d2 := raise (irq (cnt (wf d0 pg 0xc0 16 2 2) pg 0x258 1) pg 0) pg 0
    setCan d2 k { can d2 k with recover := rb d pg 0x80 5 }
  else
    let st := canState d k
    let passive := if 127 < tec ∨ 127 < rec then 1 else 0
    if st ≤ 1 ∧ passive ≠ st then irq (wf d1 pg 0xc0 16 2 passive) pg 1 else d1

/-- TEC and REC as they stand. -/
def canTec (d : Dev) (k : Nat) : Nat := rf d (canPg k) 0xc0 0 8
def canRec (d : Dev) (k : Nat) : Nat := rf d (canPg k) 0xc0 8 8

/-- The error frame of a controller (R231): none in restricted operation (R224). -/
def canErrorFrame (d : Dev) (k : Nat) : Dev := if canRestricted d k then d else emit d (.canError k (canState d k == 1))

/-- Whether the controller measures its transmitter delay in the data phase of a frame (R226). -/
def tdcFrame (d : Dev) (k : Nat) (f : CanFrame) : Bool :=
  (f.xlf && rb d (canPg k) 0x98 40) || (f.fdf && f.brs && rb d (canPg k) 0x90 40)

/-- TDC_MEAS is what the controller measured in a data phase (R226), which no command names: a free value. -/
def tdcMeasured (d : Dev) (k : Nat) : Dev := let (m, d1) := freeNat d; wf d1 (canPg k) 0xc0 24 8 (m % 128)

/-- The same for an attempt that a bus error ends: whether its data phase had begun, no command names either (a free value). -/
def tdcAttempt (d : Dev) (k : Nat) : Dev :=
  if (can d k).tx.any fun x => tdcFrame d k x.f then
    let (m, d1) := freeNat d
    if m % 2 = 0 then d1 else tdcMeasured d1 k
  else d

/-- A bus error, counted by its kind (Table 8.20), and its weight: 8 for a transmitter, 1 for a receiver; an
acknowledgement error of an error-passive transmitter has none. The controller sends an error frame. -/
def canBusErrorOp (d : Dev) (k : Nat) (e : CanErr) (transmitter : Bool) : Dev :=
  let pg := canPg k
  if !running d pg ∨ 2 ≤ canState d k then d
  else
    let d0 := canErrorFrame (if transmitter then tdcAttempt d k else d) k
    let d1 := match e with
      | .bit => cnt d0 pg 0x238 1
      | .stuff => wf d0 pg 0x240 0 32 (min (2 ^ 32 - 1) (rf d0 pg 0x240 0 32 + 1))
      | .form => wf d0 pg 0x240 32 32 (min (2 ^ 32 - 1) (rf d0 pg 0x240 32 32 + 1))
      | .ack => cnt d0 pg 0x250 1
      | .crc => cnt d0 pg 0x290 1
    if transmitter then
      if e = .ack ∧ canState d k = 1 then d1 else canErrCounts d1 k (canTec d k + 8) (canRec d k)
    else canErrCounts d1 k (canTec d k) (canRec d k + 1)

/-- CAN_CMD.RECOVER (R230). -/
def canRecoverOp (d : Dev) (k : Nat) : Dev :=
  if canState d k = 2 then setCan d k { can d k with recover := true } else d

/-- 128 occurrences of 11 recessive bits: a controller that counts them rejoins (R230). -/
def busOffRecoveryOp (d : Dev) (k : Nat) : Dev :=
  if canState d k = 2 ∧ ((can d k).recover ∨ rb d (canPg k) 0x80 5) then
    wf (setCan d k { can d k with recover := false }) (canPg k) 0xc0 0 18 0
  else d

/-- A protocol exception or a form error (R231). -/
def protocolExceptionOp (d : Dev) (k : Nat) : Dev :=
  let pg := canPg k
  if !running d pg ∨ 2 ≤ canState d k then d
  else if rb d pg 0x80 2 then wf (cnt d pg 0x260 1) pg 0xc0 16 2 3
  else canBusErrorOp d k .form false

/-- Bus integration is complete (R231). -/
def integrationEndOp (d : Dev) (k : Nat) : Dev :=
  if canState d k = 3 then wf d (canPg k) 0xc0 16 2 (if 127 < canTec d k ∨ 127 < canRec d k then 1 else 0) else d

/-- RXD stayed recessive under 16 dominant bits (R232). -/
def xcvrFaultOp (d : Dev) (k : Nat) : Dev := if running d (canPg k) then raise d (canPg k) 2 else d

/-! ### CANsec (R233, R234) -/

/-- The active association of a VCID in a direction (bit 18 TX, bit 19 RX) with a mode. -/
def canAssoc (d : Dev) (k vcid dirBit : Nat) : Option Nat :=
  (List.range 8).find? fun n =>
    let w := ac d (canPg k) (0x100 + n * 0x18)
    bit w 63 && fld w 10 8 == vcid && bit w dirBit && fld w 8 2 != 0

/-- A discard of CANsec: its counter and SEC_EVENT. -/
def secEvent (d : Dev) (k off : Nat) : Dev := irq (cnt d (canPg k) off 1) (canPg k) 3

/-- The IV and the authenticated header of a CAN XL frame under CANsec (log 30). -/
def canSecIv (f : CanFrame) (fv : Nat) : List Byte := beBytes 4 fv ++ beBytes 4 f.id ++ beBytes 1 f.vcid ++ beBytes 3 0
def canSecHdr (f : CanFrame) : List Byte :=
  beBytes 4 f.id ++ beBytes 1 f.sdt ++ beBytes 1 f.vcid ++ beBytes 4 f.af ++ beBytes 4 f.fv

/-- Key material for an association (R234): the slot is usable for CANsec. -/
def canSecKey (d : Dev) (w : W64) : Option (List Byte) × Dev := useSlot d (fld w 0 8) 1 [1, 2]

/-- What CANsec makes of a received XL frame: nothing where it is discarded, else the frame as the Ferry sees it. -/
def canSecRx (d : Dev) (k : Nat) (f : CanFrame) : Option CanFrame × Dev :=
  match canAssoc d k f.vcid 19 with
  | none => if f.sec then (none, secEvent d k 0x278) else (some f, d)
  | some n =>
    let o := 0x100 + n * 0x18
    let w := ac d (canPg k) o
    if !f.sec then (if bit w 20 then (none, secEvent d k 0x280) else (some f, d))
    else match canSecKey d w with
      | (none, d1) => (none, secEvent d1 k 0x288)
      | (some key, d1) =>
        let body := f.data.take (f.data.length - 16)
        let icv := f.data.drop (f.data.length - 16)
        let iv := canSecIv f f.fv
        let plain := if f.data.length < 16 then none
          else if fld w 8 2 = 2 then gcmOpen key iv (canSecHdr f) body icv
          else if gmac key iv (canSecHdr f ++ body) = icv then some body else none
        match plain with
        | none => (none, secEvent d1 k 0x268)
        | some p =>
          let high := rf d1 (canPg k) (o + 8) 32 32
          if f.fv + fld (ac d1 (canPg k) (o + 16)) 0 16 ≤ high then (none, secEvent d1 k 0x270)
          else (some { f with data := p }, wf d1 (canPg k) (o + 8) 32 32 (max high f.fv))

/-- What CANsec makes of an XL frame at its transmit request. -/
def canSecTx (d : Dev) (k : Nat) (f : CanFrame) : Option CanFrame × Dev :=
  match (if f.xlf then canAssoc d k f.vcid 18 else none) with
  | none => (some { f with sec := false }, d)
  | some n =>
    let o := 0x100 + n * 0x18
    let w := ac d (canPg k) o
    let fv := rf d (canPg k) (o + 8) 0 32
    if 2 ^ 32 - 1 ≤ fv then (none, secEvent d k 0x298)
    else match canSecKey d w with
      | (none, d1) => (none, secEvent d1 k 0x288)
      | (some key, d1) =>
        let g := { f with sec := true, fv := fv }
        let iv := canSecIv g fv
        let data := if fld w 8 2 = 2 then (let c := gcmSeal key iv (canSecHdr g) f.data; c.1 ++ c.2)
          else f.data ++ gmac key iv (canSecHdr g ++ f.data)
        (some { g with data := data }, wf d1 (canPg k) (o + 8) 0 32 (fv + 1))

/-- Whether the shadow of a CAN page holds valid associations (R233, R2). -/
def canShadowValid (d : Dev) (k : Nat) : Bool :=
  let w (n : Nat) : W64 := rd d (canPg k) (0x100 + n * 0x18)
  (List.range 8).all fun n => !bit (w n) 63 || (fld (w n) 8 2 != 3 && (List.range 8).all fun m =>
    m == n || !bit (w m) 63 || fld (w m) 10 8 != fld (w n) 10 8
      || !((bit (w m) 18 && bit (w n) 18) || (bit (w m) 19 && bit (w n) 19)))

/-- After a switch of a CAN page from `old`: an association with a changed KEY_SLOT or VALID starts anew (R234). -/
def canSwitch (old : Dev) (d : Dev) (k : Nat) : Dev :=
  (List.range 8).foldl (fun d n =>
    let o := 0x100 + n * 0x18
    let a := ac old (canPg k) o
    let b := ac d (canPg k) o
    if fld a 0 8 ≠ fld b 0 8 ∨ bit a 63 ≠ bit b 63 then wr d (canPg k) (o + 8) 0 else d) d

/-! ### Reception (R228) -/

/-- The time at an earlier instant in units of 2^-16 ns, local and in a domain; none while the counter was disabled then. -/
def locBack (d : Dev) (at0 : Instant) : Nat := locNow d - (d.now - at0) * (tsStep / 4)
def domBack (d : Dev) (dm : Nat) (at0 : Instant) : Option Nat :=
  if 4 ≤ dm then some (locBack d at0)
  else
    let x := domWas d dm at0
    if x.on then some (domAt x (at0 % 4)) else none

/-- The counter that FERRY_CTRL.TS_DOMAIN named at an earlier instant. -/
def tsDomAt (d : Dev) (at0 : Instant) : Nat :=
  match d.ferry.tsDoms.find? fun e => decide (at0 < e.1) with
  | some e => e.2
  | none => af d .ferry 0x80 1 3

/-- A received frame's two times at an instant (R228): what the Ferry works with. -/
def edgeTimes (d : Dev) (w : EdgeWork) (at0 : Instant) : EdgeWork :=
  { w with loc := locBack d at0, dom := domBack d (tsDomAt d at0) at0 }

/-- A received bus frame becomes work of the Ferry 12 cycles of CLK_EDGE after `now`, and CANsec's (R255, Table 8.6). -/
def ferryReady (d : Dev) (w : EdgeWork) : Dev :=
  let cs := match w.can with | some f => if w.sec then 24 + (f.data.length - 64 + 15) / 16 else 0 | none => 0
  let r := { w with id := d.ferry.nextId, ready := d.now + (12 + cs) * edgeTicks }
  { d with ferry := { d.ferry with ready := d.ferry.ready ++ [r], nextId := d.ferry.nextId + 1 } }

/-- A frame of another node ends its ACK delimiter (R228): it may be a keep-alive (R288). -/
def canRxOp (d0 : Dev) (k : Nat) (f : CanFrame) (sof : Instant) : Dev :=
  let pg := canPg k
  if !running d0 pg ∨ 2 ≤ canState d0 k ∨ !canHasFormat d0 k f then d0
  else
    let d := kaNote d0 (kaOfCan d0 k f)
    let rec0 := canRec d k
    let d1 := canErrCounts (cnt d pg 0x200 1) k (canTec d k) (if 127 < rec0 then 127 else rec0 - 1)
    match (if f.xlf then canSecRx d1 k f else (some f, d1)) with
    | (none, d2) => d2
    | (some g, d2) =>
      if 512 < rxBlocks d2 k + canBlocks g then irq (cnt d2 pg 0x210 1) pg 2
      else
        let at0 := sof / edgeTicks * edgeTicks
        let w := edgeTimes d2 { src := 32 + k, can := some g, sec := g.sec } at0
        let d3 := ferryReady d2 w
        setCan d3 k { can d3 k with lastRx := some { w with id := d2.ferry.nextId } }

/-! ### Transmission (R229) -/

/-- The arbitration of a frame as a number: the lower wins. Its bits in order: 11 bits of the identifier, RTR or SRR, IDE, of a 29-bit
identifier the other 18 bits and RTR, then FDF and XLF (ISO 11898-1). -/
def arbKey (f : CanFrame) : Nat :=
  let rtr := (f.rtr && !f.fdf).toNat
  let fdf := (f.fdf || f.xlf).toNat
  if f.ide then (f.id / 2 ^ 18 * 2 ^ 21 + 3 * 2 ^ 19 + f.id % 2 ^ 18 * 2 + rtr) * 4 + fdf * 2
  else (f.id % 2 ^ 11 * 2 ^ 21 + rtr * 2 ^ 20 + fdf * 2 ^ 18 + f.xlf.toNat * 2 ^ 17) * 4

/-- The frame of a list that would win arbitration; of equal ones the first (R229, R247). -/
def arbWinner (l : List CanTx) : Option CanTx :=
  l.foldl (fun m x => match m with
    | none => some x
    | some y => if arbKey x.f < arbKey y.f then some x else m) none

/-- The frame in transmission since `sof`. -/
def canOnBus (d : Dev) (k : Nat) (sof : Instant) : Option CanTx := arbWinner ((can d k).tx.filter fun x => x.reqAt ≤ sof)

/-- The transmit area without a frame. -/
def canTxDrop (d : Dev) (k : Nat) (p : CanTx → Bool) : Dev :=
  setCan d k { can d k with tx := (can d k).tx.filter fun x => !p x }

/-- A translated copy at its transmit request (R224, R229, R234); of one source and identifier the copies keep their order (R247). -/
def canInsert (d : Dev) (k : Nat) (x : CanTx) : Dev :=
  let pg := canPg k
  if !enabled d pg ∨ !running d pg then cnt d pg 0x248 1
  else if canRestricted d k then cnt d pg 0x230 1
  else match canSecTx d k x.f with
    | (none, d1) => d1
    | (some f, d1) =>
      let used := ((can d1 k).tx.map fun y => canBlocks y.f).sum
      if 32 ≤ (can d1 k).tx.length ∨ 512 < used + canBlocks f then cnt d1 pg 0x220 1
      else
        let before := (can d1 k).tx.filter fun y => y.src == x.src && y.f.id == f.id && y.f.ide == f.ide
        let req := before.foldl (fun t y => max t y.reqAt) x.reqAt
        setCan d1 k { can d1 k with tx := (can d1 k).tx ++ [{ x with f := f, reqAt := req }] }

/-- A frame of the message RAM shows an uncorrectable error (R227): it is discarded. -/
def ramLost (d : Dev) (k : Nat) : Dev := raise (raise (cnt d (canPg k) 0x218 1) (canPg k) 1) .chip 20

/-- A read of the message RAM (R16, R17). -/
def ramRead (d : Dev) (e : EccEvent) : Dev := match e with | .corrected x => (seenTwice (raise d .chip 4) 4 x).2 | _ => d

/-- Whether a controller sends nothing more of a frame that began at `sof`: its pin is held high (R221, R223, R224), or restricted
operation began before the frame (R290, Table 17.5: the frame in transmission completes). -/
def canCut (d : Dev) (k : Nat) (sof : Instant) : Bool :=
  let x := can d k
  !running d (canPg k) || decide (2 ≤ canState d k) || rb d (canPg k) 0x80 3 || claimGated d || x.edgeChk || halted d
    || ((x.sleepSeq || x.yielded) && decide (x.quietAt < sof))

/-- The frame in transmission is complete: it leaves, and may be a keep-alive (R288); ESI shows an error-passive controller. `e`: how its blocks read (R227). -/
def canTxCompleteOp (d : Dev) (k : Nat) (sof : Instant) (e : EccEvent) : Dev :=
  let pg := canPg k
  if canCut d k sof then d
  else match canOnBus d k sof with
    | none => d
    | some x =>
      if e.lost then ramLost (canTxDrop d k (· == x)) k
      else
        let f := { x.f with esi := (x.f.fdf && canState d k == 1) }
        let d1 := canTxDrop (cnt (ramRead d e) pg 0x208 1) k (· == x)
        let d2 := canErrCounts d1 k (canTec d k - 1) (canRec d k)
        let d3 := if rb d pg 0x80 4 then d2 else kaNote (emit d2 (.canFrame k f)) (kaOfCan d k f)
        if tdcFrame d k f then tdcMeasured d3 k else d3

/-- Pending frames that have waited TX_MAX_AGE_MS leave; one in transmission is completed (R229). -/
def canAgeOp (d : Dev) (k : Nat) (sof : Option Instant) : Dev :=
  let ms := rf d (canPg k) 0xa8 0 16
  if ms = 0 then d
  else
    let keep := match sof with | some s => canOnBus d k s | none => none
    let old (x : CanTx) : Bool := decide (x.reqAt + ms * msTicks ≤ d.now) && some x != keep
    let n := ((can d k).tx.filter old).length
    cnt (canTxDrop d k old) (canPg k) 0x228 n

/-- A controller forgets its frames: a soft reset, a chip reset, a power-down (R20). -/
def canClear (d : Dev) (k : Nat) : Dev :=
  let x := can d k
  let d1 := setCan d k { edgeChk := x.edgeChk, seqLevel := x.seqLevel, sleepSeq := x.sleepSeq, quietAt := x.quietAt }
  { d1 with ferry := { d1.ferry with ready := d1.ferry.ready.filter fun w => !(w.src == 32 + k && w.stream.isNone) } }

end Sys2Proof.Machine
end

