-- ==== Sys2Proof/Machine/Lin.lean ====
section
/-! DEFINITION. LIN controllers (R235 to R239): the master's schedule, publish buffers, responses, sleep and wake. -/

namespace Sys2Proof.Machine

/-- A LIN channel and its page. -/
def linFin (l : Nat) : Fin 8 := ⟨l % 8, Nat.mod_lt _ (by decide)⟩
def linPg (l : Nat) : Page := .lin (linFin l)
def lin (d : Dev) (l : Nat) : LinSt := kvD d.lins l {}
def setLin (d : Dev) (l : Nat) (x : LinSt) : Dev := { d with lins := kvPut d.lins l x }

/-- Word 0 of schedule entry e of a channel in the active half (Tables 8.11, 8.15). -/
def linEntry (t : Store) (l e : Nat) : W64 := tIn t (0x03E06000 + l * 0x400 + e * 16)

/-- The valid entry for an identifier, the lowest. -/
def linFor (t : Store) (l fid : Nat) : Option W64 :=
  ((List.range 64).map (linEntry t l)).find? fun w => bit w 63 && fld w 0 6 == fid

/-- VALID of a publish buffer, and its octets (R237). -/
def pubValid (d : Dev) (l fid : Nat) : Bool := rb d (linPg l) 0x600 fid
def pubData (d : Dev) (l fid n : Nat) : List Byte := (wordBytes (rd d (linPg l) (0x400 + fid * 8))).take n

/-- The Ferry writes a publish buffer with the data of a frame: the first octets, and VALID (R237). What it replaces is kept until the
buffer is sent (R248). -/
def pubWrite (d : Dev) (l fid work : Nat) (data : List Byte) : Dev :=
  let was := rd d (linPg l) (0x400 + fid * 8)
  let x := lin d l
  let d1 := setLin d l { x with pubBack := x.pubBack.filter (·.1 != fid) ++ [(fid, work, was, pubValid d l fid)] }
  wb (wr d1 (linPg l) (0x400 + fid * 8) (bytesWord (data ++ (wordBytes was).drop data.length))) (linPg l) 0x600 fid true

/-- The copies of a frame in the publish buffers of a channel are withdrawn where they have not been sent (R248), and their number. -/
def pubWithdraw (d : Dev) (l work : Nat) : Dev × Nat :=
  let x := lin d l
  let mine := x.pubBack.filter fun b => b.2.1 == work
  let d1 := mine.foldl (fun d b => wb (wr d (linPg l) (0x400 + b.1 * 8) b.2.2.1) (linPg l) 0x600 b.1 b.2.2.2) d
  (if mine = [] then d else setLin d1 l { x with pubBack := x.pubBack.filter fun b => b.2.1 != work }, mine.length)

/-- LIN_STAT as it reads: CLAIM_GATED follows the gate (R224). -/
def linStat (d : Dev) (l : Nat) : W64 := setBit (rd d (linPg l) 0xa8) 8 (claimGated d)

/-- Whether the controller transmits nothing now: a closed gate, a yield, a sleep sequence, an edge check, the safe state. -/
def linSilent (d : Dev) (l : Nat) : Bool := claimGated d || (lin d l).edgeChk || halted d

/-- A frame that the device publishes: counted, and on the bus unless the gate is closed. -/
def linPublish (d : Dev) (l fid : Nat) (w : W64) : Dev :=
  if linSilent d l then d
  else
    let f : LinFrame := { fid := fid, enhanced := bit w 7 && fid != 0x3C && fid != 0x3D, data := pubData d l fid (fld w 8 4) }
    let x := lin d l
    emit (cnt (setLin d l { x with pubBack := x.pubBack.filter (·.1 != fid) }) (linPg l) 0x208 1) (.linFrame l f)

/-- The first valid entry at or after e, and around once. -/
def linNext (t : Store) (l e : Nat) : Option Nat :=
  ((List.range 64).map fun k => (e + k) % 64).find? fun k => bit (linEntry t l k) 63

/-- The go-to-sleep command of a master, then the end of its schedule (R239). -/
def linSleepNow (d : Dev) (l : Nat) : Dev :=
  let f : LinFrame := { fid := 0x3C, data := [0] ++ List.replicate 7 0xFF }
  let d1 := if linSilent d l then d else emit (cnt d (linPg l) 0x208 1) (.linFrame l f)
  irq (wb (setLin d1 l { lin d1 l with gosleep := false, sleptAt := d.now, hdrFid := none, slotEnd := none }) (linPg l) 0xa8 0 true)
    (linPg l) 1

/-- Whether a channel is a master whose controller runs. -/
def linMaster (d : Dev) (l : Nat) : Bool := running d (linPg l) && rb d (linPg l) 0x80 0

/-- A response is awaited (R238): `bits` of the header are still to come; 1.4 times the nominal length of the response is 14 bits for
each octet and the checksum. -/
def linAwait (d : Dev) (l fid len bits : Nat) : Dev :=
  let m := rf d (linPg l) 0xa8 16 16
  let baud := if rb d (linPg l) 0x80 29 ∧ !rb d (linPg l) 0x80 0 ∧ m ≠ 0 then m else rf d (linPg l) 0x80 8 16
  setLin d l { lin d l with hdrFid := some fid, respBy := d.now + (bits + 14 * (len + 1)) * (1000 * msTicks) / max 1 baud }

/-- The next slot of a master begins (R235, R236, R237, R239). A gated master sends no header; the partner's, in the same slot, asks for
the response (R224, R461). -/
def linSlotOp (d : Dev) (l : Nat) : Dev :=
  let x := lin d l
  let due := match x.slotEnd with | some t => decide (t ≤ d.now) | none => true
  if !linMaster d l ∨ !due then d
  else if x.gosleep then linSleepNow d l
  else if d.pair.yield.isSome ∨ !rb d (linPg l) 0x88 0 ∨ rb d (linPg l) 0xa8 0 ∨ x.resume.isSome then d
  else
    let t := (curView d).tbl
    match linNext t l (if x.sched = 1 then 0 else x.entry) with
    | none => d
    | some e =>
      let w := linEntry t l e
      let fid := fld w 0 6
      let x1 := { x with sched := 0, hdrFid := none, entry := if bit w 62 then 0 else (e + 1) % 64,
                         slotEnd := some (d.now + fld w 16 16 * 100 * usTicks) }
      let d1 := wf (setLin d l x1) (linPg l) 0xa8 2 6 e
      if !bit w 6 then
        if pubValid d l fid then linPublish d1 l fid w else cnt d1 (linPg l) 0x238 1
      else
        let d2 := linAwait d1 l fid (fld w 8 4) (rf d (linPg l) 0x80 24 5 + 21)
        if claimGated d then d2
        else if linSilent d l then d1
        else emit d2 (.linHeader l fid (rf d (linPg l) 0x80 24 5) (rf d (linPg l) 0x80 8 16))

/-- A slave receives a header (R235, R236, R237), or a gated master that of its partner (R224, R461). -/
def linHeaderOp (d : Dev) (l fid baud : Nat) : Dev :=
  if !running d (linPg l) ∨ (linMaster d l ∧ !claimGated d) then d
  else
    let d1 := if rb d (linPg l) 0x80 29 ∧ !linMaster d l then wf d (linPg l) 0xa8 16 16 baud else d
    match linFor (curView d).tbl l fid with
    | none => d1
    | some w =>
      if bit w 6 then linAwait d1 l fid (fld w 8 4) 0
      else if pubValid d l fid then linPublish d1 l fid w else d1

/-- A count of R238 and IRQ_RAW.ERROR. -/
def linErr (d : Dev) (l off : Nat) : Dev := irq (cnt d (linPg l) off 1) (linPg l) 2

/-- The entry that a response belongs to: of a master the entry of its slot, of a slave the identifier's. -/
def linExpect (d : Dev) (l fid : Nat) : Option W64 :=
  let t := (curView d).tbl
  let w := linEntry t l (rf d (linPg l) 0xa8 2 6)
  if linMaster d l ∧ bit w 63 ∧ fld w 0 6 = fid then some w else linFor t l fid

/-- Whether a response carries the checksum that its entry selects (R235): classic for 0x3C and 0x3D. -/
def linSumOk (d : Dev) (l : Nat) (f : LinFrame) : Bool :=
  match linExpect d l f.fid with
  | some w => f.enhanced == (bit w 7 && f.fid != 0x3C && f.fid != 0x3D)
  | none => true

/-- A response of another node completes, or fails (R238). One with the checksum that the entry does not select is a checksum error. -/
def linRxOp (d : Dev) (l : Nat) (f : LinFrame) (e : Option LinErr) (start : Instant) : Dev :=
  if !running d (linPg l) then d
  else
    let clr (d : Dev) : Dev := setLin d l { lin d l with hdrFid := none }
    match e with
    | some .checksum => linErr (clr d) l 0x218
    | some .framing => linErr (clr d) l 0x220
    | some .bit => linErr (clr d) l 0x228
    | some .sync => linErr (clr d) l 0x230
    | none =>
      if (lin d l).hdrFid ≠ some f.fid then d
      else if !linSumOk d l f then linErr (clr d) l 0x218
      else
        let at0 := start / edgeTicks * edgeTicks
        ferryReady (cnt (clr d) (linPg l) 0x200 1) (edgeTimes d { src := 56 + l, lin := some f } at0)

/-- No complete response within 1.4 times the nominal length (R238). -/
def linNoRespOp (d : Dev) (l : Nat) : Dev :=
  if (lin d l).hdrFid.isSome ∧ running d (linPg l) ∧ (lin d l).respBy ≤ d.now then linErr (setLin d l { lin d l with hdrFid := none }) l 0x210 else d

/-- LIN_CMD.GOTO_SLEEP on a master (R239): at the next slot boundary. -/
def linGotoSleepOp (d : Dev) (l : Nat) : Dev :=
  if linMaster d l then setLin d l { lin d l with gosleep := true } else d

/-- The schedule restarts RESUME_MS from now (R239). -/
def linResumeIn (d : Dev) (l : Nat) : Dev :=
  setLin (wb d (linPg l) 0xa8 0 false) l { lin d l with resume := some (d.now + rf d (linPg l) 0xa0 32 16 * msTicks), gosleep := false }

/-- LIN_WAKE.WAKE_US; a value out of range acts as 1,000 (Table 8.21). -/
def wakeUs (d : Dev) (l : Nat) : Nat :=
  let u := rf d (linPg l) 0xa0 0 13
  if 250 ≤ u ∧ u ≤ 5000 then u else 1000

/-- LIN_CMD.WAKE on a master (R239). -/
def linWakeOp (d : Dev) (l : Nat) : Dev :=
  if !linMaster d l then d
  else
    let d1 := linResumeIn d l
    if linSilent d l then d1 else emit d1 (.linWakePulse l (wakeUs d l))

/-- RESUME_MS has passed after a wake (R239): the schedule runs from entry 0. -/
def linResumeOp (d : Dev) (l : Nat) : Dev :=
  match (lin d l).resume with
  | some r => if r ≤ d.now then setLin d l { lin d l with resume := none, entry := 0, slotEnd := none, sched := 1 } else d
  | none => d

/-- A wake pulse is received while PD_EDGE is on (R239). -/
def linWakeRxOp (d : Dev) (l : Nat) : Dev :=
  if !domUp d 14 then d
  else
    let d1 := irq (wb d (linPg l) 0xa8 1 true) (linPg l) 0
    if linMaster d l then linResumeIn d1 l else d1

/-- The RX line was dominant for 20 ms (R239). -/
def linStuckOp (d : Dev) (l : Nat) : Dev := if domUp d 14 then raise d (linPg l) 0 else d

/-- After a switch of the FERRY page from the tables `old`: a changed schedule starts at entry 0 at the next slot (R236). -/
def linSchedSwitch (old : Store) (d : Dev) : Dev :=
  (List.range 8).foldl (fun d l =>
    if (List.range 64).all (fun e => linEntry old l e == linEntry d.tbl l e) then d
    else setLin d l { lin d l with sched := 1 }) d

/-- A LIN controller forgets what it does: a soft reset, a chip reset, a power-down. -/
def linClear (d : Dev) (l : Nat) : Dev :=
  let x := lin d l
  let d1 := setLin d l { seqLevel := x.seqLevel, edgeChk := x.edgeChk }
  { d1 with ferry := { d1.ferry with ready := d1.ferry.ready.filter fun w => !(w.src == 56 + l && w.stream.isNone) } }

end Sys2Proof.Machine
end

