-- ==== Sys2Proof/Machine/Mailbox.lean ====
section
/-! DEFINITION. The mailbox (R335 to R338): request buffers, RING and ACK, the start of a staged message, its response. -/

namespace Sys2Proof.Machine

/-- A mailbox channel and its page. -/
def mboxPg (ch : Nat) : Page := .mbox (if ch = 0 then 1 else if ch = 1 then 2 else if ch = 2 then 3 else 4)
def mbox (d : Dev) (ch : Nat) : MboxCh := kvD d.host.mbox ch {}

/-- A channel replaced, REQ_BYTES and RESP_BYTES with it (Table 12.15). -/
def setMbox (d : Dev) (ch : Nat) (x : MboxCh) : Dev :=
  let d1 := { d with host := { d.host with mbox := kvPut d.host.mbox ch x } }
  wf (wf d1 (mboxPg ch) 0x88 3 14 x.req.length) (mboxPg ch) 0x88 17 15 x.resp.length

/-- STATE of a channel: 0 IDLE, 1 BUSY, 2 DONE. -/
def mboxState (d : Dev) (ch : Nat) : Nat := rf d (mboxPg ch) 0x88 0 2

/-- A 64-bit write in the request aperture (R335). -/
def mboxReqOp (d : Dev) (ch : Nat) (v : W64) : Dev :=
  let x := mbox d ch
  if 8192 < x.req.length + 8 then wb d (mboxPg ch) 0x88 2 true else setMbox d ch { x with req := x.req ++ wordBytes v }

/-- The master code that may ring a channel (R336). -/
def mboxMaster (ch : Nat) : Nat := if ch = 0 then 2 else if ch = 1 then 3 else if ch = 2 then 0 else 1

/-- RING accepted: the request is staged. -/
def mboxStage (d : Dev) (ch : Nat) : Dev :=
  let x := mbox d ch
  wf (setMbox d ch { x with staged := some x.req, rungAt := d.now, started := false }) (mboxPg ch) 0x88 0 2 1

/-- A write of RING = 1 (R336). -/
def mboxRingOp (d : Dev) (m : Master) (ch : Nat) : Dev :=
  if mboxState d ch = 0 ∧ masterCode m = mboxMaster ch then mboxStage d ch else cnt d (.mbox 0) 0x90 1

/-- A write of ACK = 1 (R336): both buffers are emptied, a message not yet answered is abandoned with them. -/
def mboxAckOp (d : Dev) (ch : Nat) : Dev := wf (setMbox d ch {}) (mboxPg ch) 0x88 0 2 0

/-- One 64-bit read of the response aperture (R335, by the rule of R198). -/
def mboxRespRead (d : Dev) (ch addr width : Nat) : W64 × Dev :=
  let x := mbox d ch
  let w := bytesWord x.resp
  if width = 3 then (w, setMbox d ch { x with resp := x.resp.drop 8 })
  else if width = 2 then (BitVec.ofNat 64 (fld w (if addr / 4 % 2 = 1 then 32 else 0) 32), d)
  else (w, d)

/-- The response of the started message is complete (R336): header, payload, DONE. -/
def mboxReply (d : Dev) (ch result : Nat) (payload : List Byte) : Dev :=
  let x := mbox d ch
  match x.staged with
  | none => d
  | some l =>
    let hdr := fitLen 2 l ++ leBytes 2 result ++ fitLen 4 (l.drop 4) ++ leBytes 4 payload.length ++ List.replicate 20 0
    let d1 := setMbox d ch { x with staged := none, started := false, resp := hdr ++ payload }
    irq (wf d1 (mboxPg ch) 0x88 0 2 2) (.mbox 0) ch

/-- The channel whose staged message starts next: the order of RING, channels ascending within a CLK_SYS cycle (R336). -/
def mboxNext (d : Dev) : Option Nat :=
  [0, 1, 2, 3].foldl (fun m ch =>
    let x := mbox d ch
    if x.staged.isSome ∧ !x.started then
      match m with
      | none => some ch
      | some c => if x.rungAt / 2 < (mbox d c).rungAt / 2 then some ch else m
    else m) none

/-- The commands of Table 12.10. -/
def mboxKnown : List Nat :=
  [1, 0x10, 0x11, 0x12, 0x13, 0x20, 0x21, 0x22, 0x23, 0x24, 0x30, 0x31, 0x40, 0x41, 0x50, 0x51, 0x60, 0x61, 0x70]

/-- The ROM serves the mailbox: in Chrysalis, and under host load until an image runs (R490, R491). -/
def romServes (d : Dev) : Bool := rb d .upd 0x80 6 || (rf d .upd 0x80 10 2 == 1 && !rb d .upd 0x80 5)

/-- Whether the firmware or the ROM runs: an image was started, or the ROM serves; and the core that serves the mailbox, C0 or the one
left by a break (R403), is neither halted by its voters nor by a debugger. -/
def firmwareRuns (d : Dev) : Bool :=
  !d.fcn.safe && domUp d 2 && !d.boot.due && (d.boot.image.isSome || romServes d) && !rb d (.scarab 0) 0x80 10 && !d.dbg.halted.contains (rf d (.scarab 0) 0x80 6 2)

/-- What a command answers: its result code (R338) and payload, or nothing yet. -/
abbrev Answer := Option (Nat × List Byte)

/-- The staged message of a channel is started as command `code` (R336 to R338, R490): privilege bit `priv` of MBOX_PRIV, the
payload lengths that the command takes, and its effect. A message of another known command is not due; an unknown one is
answered UNKNOWN_CMD. No firmware runs in the safe state or before PD_SEC is on. -/
def mboxStart (d : Dev) (ch code : Nat) (priv : Option Nat) (lens : Nat → Bool) (f : List Byte → Dev → Answer × Dev) : Dev :=
  match (mbox d ch).staged with
  | none => d
  | some l =>
    let cmd := leNat (l.take 2)
    let len := leNat (slice l 8 4)
    let rom := romServes d
    let known := mboxKnown.contains cmd && (!rom || cmd == 1 || (decide (0x20 ≤ cmd ∧ cmd ≤ 0x24)) || cmd == 0x70)
    if !firmwareRuns d ∨ mboxNext d ≠ some ch ∨ (rom ∧ 2 ≤ ch) ∨ (known ∧ cmd ≠ code) then d
    else if !known then mboxReply d ch 1 []
    else if l.length < 32 + len ∨ 8160 < len ∨ !lens len then mboxReply d ch 2 []
    else
      let allowed := match priv with
        | none => true
        | some b => rb d (.mbox 0) 0x80 (8 * ch + b) || (rom && b == 1)
      if !allowed then mboxReply d ch 3 []
      else if d.car.lcNext.isSome then mboxReply d ch 5 []
      else
        match f (slice l 32 len) (setMbox d ch { mbox d ch with started := true }) with
        | (some (r, p), d1) => mboxReply d1 ch r p
        | (none, d1) => d1

end Sys2Proof.Machine
end

