-- ==== Sys2Proof/Machine/Pair.lean ====
section
/-! DEFINITION. Redundant pair operation (chapter 17): the claim bus (R447 to R454), heartbeats (R455 to R458), decision digests
(R462), the standby's self-tests (R463 to R465), power states (R467) and the yield (R468). -/

namespace Sys2Proof.Machine

/-- A field of the pair's state changed. -/
def setPair (d : Dev) (f : PairSt → PairSt) : Dev := { d with pair := f d.pair }

/-- Chrysalis runs (UPD_BOOT). -/
def chrysalis (d : Dev) : Bool := rb d .upd 0x80 6

/-- SCARAB_STAT.LOCKSTEP_BROKEN (R403). -/
def lockBroken (d : Dev) : Bool := rb d (.scarab 0) 0x80 5

/-- PAIR_CTRL.EN of a unit of a pair. -/
def pairOn (d : Dev) : Bool := d.pair.strapEn && rb d (.pair 0) 0x80 0

/-- Why the claim number is forced to 0 (R449), coded as Table 17.6 byte 1, the lowest code that applies; 0: it is not. Chrysalis
counts with the offline test, PD_SEC not ON with the power state (log 31). -/
def withdrawCause (d : Dev) : Nat :=
  let h := d.pair.holdBack
  if !pairOn d ∨ !rb d (.pair 0) 0x80 1 then 1
  else if lockBroken d then 2
  else if d.fcn.chipRst.isSome then 3
  else if d.fcn.safe then 4
  else if h.contains 5 then 5
  else if h.contains 6 then 6
  else if h.contains 7 then 7
  else if h.contains 8 ∨ !domUp d 2 then 8
  else if d.pair.offline ∨ chrysalis d then 9 else 0

/-- Whether this unit has given up the claim for a yield (Table 17.5, step 2). -/
def yielded (d : Dev) : Bool := match d.pair.yield with | some y => y.released | none => false

/-- PAIR_STAT.HOLDING. -/
def holding (d : Dev) : Bool := rb d (.pair 0) 0xc0 0

/-- The claim number of Table 17.2, 0 while the unit is withdrawn. -/
def claimNumber (d : Dev) : Nat :=
  if withdrawCause d ≠ 0 ∨ yielded d then 0
  else d.pair.takeover.toNat * 128 + (holding d).toNat * 64 + rf d (.pair 0) 0x88 0 5 * 2 + d.pair.unit.toNat

/-- A field of the last accepted heartbeat (Table 17.4): offset, length. -/
def hbField (d : Dev) (off len : Nat) : Nat := leNat (slice d.pair.hb off len)

/-- A PAIR_ROLE record (Table 17.6). -/
def pairRecord (d : Dev) (event cause : Nat) : Dev :=
  manPush d 6 1 (leBytes 1 event ++ leBytes 1 cause ++ leBytes 1 d.pair.number ++ leBytes 1 (hbField d 3 1)
    ++ leBytes 4 (rf d (.pair 0) 0x100 0 32) ++ leBytes 8 (hbField d 16 8) ++ leBytes 4 (hbField d 12 4) ++ leBytes 4 (hbField d 36 4))

/-- The unit withdraws, until a cause that lasts is lifted (Table 17.6). -/
def pairHold (d : Dev) (cause : Nat) : Dev :=
  setPair d fun p => { p with holdBack := if p.holdBack.contains cause then p.holdBack else p.holdBack ++ [cause] }

/-- Periods of CLK_FAB in a bit of the claim bus (R450: 0.5 µs). -/
def claimBit : Nat := 800

/-- After every command: a unit that has become withdrawn writes a record with EVENT 8 (R469); the claim number of a round is the one at
the start of its bit 1 (R449). -/
def pairSettle (d : Dev) : Dev :=
  if !d.pair.strapEn then d
  else
    let c := withdrawCause d
    let d1 := if c ≠ 0 ∧ d.pair.wasIn then pairRecord d 8 c else d
    let forming : Bool := match d.pair.round with | some t => decide (d.now < t + claimBit) | none => false
    setPair d1 fun p => { p with wasIn := c = 0, number := if forming then claimNumber d else p.number }

/-- PAIR_CTRL.READY written as 1 ends a withdrawal by a split or a power state (R458, R467). -/
def pairReadyWritten (d : Dev) : Dev := setPair d fun p => { p with holdBack := p.holdBack.filter fun c => c != 5 && c != 8 }

/-! ### The claim bus (R449 to R454) -/

/-- A start bit begins a round (R450), no earlier than the end of bit 11 of the last, as either unit's clock has it: driven by a unit
with a number that is not 0; the number is formed at bit 1. -/
def roundStartOp (d : Dev) : Dev :=
  let early : Bool := match d.pair.roundAt with | some t => decide (d.now + 10 < t + 12 * claimBit) | none => false
  if !d.pair.strapEn ∨ early then d
  else
    let n := claimNumber d
    let d1 := setPair d fun p => { p with round := some d.now, roundAt := some d.now, number := n }
    if n = 0 then d1 else emit d1 (.claim [true])

/-- Arbitration over the sampled bits of a round (R451, R454): what the unit drove, whether it lost, a driver fault. -/
def arbitrate (n : Nat) : List Bool → Nat → Bool → Bool → List Bool × Bool × Bool
  | [], _, lost, fault => ([], lost, fault)
  | s :: l, k, lost, fault =>
    let mine := !lost && !fault && n / 2 ^ (k - 1) % 2 == 1
    let (r, lo, fa) := arbitrate n l (k - 1) (lost || (!mine && s)) (fault || (mine && !s))
    (mine :: r, lo, fa)

/-- The transmitters behind a gate that closes (R448, R451): a frame in transmission on an S port is cut off. -/
def gatesClose (d : Dev) : Dev :=
  (List.range 6).foldl (fun d i =>
    let p := 20 + i
    match kvGet d.tx p with
    | some f => freeCopy { cbsSync d p with tx := kvDel d.tx p } f.copy
    | none => d) d

/-- The end of a yield (Table 17.5): the claim number is restored, the response is complete. -/
def yieldEnd (d : Dev) (y : YieldSt) (result : Nat) : Dev :=
  let d1 := setPair d fun p => { p with yield := none }
  let d2 := { d1 with cans := d1.cans.map fun e => (e.1, { e.2 with yielded := false }) }
  mboxReply d2 y.ch (if result = 0 then 0 else 0x100 + result) []

/-- A yield after a round: the partner has won, or three rounds have passed without a winner (Table 17.5). -/
def yieldRound (d : Dev) (partnerWon : Bool) : Dev :=
  match d.pair.yield with
  | some y =>
    if !y.released then d
    else if partnerWon then yieldEnd d y 0
    else if 3 ≤ y.rounds + 1 then yieldEnd d y 6
    else setPair d fun p => { p with yield := some { y with rounds := y.rounds + 1 } }
  | none => d

/-- PAIR_VIEW.EXPECT against HOLDING (R459). -/
def viewRound (d : Dev) : Dev :=
  let e := rf d (.pair 1) 0x80 0 2
  let bad := (e = 1 ∧ !holding d) ∨ (e = 2 ∧ holding d)
  if !bad then setPair d fun p => { p with views := 0 }
  else
    let n := d.pair.views + 1
    let d1 := setPair d fun p => { p with views := n }
    if n = 3 then pairRecord (raise d1 (.pair 0) 0) 6 0 else d1

/-- The end of bit 8 and of the round (R451, R452): the bits were sampled as `bus`, true: dominant. -/
def roundEndOp (d : Dev) (bus : List Bool) : Dev :=
  let done : Bool := match d.pair.round with | some t => decide (t + 9 * claimBit ≤ d.now) | none => false
  if !d.pair.strapEn ∨ !done then d
  else
    let n := if claimNumber d = 0 then 0 else d.pair.number
    let (drove, lost, fault) := arbitrate n bus 8 false false
    let d0 := setPair (if n = 0 then d else emit d (.claim drove)) fun p => { p with round := none }
    let d1 := if fault then pairHold (raise d0 (.pair 0) 4) 6 else d0
    let win := n != 0 && !lost && !fault
    let was := holding d
    let yieldWas := yielded d
    let d2 := cnt (wb d1 (.pair 0) 0xc0 0 win) (.pair 0) 0x100 1
    let d3 := if win && d.pair.takeover && !was then cnt d2 (.pair 0) 0x120 1 else d2
    let d4 := if win ≠ was then pairRecord (irq d3 (.pair 0) 0) (if win then 1 else if yieldWas then 3 else 2) 0 else d3
    let d5 := if was ∧ !win then gatesClose d4 else d4
    viewRound (yieldRound d5 (!win && bus.any id))

/-! ### Heartbeats (R455 to R458) -/

/-- Periods of CLK_FAB in 20 µs. -/
def hbTicks : Nat := 20 * usTicks

/-- PAIR_HEALTH (Table 17.9, R465). -/
def pairHealth (d : Dev) : W64 :=
  let boot := decide (d.now < d.pair.bootAt + 200 * msTicks)
  let p := d.pair
  let ok := !boot && !p.offline && !chrysalis d && p.rotDone && p.digestOk
  mkWord [(0, ok.toNat), (1, boot.toNat), (2, p.offline.toNat), (3, p.digestOk.toNat),
    (4, (rb d (.pair 0) 0x80 2 && !holding d).toNat), (8, p.rotPasses % 256), (16, min 15 p.missRun)]

/-- PAIR_KICK.KICK (R455). -/
def pairKickOp (d : Dev) : Dev := setPair d fun p => { p with kickAt := some d.now }

/-- The key of the heartbeats (PAIR_CFG.KEY_SLOT): AES with USE_SIGN (2) or USE_VERIFY (3). -/
def pairKey (d : Dev) (use : Nat) : Option (List Byte) × Dev := useSlot d (rf d (.pair 0) 0xb0 0 8) use [1, 2]

/-- The heartbeat's content without its tag (Table 17.4). -/
def hbPayload (d : Dev) (seq : Nat) : List Byte :=
  let st := if chrysalis d then 3 else if d.pair.offline then 2 else if rb d (.pair 0) 0x80 1 then 1 else 0
  let (ms, dg) := match d.pair.digest with | some (k, v) => (k % 2 ^ 32, v) | none => (0xFFFFFFFF, 0)
  leBytes 1 1 ++ leBytes 1 d.pair.unit.toNat ++ leBytes 1 st ++ leBytes 1 d.pair.number ++ leBytes 1 (holding d).toNat
    ++ leBytes 3 0 ++ leBytes 4 d.pair.epoch ++ leBytes 4 seq ++ fitLen 8 (deviceId d) ++ wordBytes dg ++ leBytes 4 ms
    ++ leBytes 4 (fld (pairHealth d) 0 32) ++ List.replicate 8 0

/-- The IV of a heartbeat: EPOCH, SEQ and four zero octets. -/
def hbIv (l : List Byte) : List Byte := slice l 8 8 ++ List.replicate 4 0

/-- The frame of path 2 (R455) goes to the egress of its port like a copy from port C. -/
def hbFrame (d : Dev) (payload : List Byte) : Dev :=
  let c := rd d (.pair 0) 0xa0
  let port := if 11 < fld c 0 6 then 0 else fld c 0 6
  let o := beBytes 6 (rf d (.pair 0) 0xa8 0 48) ++ beBytes 6 (rf d (macPage port) 0x98 0 48)
    ++ beBytes 2 0x8100 ++ beBytes 2 (fld c 18 3 * 8192 + fld c 6 12) ++ beBytes 2 (fld c 32 16) ++ payload
  let n := o.length + 4
  let copy : Copy := { fid := d.nextFid, ing := 27, port := port, octets := o, len := some n, maxLen := n, eligAt := d.now,
                       etype := fld c 32 16, info := { src := 27, pcp := fld c 18 3, vid := fld c 6 12, tagged := true } }
  let d1 := { d with nextFid := d.nextFid + 1 }
  if unreachable d port then cnt d1 (macPage port) 0x198 1
  else match tcOf d1 port (fld c 18 3) with
    | none => cnt d1 (quayPage (quayOfPort port) 1) 0x120 1
    | some t => (admitCopy d1 copy t 27 [] (cellCount n)).1

/-- 20 µs have passed since the last heartbeat instant (R455, R467). -/
def hbSendOp (d : Dev) : Dev :=
  let due := match d.pair.sentAt with | some x => decide (x + hbTicks ≤ d.now) | none => true
  if !pairOn d ∨ !domUp d 2 ∨ !due ∨ d.pwr.entry.isSome ∨ d.fcn.safe then d
  else
    let d1 := setPair d fun p => { p with sentAt := some d.now }
    let kicked := match d.pair.kickAt with | some x => decide (d.now ≤ x + hbTicks) | none => false
    if !kicked then d1
    else match pairKey d1 2 with
      | (none, d2) => d2
      | (some key, d2) =>
        let seq := d2.pair.seq + 1
        let l := hbPayload d2 seq
        let l1 := l ++ gmac key (hbIv l) l
        hbFrame (emit (setPair d2 fun p => { p with seq := seq }) (.heartbeat 0 l1)) l1

/-- Two heartbeats in which both units hold the claim (R458). -/
def splitCheck (d : Dev) : Dev :=
  if hbField d 4 1 % 2 = 1 ∧ holding d then
    let n := d.pair.splits + 1
    let d1 := setPair d fun p => { p with splits := n }
    if n = 2 then
      let d2 := pairRecord (raise d1 (.pair 0) 3) 7 0
      if claimNumber d2 < hbField d2 3 1 then pairHold d2 5 else d2
    else d1
  else setPair d fun p => { p with splits := 0 }

/-- PAIR_DIGEST_CFG.DIGEST_LIMIT and GUARD_US; 0 is invalid and acts as the reset value (R515). -/
def digestLimit (d : Dev) : Nat := let x := rf d (.pair 0) 0xb8 48 4; if x = 0 then 3 else x
def digestGuard (d : Dev) : Nat := let x := rf d (.pair 0) 0xb8 40 6; if x = 0 then 20 else x

/-- The closed digest against the one in the partner's last heartbeat, once per interval (R462). -/
def digestCompareOp (d : Dev) : Dev :=
  match d.pair.digest with
  | none => d
  | some (k, v) =>
    if d.pair.cmpMs = some k ∨ d.pair.hb = [] ∨ hbField d 32 4 ≠ k % 2 ^ 32 ∨ hbField d 32 4 = 0xFFFFFFFF then d
    else if hbField d 24 8 = v.toNat then setPair d fun p => { p with cmpMs := some k, digestOk := true, missRun := 0 }
    else
      let n := d.pair.missRun + 1
      let d1 := irq (cnt (setPair d fun p => { p with cmpMs := some k, digestOk := false, missRun := n }) (.pair 0) 0x110 1) (.pair 0) 2
      if n = digestLimit d then raise d1 (.pair 0) 5 else d1

/-- A heartbeat that does not count. -/
def hbReject (d : Dev) : Dev := cnt d (.pair 0) 0x108 1

/-- A heartbeat payload arrives on a path (R456). SEQ is judged per path, since both paths carry the same SEQ (log 32). -/
def hbRxOp (d : Dev) (path : Nat) (l : List Byte) : Dev :=
  if !pairOn d ∨ !domUp d 2 then d
  else if l.length ≠ 64 then hbReject d
  else match pairKey d 3 with
    | (none, d1) => hbReject d1
    | (some key, d1) =>
      let ep := leNat (slice l 8 4)
      let seq := leNat (slice l 12 4)
      let same := d1.pair.partner == some ep
      let newer := match kvGet d1.pair.seqs path with | some s => decide (s < seq) | none => true
      if gmac key (hbIv l) (l.take 48) ≠ l.drop 48 ∨ (same ∧ !newer) ∨ (!same ∧ octetAt l 2 ≠ 0) then hbReject d1
      else
        let high := (d1.pair.seqs.map (·.2)).foldl max 0
        let fresh := !same || decide (high < seq) || d1.pair.seqs.isEmpty
        let d2 := setPair d1 fun p =>
          { p with partner := some ep, seqs := kvPut (if same then p.seqs else []) path seq, seen := kvPut p.seen path d.now,
                   miss := kvPut p.miss path 0, hb := l, takeover := false, lost := false }
        let d3 := wr d2 (.pair 0) 0xd0 (bytesWord l)
        let d4 := if d.pair.lost then pairRecord (irq d3 (.pair 0) 1) 5 0 else d3
        let d5 := if octetAt l 1 = d.pair.unit.toNat then pairHold (raise d4 (.pair 0) 6) 7 else d4
        digestCompareOp (if fresh then splitCheck d5 else d5)

/-- A path's miss count; 3 or more where none was ever accepted (log 33). -/
def missCount (d : Dev) (path : Nat) : Nat :=
  match kvGet d.pair.seen path with | some x => (d.now - x) / hbTicks | none => 3

/-- A further 20 µs without an accepted heartbeat on a path (R456). -/
def hbMissOp (d : Dev) (path : Nat) : Dev :=
  if !pairOn d ∨ (kvGet d.pair.seen path).isNone then d
  else
    let was := kvD d.pair.miss path 0
    let n := missCount d path
    let d1 := setPair d fun p => { p with miss := kvPut p.miss path n }
    if was < 3 ∧ 3 ≤ n then
      let d2 := raise d1 (.pair 0) 1
      if 3 ≤ missCount d (1 - path) ∧ !d.pair.lost then
        let d3 := setPair d2 fun p => { p with lost := true, takeover := p.takeover || !holding d }
        pairRecord (irq (raise d3 (.pair 0) 2) (.pair 0) 1) 4 0
      else d2
    else d1

/-- PAIR_STAT as it reads (Table 17.11). -/
def pairStat (d : Dev) : W64 :=
  let c := withdrawCause d
  let ok (i : Nat) : Nat := (decide (missCount d i < 3)).toNat
  (rd d (.pair 0) 0xc0 &&& 1) ||| mkWord [(1, d.pair.number), (9, ok 0), (10, ok 1), (11, d.pair.lost.toNat),
    (12, (c != 0 || yielded d).toNat), (13, c), (17, d.pair.bank % 32)]

/-! ### Decision digests (R462) -/

/-- The CRC-64 of R391 over words, each most significant bit first (log 34). -/
def crc64 (l : List W64) : Nat := (l.flatMap fun w => beBytes 8 w.toNat).foldl (crcByteL 64 0x42F0E1EBA9EA3693) 0

/-- An edge frame decided by the Ferry's submission (R462): endpoint, format bits, identifier, data, edge targets with FWD,
route index, BWT generation. -/
def digestAdd (d : Dev) (src fmt id : Nat) (data : List Byte) (targets route gen : Nat) : Dev :=
  let c := rd d (.pair 0) 0xb8
  let dm := fld c 32 3
  let t := timeOf d dm / 65536
  let g := digestGuard d * 1000
  let k := t / 1000000
  if !bit c 35 ∨ !pairOn d ∨ src < 32 ∨ !bit c (src - 32) ∨ 4 < dm ∨ t % 1000000 ≤ g ∨ 1000000 - g ≤ t % 1000000 then d
  else
    let l := leBytes 1 src ++ leBytes 1 fmt ++ leBytes 2 0 ++ leBytes 4 id ++ fitLen 8 data ++ leBytes 4 targets
      ++ leBytes 2 route ++ leBytes 2 gen
    let x := BitVec.ofNat 64 (crc64 (bytesWords 3 l))
    setPair d fun p => { p with digests := kvPut p.digests k (kvD p.digests k 0 ^^^ x) }

/-- 100 µs after the end of a digest interval (R462). -/
def digestCloseOp (d : Dev) (syncOk : Bool) : Dev :=
  let c := rd d (.pair 0) 0xb8
  let ms := (timeOf d (fld c 32 3) / 65536 - 100000) / 1000000
  let closed : Bool := match d.pair.digest with | some (k, _) => k + 1 == ms | none => false
  if !bit c 35 ∨ !pairOn d ∨ ms = 0 ∨ closed then d
  else
    let k := ms - 1
    let d1 := setPair d fun p =>
      { p with digest := some (k, kvD p.digests k 0), digests := p.digests.filter fun e => decide (k < e.1) }
    if syncOk then digestCompareOp d1 else cnt (setPair d1 fun p => { p with cmpMs := some k }) (.pair 0) 0x118 1

/-! ### Standby self-tests (R463, R464) -/

/-- Whether the rotation runs: ROT_EN, and the unit does not hold the claim. -/
def rotOn (d : Dev) : Bool := rb d (.pair 0) 0x80 2 && !holding d && domUp d 9

/-- 5 ms of the rotation have passed (R463): a bank still under test has failed to complete; the next one is withdrawn. A rotation that
begins withdraws the bank it stands at. -/
def rotAdvanceOp (d : Dev) : Dev :=
  if !rotOn d then setPair d fun p => { p with rotWait := false, rotRun := false }
  else if d.pair.rotRun ∧ d.now < d.pair.rotAt + 5 * msTicks then d
  else
    let d1 := if d.pair.rotWait then raise d (.pair 0) 7 else d
    setPair d1 fun p => { p with rotWait := true, rotRun := true, rotAt := d.now, bank := if p.rotRun then (p.bank + 1) % 32 else p.bank }

/-- The withdrawn bank is free and has been tested (R463): a failing cell is retired by R17 and reported as its SECDED event; the
bank returns. The test of bank 31 ends a pass. -/
def rotTestOp (d : Dev) (failing : Option Nat) : Dev :=
  if !d.pair.rotWait then d
  else
    let d1 := match failing with
      | some c => raise (if d.retired1.contains c then d else { d with retired1 := d.retired1 ++ [c] }) .chip 0
      | none => d
    setPair d1 fun p =>
      { p with rotWait := false,
               rotPasses := if p.bank % 32 = 31 then (p.rotPasses + 1) % 256 else p.rotPasses,
               rotDone := p.rotDone || p.bank % 32 == 31 }

end Sys2Proof.Machine
end

