-- ==== Sys2Proof/Machine/Ferry.lean ====
section
/-! DEFINITION. The Ferry (R240 to R257): service order, routes, presentations on port 28, verdicts and targets, carriers,
aggregation windows, unpacking, late errors. -/

namespace Sys2Proof.Machine

/-- The Ferry replaced. -/
def setFerry (d : Dev) (f : FerrySt → FerrySt) : Dev := { d with ferry := f d.ferry }

/-- PWR_STAT.STATE. -/
def pwrState (d : Dev) : Nat := rf d .pwr 0x88 0 3

/-- Quay 3 takes no presentation (R27, R244, R286): isolated, or its domain off. -/
def ferryIso (d : Dev) : Bool := isolated d 3 || domCond d 8 == 0 || (domCond d 8 == 3 && decide (3 ≤ pwrState d))

/-! ### Tables of a generation (Tables 8.12 to 8.14; entries that R257 refuses act as not valid, R515) -/

/-- Word j of route i, of transmit stream i, of receive stream i. -/
def routeW (t : Store) (i j : Nat) : W64 := tIn t (0x03E00000 + i * 32 + j * 8)
def txW (t : Store) (i j : Nat) : W64 := tIn t (0x03E04000 + i * 64 + j * 8)
def rxW (t : Store) (i j : Nat) : W64 := tIn t (0x03E05000 + i * 32 + j * 8)

/-- Whether the words of a transmit stream's entry are valid: the window's limits in range. -/
def txOk (w0 w2 : W64) : Bool :=
  bit w0 63 && (fld w2 0 16 == 0 || decide (1 ≤ fld w2 16 7 ∧ fld w2 16 7 ≤ 64 ∧ 24 ≤ fld w2 24 11 ∧ fld w2 24 11 ≤ 1488))

/-- Whether word 1 of a receive stream's entry is valid. -/
def rxOk (w1 : W64) : Bool := bit w1 63 && (decide (fld w1 0 6 < 29) || fld w1 0 6 == 63)

/-- Identifier and format bits of an edge frame (R241). -/
def workId (w : EdgeWork) : Nat × Nat :=
  match w.can, w.lin with
  | some f, _ => (f.id, f.ide.toNat + f.fdf.toNat * 2 + f.xlf.toNat * 4)
  | none, some f => (f.fid, 0)
  | none, none => (0, 0)

/-- Whether route i acts on an edge frame (R241). -/
def routeHits (t : Store) (w : EdgeWork) (i : Nat) : Bool :=
  let r0 := routeW t i 0
  let r1 := routeW t i 1
  let (id, fmt) := workId w
  let key := id + fmt * 2 ^ 29
  let source := match w.stream with
    | some s => bit r0 39 && fld r0 32 7 == s && fld r0 40 5 == w.busId && rxOk (rxW t s 1)
    | none => !bit r0 39 && fld r0 32 7 == w.src
  bit r0 63 && fld (routeW t i 3) 32 2 != 3 && source && (Nat.xor key (fld r0 0 32)) &&& fld r1 0 32 == 0

/-- The route of an edge frame: the matching one of the lowest index. -/
def routeOf (t : Store) (w : EdgeWork) : Option Nat := (List.range 512).find? (routeHits t w)

/-- What a generation would do with a frame: its route, its edge targets, its transmit stream. A frame of CAN XL is never
carried in ACF: `xl` says that its Ethernet destinations are removed (R246). `unrouted`: decided against port 28. -/
structure FPlan where
  route    : Option Nat := none
  targets  : List Nat := []
  stream   : Option Nat := none
  xl       : Bool := false
  unrouted : Bool := false
deriving DecidableEq, Repr

/-- The plan of a frame under a view (R243, Table 8.4). -/
def ferryPlan (d : Dev) (vw : View) (w : EdgeWork) : FPlan :=
  match routeOf vw.tbl w with
  | none => { unrouted := bit (va d vw .ferry 0x80) 0 }
  | some i =>
    let r2 := routeW vw.tbl i 2
    let mask := fld r2 0 32
    let s := fld r2 32 6
    let eth := bit r2 38 && txOk (txW vw.tbl s 0) (txW vw.tbl s 2)
    let xl := match w.can with | some f => f.xlf | none => false
    { route := some i, targets := ((List.range 32).filter fun k => mask / 2 ^ k % 2 == 1).map (32 + ·),
      stream := if eth && !xl then some s else none, xl := eth && xl }

/-- What R245 compares of two plans: the stream and its entry. -/
def carryKey (vw : View) (p : FPlan) : Option (Nat × List W64) :=
  p.stream.map fun s => (s, [txW vw.tbl s 0, txW vw.tbl s 1, txW vw.tbl s 2])

/-- WINDOW_US of a stream. -/
def windowUs (t : Store) (s : Nat) : Nat := fld (txW t s 2) 0 16

/-- Whether a plan presents its frame as CARRY (Table 8.4). -/
def FPlan.carries (vw : View) (p : FPlan) : Bool := match p.stream with | some s => windowUs vw.tbl s == 0 | none => false

/-- The generations that the search of a frame covers (R245): its carrier's, or the one in force and one that is pending. -/
def searchViews (d : Dev) (w : EdgeWork) : List View :=
  match w.epoch with
  | some e => [viewOf d e]
  | none =>
    if rb d .ferry 0x18 4 then
      [curView d, { curView d with act := copyShadow d.regs d.act .ferry, tbl := copyRange d.tbl 0x03E00000 0x03C00000 0x8000 }]
    else [curView d]

/-! ### Messages and carriers (R249, Table 8.5) -/

/-- The ACF message of a frame for a stream: bus_id of its endpoint, or a message's own. -/
def ferryMsg (d : Dev) (vw : View) (w : EdgeWork) (s : Nat) : List Byte :=
  let w2 := txW vw.tbl s 2
  let bus := match w.stream with
    | some _ => w.busId
    | none => fld (va d vw .ferry (0x90 + (w.src - 32) / 8 * 8)) ((w.src - 32) % 8 * 8) 5
  let ts := if bit w2 35 then w.dom.map (· / 65536) else none
  match w.can, w.lin with
  | some f, _ => acfOfCan f (bit w2 36) bus ts
  | none, some f => acfOfLin f bus ts
  | none, none => []

/-- A carrier of a stream with these messages, with the stream's next sequence_num. -/
def ferryCarrier (d : Dev) (vw : View) (s : Nat) (msgs : List Byte) : List Byte × Dev :=
  let w0 := txW vw.tbl s 0
  let seq := kvD d.ferry.txSeq s 0
  (ntscf (fld w0 0 48) (fld (va d vw .ferry 0x88) 0 48) (fld w0 48 12) (fld w0 60 3) (txW vw.tbl s 1).toNat seq msgs,
    setFerry d fun f => { f with txSeq := kvPut f.txSeq s ((seq + 1) % 256) })

/-- A presentation that Quay 3 treats as DROP (R244). -/
def isoDrop (d : Dev) : Dev := cnt d .ferry 0x218 1

/-- The next edge of CLK_EDGE. -/
def edgeUp (t : Instant) : Instant := (t + (edgeTicks - 1)) / edgeTicks * edgeTicks

/-- A carrier of a stream that is presented as CARRY and dropped: it counts and takes its sequence_num all the same (R249). -/
def carrierGone (d : Dev) (vw : View) (s : Nat) : Dev := (ferryCarrier (cnt d .ferry 0x238 1) vw s []).2

/-- A presentation ends without a decision. -/
def presGone (d : Dev) (q : Pres) : Dev :=
  match q.work with
  | none => carrierGone d (viewOf d q.epoch) q.stream
  | some w =>
    let vw := match w.epoch with | some x => viewOf d x | none => curView d
    match q.carry, (ferryPlan d vw w).stream with
    | true, some s => carrierGone d vw s
    | _, _ => d

/-- A carrier of frames decided already is presented within 80 cycles of CLK_EDGE (R245, R252): when, the manual leaves open. -/
def presentCarrier (d : Dev) (vw : View) (s : Nat) (msgs : List WinMsg) : Dev :=
  if ferryIso d then isoDrop (carrierGone d vw s)
  else
    let (k, d2) := freeNat d
    pushReady { d2 with nextFid := d2.nextFid + 1 }
      { fid := d2.nextFid, port := 28, ready := presSlot d2 28 (edgeUp d2.now + k % 80 * edgeTicks), frame := { octets := [] },
        pres := some { stream := s, epoch := vw.epoch, msgs := msgs, search := d2.now } }

/-! ### Service order and presentation (R240 to R242, R244, R245) -/

/-- Whether a comes before b among ready bus frames: by readiness, then by endpoint. -/
def workBefore (a b : EdgeWork) : Bool := decide (a.ready < b.ready ∨ (a.ready = b.ready ∧ a.src < b.src))

/-- The next ready work, taken from its place (R240). -/
def ferryTake (d : Dev) : Option (EdgeWork × Dev) :=
  let due := d.ferry.ready.filter fun w => w.ready ≤ d.now
  let first := due.foldl (fun m w => match m with
    | none => some w
    | some x => if workBefore w x then some w else some x) none
  match first with
  | some w => some (w, setFerry d fun f => { f with ready := f.ready.filter (·.id != w.id) })
  | none => match d.ferry.carriers with
    | (w :: l) :: rest =>
      if w.ready ≤ d.now then some (w, setFerry d fun f => { f with carriers := if l = [] then rest else l :: rest }) else none
    | _ => none

/-- The kind of presentation of a frame whose search covers these views: none, or whether it is a CARRY. -/
def presKind (vs : List (View × FPlan)) : Option Bool :=
  if vs.all fun x => x.2.route.isNone && !x.2.unrouted then none
  else match vs with
    | [] => none
    | x :: l => some (x.2.carries x.1 && l.all fun y => carryKey y.1 y.2 == carryKey x.1 x.2)

/-- The last presentation that waits of a frame from the same source for a target of this one (R247). -/
def presBehind (d : Dev) (w : EdgeWork) (targets : List Nat) : Instant :=
  (quay d 3).ready.foldl (fun t h => match h.pres with
    | some { work := some x, .. } =>
      let vw := match x.epoch with | some e => viewOf d e | none => curView d
      if x.src = w.src ∧ x.stream = w.stream ∧ (ferryPlan d vw x).targets.any targets.contains then max t h.ready else t
    | _ => t) 0

/-- A frame is searched and presented on port 28 (R241 to R245), at the cycles of Tables 8.6 and 8.7, but not before an earlier frame of its
source with a target of its own (R247; DEDUCED, log 192). -/
def ferrySubmit (d : Dev) (w : EdgeWork) : Dev :=
  let vs := (searchViews d w).map fun v => (v, ferryPlan d v w)
  match presKind vs with
  | none => cnt d .ferry 0x208 1
  | some carry =>
    let d1 := cnt d .ferry 0x200 1
    let d2 := if vs.any (·.2.xl) then cnt d1 .ferry 0x228 1 else d1
    if ferryIso d2 then isoDrop (presGone d2 { work := some w, carry := carry })
    else
      let bus := w.stream.isNone
      let search := edgeUp d2.now + (if bus then 24 else 14) * edgeTicks
      let ready := presSlot d2 28 (max (search + (if carry then 76 else if bus then 4 else 2) * edgeTicks)
        (presBehind d2 w (vs.flatMap (·.2.targets))))
      pushReady { d2 with nextFid := d2.nextFid + 1 }
        { fid := d2.nextFid, port := 28, ready := ready, frame := { octets := [] },
          pres := some { work := some w, carry := carry, search := search } }

/-- The Ferry starts on its next ready work (R240); a frame of the message RAM may show an error (R227). -/
def ferryStartOp (d : Dev) (e : EccEvent) : Dev :=
  let spaced := match d.ferry.lastAt with | some x => decide (x + 4 * edgeTicks ≤ d.now) | none => true
  if !running d .ferry || !domUp d 14 || !spaced then d
  else match ferryTake d with
    | none => d
    | some (w, d1) =>
      let wait := (d.now - w.ready) / edgeTicks
      let d2 := setFerry d1 fun f => { f with lastAt := some d.now }
      let d3 := if (rd d2 .ferry 0xb0).toNat < wait then wr d2 .ferry 0xb0 (BitVec.ofNat 64 wait) else d2
      let ram := w.stream.isNone && w.can.isSome
      if ram && e.lost then ramLost d3 (w.src - 32) else ferrySubmit (if ram then ramRead d3 e else d3) w

/-- When a FERRY commit is accepted, the frames whose search had finished and that are not yet presented have their shadow
search repeated (R245): at most 8 cycles of CLK_EDGE later, as what both generations call for, and spaced as R104 asks. -/
def ferryResearch (d : Dev) : Dev :=
  let hit (h : ReadyHdr) : Bool := match h.pres with
    | some p => (match p.work with | some w => w.epoch.isNone | none => false) && decide (p.search < d.now ∧ d.now + 4 < h.ready)
    | none => false
  let q := quay d 3
  let again (h : ReadyHdr) (r : Instant) : ReadyHdr := match h.pres with
    | some p => match p.work with
      | some w =>
        let vs := (searchViews d w).map fun v => (v, ferryPlan d v w)
        { h with ready := r, pres := some { p with carry := (presKind vs).getD p.carry } }
      | none => h
    | none => h
  let hits := q.ready.filter hit
  let d1 := hits.foldl (fun d h =>
    let s := quay d 3
    let r := presSlot (setQuay d 3 { s with ready := s.ready.filter (·.fid != h.fid) }) 28 (h.ready + 8 * edgeTicks - 4)
    setQuay d 3 { s with ready := s.ready.map fun x => if x.fid = h.fid then again x r else x }) d
  cnt d1 .ferry 0x278 hits.length

/-! ### The decision of a presentation (R143, R144, R159, R243) -/

/-- What the copies of a presentation share. -/
def ferryInfo (src sz vid pcp epoch : Nat) : RxMeta := { src := src, pcp := pcp, vid := vid, srcZone := sz, epoch := epoch }

/-- The plan of the copies of a carrier. -/
def carrierPlan (d : Dev) (vw : View) (e : Instant) (fid : Nat) (l : List Byte) (info : RxMeta) : Plan :=
  let w := va d vw (quayPage 3 0) 0x80
  let cfg := parseCfg (if fld w 0 16 = 0x8100 ∨ fld w 0 16 = 0x88A8 then setFld w 0 16 0 else w)
  { fid := fid, n := 3, p := 28, e := e, octets := l, parsed := parse l cfg, cfg := cfg, vid := info.vid, pcp := info.pcp,
    dei := false, fwdVid := info.vid, fwdPcp := info.pcp, len := some (l.length + 4), whole := true, cutOk := false,
    maxLen := l.length + 4, sz := info.srcZone, info := info, tsId := none }

/-- The classification VID of a stream's carriers (R144): the stream's, or port 28's PVID. -/
def streamVid (d : Dev) (vw : View) (vid : Nat) : Nat := if vid = 0 then (portCfg d vw 28).pvid else vid

/-- The Ethernet destinations of a stream (R112, R144, R243), with the UNTAG of its VLAN; none: the frame is dropped. -/
def streamDests (d : Dev) (vw : View) (e : Instant) (vid da : Nat) : Dev × Option (List Nat × Nat) :=
  match vlanEntry vw.tbl vid with
  | none => (cnt d (quayPage 3 0) 0x210 1, none)
  | some (member, untag, _) =>
    let o := daLookup (tableAt d (e + 9)) vid da member
    if o.drop then (cnt d (quayPage 3 0) 0x210 1, none)
    else
      let d1 := if o.flood then cnt d (quayPage 3 0) 0x240 1 else d
      let (d2, l) := reachSet d1 3 28 member o
      (d2, some (l, untag))

/-- The body of the key and the KIND of an edge frame. -/
def workKey (w : EdgeWork) : Nat × Nat :=
  match w.can, w.lin with
  | some f, _ => (3, canKeyBody f w.stream.isSome w.sec)
  | none, some f => (4, linKeyBody f w.stream.isSome)
  | none, none => (3, 0)

/-- The PDU of a quarantine or mirror copy of a frame that is decided alone (R160): its DA, stream_id and sequence_num are open. -/
def loosePdu (d : Dev) (vw : View) (w : EdgeWork) : List Byte × Dev :=
  let (a, d1) := freeNat d
  let (b, d2) := freeNat d1
  let (c, d3) := freeNat d2
  let bus := match w.stream with | some _ => w.busId | none => fld (va d vw .ferry (0x90 + (w.src - 32) / 8 * 8)) ((w.src - 32) % 8 * 8) 5
  let msg := match w.can, w.lin with
    | some f, _ => acfOfCan f false bus none
    | none, some f => acfOfLin f bus none
    | none, none => []
  (ntscf (a % 2 ^ 48) (fld (va d vw .ferry 0x88) 0 48) 0 0 (b % 2 ^ 64) (c % 256) msg, d3)

/-- Quarantine and mirror copies of an edge frame; a CAN XL frame has no ACF form, so its copies are lost (log 35). -/
def ferrySides (d : Dev) (vw : View) (e : Instant) (h : ReadyHdr) (w : EdgeWork) (x : Option (Plan × Nat)) (info : RxMeta) (acts : List (Nat × Action)) : Dev :=
  let quar := acts.any (fun a => a.2.verdict == 2)
  let mirr := acts.any (fun a => a.2.mirror.isSome)
  let zone (y : Nat) : Nat := (zoneOf vw.tbl y 0).getD 63
  if !quar && !mirr then d
  else match x with
    | some (p, untag) => sideMore d p untag acts zone
    | none =>
      if (match w.can with | some f => f.xlf | none => false) then cnt (cnt d (.bwt 0) 0x118 quar.toNat) (.bwt 0) 0x120 mirr.toNat
      else
        let (l, d1) := loosePdu d vw w
        sideMore d1 (carrierPlan d1 vw e h.fid l info) (2 ^ 26) acts zone

/-- Octets 0 to 7 and more of an edge frame, as they enter the digest of R462. -/
def workData (w : EdgeWork) : List Byte :=
  match w.can, w.lin with
  | some f, _ => f.data
  | none, some f => f.data
  | none, none => []

/-- The record of a decided bus frame enters the digest (R462); the route index of a frame without a route is open. -/
def ferryDigest (d : Dev) (vw : View) (w : EdgeWork) (route : Option Nat) (fwd : List Nat) : Dev :=
  if w.stream.isSome then d
  else
    let (id, fmt) := workId w
    let targets := ((fwd.filter (32 ≤ ·)).map fun x => 2 ^ (x - 32)).sum
    let (r, d1) := match route with
      | some i => (i, d)
      | none => (let (k, d1) := freeNat d; (k % 65536, d1))
    digestAdd d1 w.src fmt id (workData w) targets r (vw.gen % 65536)

/-- The decision point of a DECIDE or CARRY presentation that entered at e. Its key has FLAGS 0 but for DIAG_OPEN (DESIGN CHOICE, log 186)
and VID 0, which is also the VLAN whose zone a destination with ZONE_BY_VLAN takes (R141; DESIGN CHOICE, log 187). METER acts on the edge
copies, and on every copy of a frame presented as DECIDE, with the octets of the frame's data (R151; log 188). -/
def decideEdge (d : Dev) (e : Instant) (h : ReadyHdr) (carry0 : Bool) (w : EdgeWork) : Dev :=
  let vw := match w.epoch with | some x => viewOf d x | none => curView d
  let p := ferryPlan d vw w
  let carry := carry0 && p.carries vw
  let back (d : Dev) (fwd : List Nat) : Dev :=
    setFerry d fun f => { f with back := f.back ++ [{ work := w, carry := carry, fwd := fwd, epoch := vw.epoch, at0 := e - 4 }] }
  let dC := if carry then cnt d .ferry 0x238 1 else d
  let (l, dL0) := match p.stream with
    | some s => if carry then ferryCarrier dC vw s (ferryMsg dC vw w s) else ([], dC)
    | none => ([], dC)
  let dL := if carry then cnt dL0 (macPage 28) 0x100 (l.length + 4) else dL0
  let w0 := match p.stream with | some s => txW vw.tbl s 0 | none => 0
  let vid := streamVid dL vw (fld w0 48 12)
  let (dD, eth) := match p.stream with
    | some _ => streamDests dL vw e vid (fld w0 0 48)
    | none => (dL, some ([], 0))
  match eth with
  | none => back dD []
  | some (ports, untag) =>
    let dests := (if p.unrouted then [28] else []) ++ ports ++ p.targets
    match zoneOf vw.tbl w.src w.vid with
    | none => back (cnt dD (.bwt 0) 0x128 1) []
    | some sz =>
      let (kind, body) := workKey w
      let subj : Subject := { kind := kind, src := w.src, srcZone := sz, pcp := 0, vid := 0, flags := 0, stream := none, body := body }
      let (d1, out) := breakwater dD { q := 3, vw := vw, subj := subj, parsed := none, dests := dests, len := 0, e := e }
      let lone := out.acts.filter fun a => a.2.verdict == 0 && (!carry || decide (28 ≤ a.1))
      let (d1, red, _) := metersOp d1 vw.tbl 3 (workData w).length false (lone.filterMap fun a => a.2.meter.map fun m => (a.1, m))
      let fwd := (out.acts.filter fun a => a.2.verdict == 0 && !red.contains a.1).map (·.1)
      let info := ferryInfo w.src sz vid (fld w0 60 3) vw.epoch
      let x := carrierPlan d vw e h.fid l info
      let d2 := if carry then forward d1 vw x (streamFind vw.tbl 3 vid x.parsed) untag (out.acts.filter fun a => a.1 < 28) else d1
      let tp : Tap := { wtag := 0, verdict := 0, src := w.src, can := w.can, lin := w.lin, epoch := vw.epoch }
      let d3 := ferrySides (sendTap d2 out.acts tp) vw e h w (if carry then some (x, untag) else none) info out.acts
      back (ferryDigest d3 vw w p.route fwd) fwd

/-- The ports that were FWD for every message of a carrier (R252). -/
def winPorts : List WinMsg → List Nat
  | [] => []
  | m :: l => m.ports.filter fun p => l.all fun x => x.ports.contains p

/-- The forwarding of a carrier whose frames are decided already (R252), to the ports that are reachable now. -/
def forwardCarrier (d : Dev) (e : Instant) (h : ReadyHdr) (q : Pres) : Dev :=
  let vw := curView d
  let (l, dC) := ferryCarrier (cnt d .ferry 0x238 1) (viewOf d q.epoch) q.stream (q.msgs.flatMap (·.octets))
  let src := match q.msgs with | m :: _ => m.src | [] => 31
  let pcp := fld (txW (viewOf d q.epoch).tbl q.stream 0) 60 3
  let x0 := carrierPlan dC vw e h.fid l {}
  let vid := streamVid dC vw ((x0.parsed.outer.map (·.1)).getD 0)
  let d0 := cnt dC (macPage 28) 0x100 (l.length + 4)
  match vlanEntry vw.tbl vid with
  | none => cnt d0 (quayPage 3 0) 0x210 1
  | some (member, untag, _) =>
    let (d1, ports) := reachSet d0 3 28 member { dests := winPorts q.msgs }
    let info := ferryInfo src ((zoneOf vw.tbl src 0).getD 63) vid pcp vw.epoch
    let x := carrierPlan d vw e h.fid l info
    forward d1 vw x (streamFind vw.tbl 3 vid x.parsed) untag (ports.map fun y => (y, { verdict := 0 }))

/-- The pipeline entry of a presentation of the Ferry: port 28 counts it in RX_FRAMES, a carrier in RX_OCTETS too; where port 28
accepts no frames the presentation ends there. -/
def entryFerry (d : Dev) (h : ReadyHdr) : Dev :=
  if !rxAccepts d 28 then
    let s := quay d 3
    presGone (setQuay d 3 { s with ready := s.ready.filter (·.fid != h.fid) }) (h.pres.getD {})
  else
    cnt (admitHeader d 3 (entryCycle d 3 h) h) (macPage 28) 0x108 1

/-- The decision of a presentation of the Ferry that entered at e. -/
def decidedFerry (d : Dev) (e : Instant) (h : ReadyHdr) (q : Pres) : Dev :=
  match q.work with
  | some w => decideEdge d e h q.carry w
  | none => forwardCarrier d e h q

/-- Presentations that wait when Quay 3 is isolated are treated as DROP (R244). -/
def ferryLost (d : Dev) : Dev :=
  let q := quay d 3
  let (gone, kept) := q.ready.partition fun h => h.port == 28
  let (gone1, kept1) := q.pipe.partition fun h => h.2.port == 28
  (gone ++ gone1.map (·.2)).foldl (fun d h => isoDrop (presGone d (h.pres.getD {}))) (setQuay d 3 { q with ready := kept, pipe := kept1 })

/-! ### Verdicts and targets (R246, R247, R250, R251) -/

/-- Data lengths that a format can carry (R246). -/
def dataFits (fdf xlf : Bool) (n : Nat) : Bool :=
  if xlf then decide (1 ≤ n ∧ n ≤ 2048)
  else if fdf then decide (n ≤ 8) || [12, 16, 20, 24, 32, 48, 64].contains n else decide (n ≤ 8)

/-- The copy of a frame for a CAN target (R246); none counts FERRY_FMT_DROP. -/
def translate (d : Dev) (t : Store) (route k : Nat) (w : EdgeWork) : Option CanFrame :=
  let r1 := routeW t route 1
  let r3 := routeW t route 3
  let src : CanFrame := match w.can, w.lin with
    | some f, _ => f
    | none, some f => { id := 0, dlc := f.data.length, data := f.data }
    | none, none => { id := 0 }
  let mode := if w.can.isNone ∧ fld r3 32 2 ≠ 1 then 1 else fld r3 32 2
  let m := fld r1 0 29
  let id := if mode = 0 then src.id else if mode = 1 then fld r3 0 29 else (fld r3 0 29 &&& m) ||| (src.id &&& (2 ^ 29 - 1 - m))
  let ide := if mode = 1 then bit r3 29 else src.ide
  let fmt := fld r3 30 2
  let f : CanFrame :=
    if fmt = 0 then { src with id := id, ide := ide }
    else { src with id := id, ide := ide, fdf := fmt != 1, xlf := false, brs := fmt == 3 }
  let n := f.data.length
  if (src.xlf && fmt != 0) || !dataFits f.fdf f.xlf n || (f.fdf && f.rtr) || (!f.ide && decide (0x7FF < f.id)) || !canHasFormat d k f then none
  else some { f with esi := if f.fdf then false else f.esi, dlc := if f.xlf ∨ f.rtr then f.dlc else if src.fdf = f.fdf then f.dlc else dlcOf f.fdf n }

/-- A copy reaches its edge target (R246, R247): a CAN controller's transmit area, or a LIN publish buffer. -/
def toTarget (d : Dev) (t : Store) (route : Nat) (w : EdgeWork) (target : Nat) : Dev :=
  let drop (d : Dev) : Dev := cnt d .ferry 0x220 1
  if target < 56 then
    match translate d t route (target - 32) w with
    | none => drop d
    | some f =>
      let k := target - 32
      let secs := if f.xlf ∧ (canAssoc d k f.vcid 18).isSome then 24 + (f.data.length - 64 + 15) / 16 else 0
      let cycles := (if w.stream.isNone then 53 else 41) + (if f.xlf then (f.data.length - 64 + 7) / 8 else 0) + secs
      canInsert d k { f := f, reqAt := edgeUp d.now + cycles * edgeTicks, src := w.src, work := w.id }
  else
    let l := target - 56
    let fid := fld (routeW t route 3) 34 6
    match linFor t l fid with
    | none => drop d
    | some e =>
      let n := fld e 8 4
      if (workData w).length < n then drop d else pubWrite d l fid w.id ((workData w).take n)

/-- OPEN_WINDOWS and SEARCH_BOTH (Table 8.9). -/
def ferryStat (d : Dev) : W64 := mkWord [(0, min 127 d.ferry.windows.length), (7, (rb d .ferry 0x18 4).toNat)]

/-- A window closes: its carrier goes to the ports that were FWD for every frame in it (R250, R252). -/
def closeWindow (d : Dev) (s : Nat) : Dev :=
  match kvGet d.ferry.windows s with
  | none => d
  | some x =>
    let d1 := setFerry d fun f => { f with windows := kvDel f.windows s }
    if x.msgs = [] then d1 else presentCarrier d1 (viewOf d1 x.epoch) s x.msgs

/-- The message of a frame for a stream, with the ports that were FWD for the frame. -/
def winMsg (d : Dev) (vw : View) (w : EdgeWork) (s : Nat) (ports : List Nat) : WinMsg :=
  { work := w.id, src := w.src, octets := ferryMsg d vw w s, ports := ports }

/-- A frame is packed into the window of its stream (R250, R251). `dp`: local time of its decision point. -/
def pack (d : Dev) (vw : View) (s dp : Nat) (w : EdgeWork) (ports : List Nat) (urgent : Bool) : Dev :=
  let w2 := txW vw.tbl s 2
  let m := winMsg d vw w s ports
  let d1 := match kvGet d.ferry.windows s with
    | some x => if x.fgen ≠ vw.fgen ∨ fld w2 24 11 < ((x.msgs.map fun y => y.octets.length).sum) + m.octets.length then closeWindow d s else d
    | none => d
  let x : Window := match kvGet d1.ferry.windows s with
    | some x => { x with msgs := x.msgs ++ [m] }
    | none => { epoch := vw.epoch, fgen := vw.fgen, opened := dp, msgs := [m] }
  let d2 := setFerry d1 fun f => { f with windows := kvPut f.windows s x }
  if urgent || decide (fld w2 16 7 ≤ x.msgs.length) then closeWindow d2 s else d2

/-- Copies withdrawn by a late error (R248). -/
def lateCount (d : Dev) (n : Nat) : Dev := if n = 0 then d else irq (cnt d .ferry 0x230 n) .ferry 1

/-- The copies of a decided frame that a late error withdraws: those for edge targets, and for Ethernet where it is not a CARRY (R248). -/
def lateCopies (v : Verdicts) : Nat := (v.fwd.filter fun x => decide (32 ≤ x) || (!v.carry && decide (x < 28))).length

/-- The oldest verdicts return (R242, R243, R245): 30 cycles of CLK_FAB after the presentation. -/
def verdictReturnOp (d : Dev) : Dev :=
  match d.ferry.back with
  | [] => d
  | v :: l =>
    if d.now < v.at0 + 30 then d
    else
      let d0 := setFerry d fun f => { f with back := l }
      let vw := viewOf d0 v.epoch
      let p := ferryPlan d0 vw v.work
      if v.fwd = [] then cnt d0 .ferry 0x210 1
      else if v.work.late then lateCount d0 (lateCopies v)
      else match p.route with
        | none => d0
        | some r =>
          let d1 := (p.targets.filter v.fwd.contains).foldl (fun d x => toTarget d vw.tbl r v.work x) d0
          let ports := v.fwd.filter (· < 28)
          match p.stream with
          | some s =>
            if v.carry || ports.isEmpty then d1
            else if windowUs vw.tbl s = 0 then presentCarrier d1 vw s [winMsg d1 vw v.work s ports]
            else pack d1 vw s (locAt d1 (v.at0 + 23)) v.work ports (bit (routeW vw.tbl r 2) 39)
          | none => d1

/-- WINDOW_US have passed since a window opened, or another closing condition holds (R250). -/
def aggCloseOp (d : Dev) (s : Nat) : Dev :=
  match kvGet d.ferry.windows s with
  | none => d
  | some x => if x.opened + windowUs (viewOf d x.epoch).tbl s * 65536000 ≤ locNow d then closeWindow d s else d

/-! ### Carriers received (R253, R254) -/

/-- The head copy of port 28 is taken by the Ferry's side of Quay 3 (R177); how its buffer cells read (R18). -/
def selectFerry (d0 : Dev) (e : EccEvent) : Dev :=
  if !txReady d0 28 ∨ unreachable d0 28 then d0
  else
    let d := lookPort d0 28
    match pick d 28 (fun _ => true) with
    | none => d
    | some (t, i) => match takeHead d 28 t i with
      | (d1, none) => d1
      | (d1, some c) =>
        let d2 := bufRead d1 e
        if e.lost then freeCopy d2 c
        else
          let d3 := cnt (cnt d2 (macPage 28) 0x180 (c.octets.length + 4)) (macPage 28) 0x188 1
          { d3 with ferryIn := d3.ferryIn ++ [c] }

/-- While port 28 is unreachable, its queued copies are freed, each counted (R253). -/
def ferryOff (d : Dev) : Dev :=
  takeCopies d 3 (fun c => c.port == 28) (fun d c => freeCopy (cnt d (macPage 28) 0x198 1) c)

/-- The receive stream of a carrier. -/
def rxStream (t : Store) (id port vid : Nat) : Option Nat :=
  (List.range 128).find? fun i =>
    let w1 := rxW t i 1
    rxOk w1 && (rxW t i 0).toNat == id && (fld w1 0 6 == 63 || fld w1 0 6 == port) && (fld w1 6 12 == 0 || fld w1 6 12 == vid)

/-- The messages of an accepted carrier as frames (R254): the n-th starts 4 (n - 1) cycles of CLK_EDGE after the first. -/
def unpack (d : Dev) (c : Copy) (a : Avtp) (l2 stream : Nat) : Dev :=
  let (ms, bad) := acfWalk c.octets (l2 + a.hdr + a.len) c.octets.length (l2 + a.hdr)
  let d1 := if bad then irq (cnt d .ferry 0x250 1) .ferry 0 else d
  let d2 := cnt d1 .ferry 0x260 (ms.length - 64)
  let first := ms.take 64
  let known (m : AcfMsg) : Bool := m.type == 1 || m.type == 2 || m.type == 3
  let d3 := cnt d2 .ferry 0x258 (first.filter fun m => !known m).length
  let start := edgeUp d3.now + 4 * edgeTicks
  let works := (first.zipIdx.filter fun m => known m.1).map fun m =>
    let can := if m.1.type = 3 then none else some (acfCan c.octets m.1)
    let lin := if m.1.type = 3 then some (acfLin c.octets m.1) else none
    ({ id := d3.ferry.nextId + m.2, src := c.info.src, stream := some stream, busId := acfBus c.octets m.1, can := can, lin := lin, loc := 0,
       ready := start + 4 * m.2 * edgeTicks, epoch := some c.info.epoch, vid := c.info.vid } : EdgeWork)
  setFerry d3 fun f => { f with nextId := f.nextId + 64, carriers := if works = [] then f.carriers else f.carriers ++ [works] }

/-- What becomes of a frame that reaches the Ferry (R253). -/
def carrierOp (d : Dev) (c : Copy) : Dev :=
  let vw := viewOf d c.info.epoch
  let w := va d vw (quayPage 3 0) 0x80
  let pa := parse c.octets (parseCfg (if fld w 0 16 = 0x8100 ∨ fld w 0 16 = 0x88A8 then setFld w 0 16 0 else w))
  let st := octetAt c.octets pa.l2
  let nostream (d : Dev) : Dev := cnt d .ferry 0x248 1
  if pa.etype ≠ 0x22F0 ∨ c.octets.length ≤ pa.l2 ∨ ¬(st = 0x82 ∨ st = 0x05) then nostream d
  else
    let a := avtpAt c.octets pa.l2
    if c.octets.length < pa.l2 + a.hdr then irq (cnt d .ferry 0x250 1) .ferry 0
    else match rxStream vw.tbl a.stream c.ing c.info.vid with
      | none => nostream d
      | some s =>
        let chk := bit (rxW vw.tbl s 1) 18
        let last := kvGet d.ferry.rxSeq s
        if chk && last == some a.seq then cnt d .ferry 0x270 1
        else
          let gap := chk && (match last with | some x => (x + 1) % 256 != a.seq | none => false)
          let d1 := cnt (cnt d .ferry 0x268 gap.toNat) .ferry 0x240 1
          unpack (setFerry d1 fun f => { f with rxSeq := kvPut f.rxSeq s a.seq }) c a pa.l2 s

/-- Quay 3 hands the head copy of port 28 to the Ferry (R253): one that was selected, else the next one. -/
def carrierReceivedOp (d0 : Dev) : Dev :=
  let d := if d0.ferryIn = [] then selectFerry d0 .clean else d0
  match d.ferryIn with
  | [] => d
  | c :: l =>
    let d1 := { d with ferryIn := l }
    if running d1 .ferry then carrierOp d1 c else d1

/-! ### Late errors and stalls (R240, R248) -/

/-- The frame `w` withdrawn from a presentation that waits on port 28 (R248), and how many copies that withdraws at once: one that is not
presented yet goes, and a carrier loses the frame's messages; one that is presented is marked, for its verdicts. -/
def presWithdraw (now : Instant) (mine : EdgeWork → Bool) (w : Nat) (h : ReadyHdr) : Option ReadyHdr × Nat :=
  match h.pres with
  | none => (some h, 0)
  | some p =>
    match p.work with
    | some x =>
      if !mine x then (some h, 0)
      else if now < h.ready then (none, 1)
      else (some { h with pres := some { p with work := some { x with late := true } } }, 0)
    | none =>
      if h.ready ≤ now then (some h, 0)
      else
        let l := p.msgs.filter fun m => m.work != w
        (if l = [] then none else some { h with pres := some { p with msgs := l } }, p.msgs.length - l.length)

/-- An error in the first six bits of the end-of-frame field of the last frame of channel k (R248): every copy that is not
presented, or whose transmission has not started, is withdrawn. -/
def lateErrorOp (d : Dev) (k : Nat) (onBus : List (Fin 24)) : Dev :=
  match (can d k).lastRx with
  | none => d
  | some w0 =>
    let w := w0.id
    let mine (x : EdgeWork) : Bool := x.id == w && x.stream.isNone
    let q := quay d 3
    let held := q.ready.map (presWithdraw d.now mine w)
    let entered := q.pipe.filterMap fun h => (presWithdraw h.1 mine w h.2).1.map fun x => (h.1, x)
    let backs := d.ferry.back.filter fun v => mine v.work
    let n0 := (d.ferry.ready.filter mine).length + (held.map (·.2)).sum + (backs.map lateCopies).sum
      + (d.ferry.windows.map fun e => (e.2.msgs.filter fun m => m.work == w).length).sum
    let without (e : Nat × Window) : Option (Nat × Window) :=
      let l := e.2.msgs.filter fun m => m.work != w
      if l = [] then none else some (e.1, { e.2 with msgs := l })
    let dF := setFerry (setQuay d 3 { q with ready := held.filterMap (·.1), pipe := entered }) fun f =>
      { f with ready := f.ready.filter fun x => !mine x, back := f.back.filter fun v => !mine v.work, windows := f.windows.filterMap without }
    let (d1, n0) := (List.range 8).foldl (fun (acc : Dev × Nat) l =>
      let r := pubWithdraw acc.1 l w
      (r.1, acc.2 + r.2)) (dF, n0)
    let (d2, n) := (List.range 24).foldl (fun (acc : Dev × Nat) c =>
      if onBus.any (fun x => x.val == c) then acc
      else
        let sel (x : CanTx) : Bool := x.work == w && x.src == 32 + k
        let m := ((can acc.1 c).tx.filter sel).length
        (if m = 0 then acc.1 else canTxDrop acc.1 c sel, acc.2 + m)) (d1, n0)
    lateCount (setCan d2 k { can d2 k with lastRx := none }) n

/-- Ready work has waited more than 10 µs (R240). -/
def ferryStallOp (d : Dev) : Dev :=
  let old (w : EdgeWork) : Bool := decide (w.ready + 10 * usTicks < d.now)
  if running d .ferry && (d.ferry.ready.any old || d.ferry.carriers.any (·.any old)) then raise d .ferry 0 else d

/-! ### Commits and switches (R249, R253, R257) -/

/-- Whether the shadow of the FERRY page holds a valid configuration (R257, R2). -/
def ferryShadowValid (d : Dev) : Bool :=
  let w (o : Nat) : W64 := trd d (0x03C00000 + o)
  let ts := rf d .ferry 0x80 1 3
  let rx (i : Nat) : W64 := w (0x5000 + i * 32 + 8)
  let tx (i : Nat) : Bool := bit (w (0x4000 + i * 64)) 63
  let route (i : Nat) : Bool :=
    let r0 := w (i * 32)
    let r2 := w (i * 32 + 16)
    !bit r0 63 || ((if bit r0 39 then bit (rx (fld r0 32 7)) 63 else decide (32 ≤ fld r0 32 7))
      && (!bit r2 38 || tx (fld r2 32 6)) && fld (w (i * 32 + 24)) 32 2 != 3)
  let valid := (List.range 128).filter fun i => bit (rx i) 63
  let keys := valid.map fun i => (w (0x5000 + i * 32), fld (rx i) 0 6, fld (rx i) 6 12)
  let lin (l : Nat) : Bool :=
    let es := ((List.range 64).map fun e => w (0x6000 + l * 0x400 + e * 16)).filter fun x => bit x 63
    es.all (fun x => decide (1 ≤ fld x 8 4 ∧ fld x 8 4 ≤ 8) && fld x 16 16 != 0) && (es.isEmpty || es.any fun x => bit x 62)
  decide (ts ≤ 4) && domOn d ts && (List.range 512).all route && (List.range 64).all (fun i => !tx i || txOk (w (0x4000 + i * 64)) (w (0x4000 + i * 64 + 16)))
    && valid.all (fun i => rxOk (rx i)) && decide keys.Nodup && (List.range 8).all lin

/-- After a switch of the FERRY page from the tables `old`: streams that become valid start anew (R249, R253). -/
def ferrySwitch (old : Store) (d : Dev) : Dev :=
  setFerry d fun f => { f with
    txSeq := f.txSeq.filter fun e => bit (txW old e.1 0) 63 || !bit (txW d.tbl e.1 0) 63
    rxSeq := f.rxSeq.filter fun e => bit (rxW old e.1 1) 63 || !bit (rxW d.tbl e.1 1) 63 }

/-- The Ferry forgets its work: a soft reset (received bus frames stay in the message RAM, sequence numbers stay: R253 names what forgets
them); `all`: and its sequence numbers, a power-down. -/
def ferryClear (d : Dev) (all : Bool) : Dev :=
  let q := quay d 3
  let d1 := setQuay d 3 { q with ready := q.ready.filter (·.pres.isNone), pipe := q.pipe.filter (·.2.pres.isNone) }
  let keep (f : FerrySt) : FerrySt := if all then {} else { ready := f.ready, txSeq := f.txSeq, rxSeq := f.rxSeq, tsDoms := f.tsDoms }
  { setFerry d1 (fun f => { keep f with nextId := f.nextId }) with ferryIn := [] }

end Sys2Proof.Machine
end

