-- ==== Sys2Proof/Machine/Lighter.lean ====
section
/-! DEFINITION. The Lighter's channels (R339 to R345, R317): arming, hand-over, stop, resume, abort, the stop and the loss of a
domain, request lines and the round robin. The bursts themselves are in External.lean. -/

namespace Sys2Proof.Machine

/-- The page and the offset of register `o` of channel c's slot (Table 12.16). -/
def ltPg (c : Nat) : Page := .lighter (if c < 8 then 1 else if c < 16 then 2 else if c < 24 then 3 else 4)
def ltOff (c o : Nat) : Nat := 0x100 + c % 8 * 0x100 + o
def ltRd (d : Dev) (c o : Nat) : W64 := rd d (ltPg c) (ltOff c o)
def ltWr (d : Dev) (c o : Nat) (v : W64) : Dev := wr d (ltPg c) (ltOff c o) v

/-- STATE: 0 idle, 1 active, 2 stopped; RESULT; SH_ARMED. -/
def ltState (d : Dev) (c : Nat) : Nat := fld (ltRd d c 0x28) 0 2
def ltResult (d : Dev) (c : Nat) : Nat := fld (ltRd d c 0x28) 2 4
def ltArmed (d : Dev) (c : Nat) : Bool := bit (ltRd d c 0x28) 6

/-- STATE and RESULT set. -/
def ltSet (d : Dev) (c st res : Nat) : Dev := ltWr d c 0x28 (setFld (setFld (ltRd d c 0x28) 0 2 st) 2 4 res)

/-- SH_ARMED set. -/
def ltArmPut (d : Dev) (c : Nat) (b : Bool) : Dev := ltWr d c 0x28 (setBit (ltRd d c 0x28) 6 b)

/-- The end of a transfer (R345): DONE_c where a configuration has IRQ_DONE, CH_ERROR for results that are errors. -/
def ltEnd (d : Dev) (c st res : Nat) (cfg : W64) : Dev :=
  let d1 := ltSet d c st res
  let d2 := if bit cfg 26 then irq d1 (.lighter 0) c else d1
  if res = 1 ∨ res = 7 ∨ res = 5 then d2 else irq d2 (.lighter 0) 32

/-- LT_DONE_BYTES and the active registers are undefined (R344): free values. -/
def ltUndefined (d : Dev) (c : Nat) : Dev :=
  [0x00, 0x08, 0x10, 0x18, 0x30].foldl (fun d o => let (k, d1) := freeNat d; ltWr d1 c o (BitVec.ofNat 64 k)) d

/-- A write to a shadow register: ignored while SH_ARMED, which SH_WRITE_IGN shows (R341). -/
def ltShadowWrite (d : Dev) (c o : Nat) (v : W64) : Dev :=
  if ltArmed d c then ltWr d c 0x28 (setBit (ltRd d c 0x28) 7 true) else writeFields d (ltPg c) (ltOff c o) v

/-- ARM (R340): the writer's master code is recorded. -/
def ltArmOp (d : Dev) (c m : Nat) : Dev :=
  if ltArmed d c then ltWr d c 0x28 (setBit (ltRd d c 0x28) 7 true)
  else ltArmPut (ltWr d c 0x28 (setFld (ltRd d c 0x28) 8 3 m)) c true

/-- Whether a configuration holds valid values (Table 12.17). -/
def ltCfgOk (v : W64) : Bool := decide (1 ≤ fld v 0 9 ∧ fld v 0 9 ≤ 256 ∧ fld v 9 5 ≤ 13 ∧ 1 ≤ fld v 16 6 ∧ fld v 16 6 ≤ 32)

/-- Whether a range of addresses lies in one target that exists (R339, R340). -/
def ltRangeOk (a len : Nat) (fixed : Bool) : Bool :=
  decide (a % 8 = 0 ∧ a / 2 ^ 60 < 4 ∧ (a + (if fixed then 8 else len) - 1) / 2 ^ 60 = a / 2 ^ 60)

/-- The shadow set meets the idle active set (R340, R341). -/
def ltHandoverOp (d : Dev) (c : Nat) : Dev :=
  if !ltArmed d c ∨ ltState d c ≠ 0 ∨ !running d (.lighter 0) then d
  else
    let src := ltRd d c 0x40
    let dst := ltRd d c 0x48
    let len := (ltRd d c 0x50).toNat
    let cfg := ltRd d c 0x58
    let d1 := ltWr (ltArmPut d c false) c 0x30 0
    if len = 0 ∨ len % 8 ≠ 0 ∨ !ltRangeOk src.toNat len (bit cfg 14) ∨ !ltRangeOk dst.toNat len (bit cfg 15) ∨ !ltCfgOk cfg then
      ltEnd d1 c 0 2 cfg
    else
      let d2 := ltWr (ltWr (ltWr (ltWr d1 c 0 src) c 8 dst) c 0x10 (ltRd d c 0x50)) c 0x18 cfg
      let m := fld (ltRd d c 0x28) 8 3
      ltSet { d2 with host := { d2.host with ltMaster := kvPut d2.host.ltMaster c m } } c 1 0

/-- CMD.STOP (R344): between commands every channel is at a burst boundary. -/
def ltStopOp (d : Dev) (c : Nat) : Dev := if ltState d c = 1 then ltEnd d c 2 7 (ltRd d c 0x18) else d

/-- CMD.RESUME (R344): a transfer that ended STOPPED or DOMAIN_STOP goes on. -/
def ltResumeOp (d : Dev) (c : Nat) : Dev :=
  if ltState d c = 2 ∧ (ltResult d c = 7 ∨ ltResult d c = 5) then ltSet d c 1 0 else d

/-- CMD.ABORT_NOW (R344). -/
def ltAbortOp (d : Dev) (c : Nat) : Dev :=
  if ltState d c = 0 ∧ !ltArmed d c then d
  else
    let cfg := ltRd d c (if ltState d c = 0 then 0x58 else 0x18)
    ltEnd (ltUndefined (ltArmPut d c false) c) c 0 4 cfg

/-- A write of LT_CMD: ABORT_NOW before STOP before RESUME. -/
def ltCmdOp (d : Dev) (c : Nat) (v : W64) : Dev :=
  if bit v 0 then ltAbortOp d c else if bit v 1 then ltStopOp d c else if bit v 2 then ltResumeOp d c else d

/-! ### Domains (R317) -/

/-- The domain of a Lighter address: that of the register or window, of the memory, PD_PCIE. -/
def ltDomain (a : Nat) : Nat :=
  let o := a % 2 ^ 60
  if a / 2 ^ 60 = 1 then 3
  else if a / 2 ^ 60 = 2 then 4
  else if a / 2 ^ 60 = 3 then 11
  else if 0x01000000 ≤ o then (winPage o).domain else match pageOf o with | some pg => pg.domain | none => 1

/-- The channels whose active transfer has a source or target in some domain. -/
def ltIn (d : Dev) (doms : List Nat) : List Nat :=
  (List.range 32).filter fun c => ltState d c == 1 &&
    (doms.contains (ltDomain (ltRd d c 0).toNat) || doms.contains (ltDomain (ltRd d c 8).toNat) || doms.contains (Page.domain (.lighter 0)))

/-- Channels stop at their burst boundary before domains go to RET or OFF (R317). -/
def ltDomainStop (d : Dev) (doms : List Nat) : Dev := (ltIn d doms).foldl (fun d c => ltEnd d c 2 5 (ltRd d c 0x18)) d

/-- The safe state or a loss of supply removes domains (R317, R344). -/
def ltDomainLost (d : Dev) (doms : List Nat) : Dev :=
  (ltIn d doms).foldl (fun d c => irq (ltEnd (ltUndefined (ltArmPut d c false) c) c 0 6 (ltRd d c 0x18)) .pwr 3) d

/-! ### Grants (R342, R343) -/

/-- Occupancy of the Breakwater log ring. -/
def logUsed (d : Dev) : Nat := (rf d (.bwt 0) 0xa8 0 11 + 2048 - rf d (.bwt 0) 0xb0 0 11) % 2048

/-- Whether a request line is asserted (Table 12.11). -/
def ltLine (d : Dev) (sel : Nat) : Bool :=
  if sel = 0 then true
  else if sel ≤ 4 then decide (sampWm d (sel - 1) ≤ (quay d (sel - 1)).ring.length)
  else if sel ≤ 12 then kvD d.time.tcaps (sel - 5) [] != []
  else if sel = 13 then decide (rf d (.bwt 0) 0xa0 16 11 ≤ logUsed d)
  else false

/-- Whether a channel has a burst ready. -/
def ltReady (d : Dev) (c : Nat) : Bool :=
  running d (.lighter 0) && ltState d c == 1 && ltLine d (fld (ltRd d c 0x18) 9 5) && decide (kvD d.host.ltNext c 0 ≤ d.now)

/-- The channel that the round robin grants next. -/
def ltGrant (d : Dev) : Option Nat :=
  ((List.range 32).map fun k => (d.host.ltTurn + 1 + k) % 32).find? (ltReady d)

/-- The octets of the next burst of a channel: at most BURST × 8, within 4 KiB of both addresses. -/
def ltBurstLen (d : Dev) (c : Nat) : Nat :=
  let cfg := ltRd d c 0x18
  let room (o fix : Nat) : Nat := if bit cfg fix then 4096 else 4096 - (ltRd d c o).toNat % 4096
  min (min (ltRd d c 0x10).toNat (fld cfg 16 6 * 8)) (min (room 0 14) (room 8 15))

/-- A burst has moved n octets: addresses, length, count, spacing, and the end of the transfer. -/
def ltMoved (d : Dev) (c n : Nat) : Dev :=
  let cfg := ltRd d c 0x18
  let adv (o fix : Nat) (d : Dev) : Dev := if bit cfg fix then d else ltWr d c o (ltRd d c o + BitVec.ofNat 64 n)
  let d1 := adv 8 15 (adv 0 14 d)
  let left := (ltRd d c 0x10).toNat - n
  let d2 := ltWr (ltWr d1 c 0x10 (BitVec.ofNat 64 left)) c 0x30 (ltRd d c 0x30 + BitVec.ofNat 64 n)
  let share := 32 * fld cfg 0 9
  let gap := (n * 256 + share - 1) / share
  let d3 := { d2 with host := { d2.host with ltTurn := c, ltNext := kvPut d2.host.ltNext c (d2.now + 2 * gap) } }
  if left = 0 then ltEnd d3 c 0 1 cfg else d3

end Sys2Proof.Machine
end

