-- ==== Sys2Proof/Machine/Manifest.lean ====
section
/-! DEFINITION. The Manifest (R378 to R386): staging, the chained journal, seals, its submissions and its mailbox commands. -/

namespace Sys2Proof.Machine

/-- The Manifest controller changed. -/
def setMan (d : Dev) (f : Manifest → Manifest) : Dev := { d with man := f d.man }

/-- The start of a chain (R380) whose first record has a count. -/
def chainStart (count : Nat) : List Byte :=
  sha384 ([0x4B, 0x4D, 0x44, 0x51, 0x4D, 0x41, 0x4E, 0x49] ++ wordBytes serialWord ++ leBytes 4 count ++ [0, 0, 0, 0])

/-- The chain value: the start of a chain before the first record. -/
def manChain (d : Dev) : List Byte := if d.man.chain = [] then chainStart 0 else d.man.chain

/-- Local time as records carry it: seconds[31:0], then nanoseconds. -/
def timeBytes (d : Dev) : List Byte := leBytes 4 (locSec d) ++ leBytes 4 (tNs (locNow d))

/-- While slot 2 cannot be used, records carry SIGN_OFF (R384). -/
def signOff (d : Dev) : Bool := !slotUsable d 2 2 [4]

/-- Slots of the journal (R381). -/
def journalLen : Nat := 24576

/-- The level of records not acknowledged that raises WATER (R381). -/
def waterLevel : Nat := 18432

/-- MAN_ACK and MAN_OLDEST (R381). -/
def manAck (d : Dev) : Nat := (rd d .manifest 0x90).toNat
def manOldest (d : Dev) : Nat := d.man.head - journalLen

/-- What the Manifest registers show of the controller (Table 13.20). -/
def manReg (d : Dev) (off : Nat) : Option W64 :=
  if off = 0x80 then some (BitVec.ofNat 64 d.man.head)
  else if off = 0x88 then some (BitVec.ofNat 64 (manOldest d))
  else if off = 0xa0 then
    some (mkWord [(0, d.man.signing.isSome.toNat), (1, (signOff d).toNat), (2, d.man.restart.toNat), (8, min 255 d.man.staging.length)])
  else if off = 0xa8 then some (bytesWord (manChain d)) else none

/-- A record in the journal (R378 to R382): `mid` are bytes 8 to 15, `rest` bytes 16 to 63. A chained record carries LINK before
`rest` and moves the chain. -/
def manStore (d : Dev) (type source : Nat) (chained : Bool) (mid rest : List Byte) : Dev :=
  let n := d.man.head
  let h := manChain d
  let flags := chained.toNat + 2 * (signOff d).toNat + 4 * (debugged d).toNat + 8 * (tampered d).toNat
  let body := if chained then fitLen 8 h ++ fitLen 40 rest else fitLen 48 rest
  let r := leBytes 4 n ++ leBytes 2 type ++ leBytes 1 flags ++ leBytes 1 source ++ fitLen 8 mid ++ body
  let lost := decide (journalLen ≤ n ∧ manAck d ≤ n - journalLen)
  let d1 := setMan d fun m =>
    { m with head := n + 1, journal := kvPut m.journal (n % journalLen) r,
             chain := if chained then sha384 (h ++ r) else m.chain,
             sinceSeal := if chained then m.sinceSeal + 1 else m.sinceSeal }
  let d2 := cnt d1 .manifest 0x100 1
  let d3 := if lost then irq (cnt d2 .manifest 0x118 1) .manifest 2 else d2
  if n + 1 - manAck d = waterLevel then irq d3 .manifest 1 else d3

/-- A seal is complete: SEALED, and the channels that awaited it are answered (R385). -/
def sealEnd (d : Dev) (n sig : Nat) : Dev :=
  let d1 := irq (setMan d fun m => { m with signing := none, replies := m.replies.filter fun e => e.2 != n + 1 }) .manifest 0
  (d.man.replies.filter fun e => e.2 == n + 1).foldl (fun d e => mboxReply d e.1 0 (leBytes 4 n ++ leBytes 4 sig)) d1

/-- The ANCHOR of the last SEAL. -/
def anchorWrite (d : Dev) : Dev := manStore d 0xF1 0 false (timeBytes d) d.man.anchor

/-- A SEAL record (R384), and the start of its signature; under SIGN_OFF its ANCHOR ends it. The first SEAL follows no other: its
PREV_SEAL is one below the count 0. -/
def sealWrite (d : Dev) (cause : Nat) : Dev :=
  let n := d.man.head
  let m := d.man
  let evid := if signOff d then List.replicate 8 0 else fitLen 8 (sha384 (pubKey 4 (slotValue (slotOf d 2)) 96))
  let body := leBytes 8 m.sealNo ++ leBytes 4 m.prevSeal ++ leBytes 1 cause ++ evid ++ leBytes 8 n
  let anchor := if m.prevChain = [] then manChain d else m.prevChain
  let d1 := cnt (manStore d 0xF0 0 true (timeBytes d) body) .manifest 0x108 1
  let d2 := setMan d1 fun m =>
    { m with sealNo := m.sealNo + 1, prevSeal := n % 2 ^ 32, prevChain := manChain d1, anchor := anchor, sinceSeal := 0,
             replies := m.replies.map fun e => if e.2 = 0 then (e.1, n + 1) else e }
  let d3 := wr d2 .manifest 0x98 (BitVec.ofNat 64 (n % 2 ^ 32))
  match useSlot d3 2 2 [4] with
  | (some _, d4) => setMan d4 fun m => { m with signing := some n }
  | (none, d4) => sealEnd (anchorWrite d4) n 0

/-- A SEAL that was due while a signature was in progress is written when that ends. -/
def sealNext (d : Dev) : Dev :=
  match d.man.sealDue with
  | some c => sealWrite (setMan d fun m => { m with sealDue := none }) c
  | none => d

/-- The signature of a seal is complete (R384): ANCHOR, SIG_R and SIG_S. -/
def sealSignedOp (d : Dev) : Dev :=
  match d.man.signing with
  | none => d
  | some n =>
    if !domUp d 2 then d
    else
      let sig := signN (slotValue (slotOf d 2)) d.man.prevChain 96
      let d1 := manStore (anchorWrite d) 0xF2 0 false (leBytes 4 n) (sig.take 48)
      let s := d1.man.head
      let d2 := manStore d1 0xF3 0 false (leBytes 4 n) (sig.drop 48)
      sealNext (sealEnd (wf d2 .manifest 0x98 32 32 s) n s)

/-- A tamper during signing ends that seal without SIG records (R384). -/
def manTamper (d : Dev) : Dev :=
  match d.man.signing with
  | none => d
  | some n => sealNext (sealEnd (anchorWrite d) n 0)

/-- A seal is due (R384): it is staged behind what is staged already, and `ch` awaits its end. -/
def sealReq (d : Dev) (cause : Nat) (ch : Option Nat) : Dev :=
  let c := match ch with | some c => c + 1 | none => 0
  manPush d 0xF0 0 (leBytes 1 cause ++ leBytes 1 c)

/-- A submission (R383): staged, or refused where staging is full. -/
def manSubmit (d : Dev) (r : ManRec) : Dev :=
  if r.type ≠ 0xF0 ∧ 128 ≤ d.man.staging.length then
    irq (cnt (setMan d fun m =>
      { m with refused := m.refused + 1, refusedAt := if m.refused = 0 then locNow d else m.refusedAt }) .manifest 0x110 1) .manifest 3
  else setMan d fun m => { m with staging := m.staging ++ [r] }

/-- The records of a command are submitted. -/
def manSettle (d : Dev) : Dev := d.manQ.foldl manSubmit { d with manQ := [] }

/-- 64 chained records since the last SEAL: the next one is due at once. -/
def sealAuto (d : Dev) : Dev :=
  if d.man.sinceSeal = 64 then setMan d fun m => { m with staging := { type := 0xF0, source := 0, body := [0, 0] } :: m.staging }
  else d

/-- One GAP record for the refused submissions, once staging has room (R383). -/
def gapWrite (d : Dev) : Dev :=
  if d.man.refused = 0 ∨ 128 ≤ d.man.staging.length then d
  else
    let x := d.man.refusedAt
    let body := leBytes 8 d.man.refused ++ leBytes 4 (tSec x) ++ leBytes 4 (tNs x)
    sealAuto (setMan (manStore d 0xF4 0 true (timeBytes d) body) fun m => { m with refused := 0 })

/-- The oldest staged record is written (R383); a record whose write does not verify stays staged. -/
def manWriteOp (d : Dev) (ok : Bool) : Dev :=
  if !domUp d 2 then d
  else match d.man.staging with
  | [] => gapWrite d
  | r :: rest =>
    if !ok then raise d .manifest 0
    else
      let d1 := setMan d fun m => { m with staging := rest }
      if r.type = 0xF0 then
        let cause := octetAt r.body 0
        let ch := octetAt r.body 1
        let d2 := if ch = 0 then d1 else setMan d1 fun m => { m with replies := m.replies ++ [(ch - 1, 0)] }
        if d2.man.signing.isSome then setMan d2 fun m => { m with sealDue := some (m.sealDue.getD cause) }
        else gapWrite (sealWrite d2 cause)
      else gapWrite (sealAuto (manStore d1 r.type r.source true (timeBytes d1) r.body))

/-- Staging is emptied and the seal in progress ended, in at most n steps. -/
def manDrain : Nat → Dev → Dev
  | 0, d => d
  | n + 1, d =>
    if d.man.staging ≠ [] then manDrain n (manWriteOp d true)
    else if d.man.signing.isSome then manDrain n (sealSignedOp d) else d

/-- Before the point of no return of P4 entry staging is emptied and a seal is forced (R383, R384). -/
def manEmpty (d : Dev) : Dev :=
  let d1 := manSettle (sealReq (manSettle d) 3 none)
  manDrain (2 * d1.man.staging.length + 8) d1

/-- A chip reset or a loss of supply: staging is lost, and with it what awaited a seal (R383). -/
def manLose (d : Dev) : Dev :=
  setMan { d with manQ := [] } fun m => { m with staging := [], signing := none, sealDue := none, replies := [], refused := 0 }

/-! ### Recovery (R380) -/

/-- SEQ and TYPE of a record. -/
def recSeq (r : List Byte) : Nat := leNat (r.take 4)
def recType (r : List Byte) : Nat := leNat (slice r 4 2)

/-- The newest record of a journal: the one whose next slot does not hold the next SEQ. -/
def journalNewest (j : List (Nat × List Byte)) : Option (List Byte) :=
  (j.find? fun e =>
    match kvGet j ((e.1 + 1) % journalLen) with
    | some r => recSeq r != (recSeq e.2 + 1) % 2 ^ 32
    | none => true).map (·.2)

/-- The count recovered from a journal (R380). -/
def recoveredCount (j : List (Nat × List Byte)) : Nat :=
  match journalNewest j with
  | none => 0
  | some r =>
    let s := recSeq r
    let back (e : Nat × List Byte) : Nat := (s + 2 ^ 32 - recSeq e.2) % 2 ^ 32
    let seals := j.filter fun e => recType e.2 == 0xF0 && decide (back e < journalLen)
    let newest := seals.foldl (fun (m : Option (Nat × List Byte)) e =>
      match m with | some x => if back e < back x then some e else some x | none => some e) none
    match newest with
    | some e => leNat (slice e.2 45 8) + back e + 1
    | none => s + 1

/-- PD_VBAT was lost: the count is recovered from the journal, and a new chain starts (R380). -/
def manRecover (d : Dev) : Dev :=
  let n := recoveredCount d.man.journal
  setMan d fun m => { m with head := n, chain := chainStart n, prevChain := chainStart n, restart := true, sinceSeal := 0 }

/-! ### Submissions by register and by mailbox -/

/-- The types that a submission may have (R386, Table 13.17). -/
def subTypeOk (t : Nat) : Bool := decide (1 ≤ t ∧ t ≤ 0xD)

/-- MAN_SUB_GO.GO (R386): a valid submission is staged, and its SEQ is the count it will have; where a seal or a GAP record may come
before it the SEQ assigned is a free value (log 36). -/
def manSubGo (d : Dev) : Dev :=
  let w := rd d .manifest 0xb0
  let full := decide (128 ≤ d.man.staging.length)
  if !subTypeOk (fld w 0 16) then wr d .manifest 0xe8 2
  else
    let body := (List.range 5).flatMap fun i => wordBytes (rd d .manifest (0xb8 + i * 8))
    let sure := d.man.signing.isNone && d.man.sealDue.isNone && decide (d.man.refused = 0)
      && d.man.staging.all (fun r => r.type != 0xF0) && decide (d.man.sinceSeal + d.man.staging.length < 64)
    let (x, d1) := if sure then (d.man.head + d.man.staging.length, d) else freeNat d
    let d2 := manSubmit d1 { type := fld w 0 16, source := fld w 16 8, body := body }
    if full then wr d2 .manifest 0xe8 2 else wr d2 .manifest 0xe8 (mkWord [(0, 1), (32, x % 2 ^ 32)])

/-- MAN_SUB_GO.SEAL (R384). -/
def manSubSeal (d : Dev) : Dev := sealReq d 1 none

/-- The count that a 32-bit SEQ names (R382), if it is not below 0. -/
def namedCount (d : Dev) (seq : Nat) : Option Nat :=
  let delta := (seq + 2 ^ 32 - d.man.head % 2 ^ 32) % 2 ^ 32
  if delta < 2 ^ 31 then some (d.man.head + delta)
  else if 2 ^ 32 ≤ d.man.head + delta then some (d.man.head + delta - 2 ^ 32) else none

/-- MANIFEST_SEAL (R385): the response follows the end of the seal. -/
def manifestSealOp (d : Dev) (ch : Nat) : Dev :=
  mboxStart d ch 0x60 none (· == 0) fun _ d => (none, sealReq d 1 (some ch))

/-- What MANIFEST_READ answers (R385). A SEQ below every count starts at MAN_OLDEST; a COUNT outside 1 to 63 is BAD_RANGE (log 37). -/
def manifestRead (p : List Byte) (d : Dev) : Answer × Dev :=
  let head := d.man.head
  let count := leNat (slice p 4 2)
  let first := max ((namedCount d (leNat (p.take 4))).getD 0) (manOldest d)
  if head ≤ first ∨ count = 0 ∨ 63 < count then (some (0x101, []), d)
  else
    let n := min count (head - first)
    let recs := (List.range n).flatMap fun i => fitLen 64 (kvD d.man.journal ((first + i) % journalLen) [])
    let d1 := match namedCount d (leNat (slice p 8 4)) with
      | some a => if manAck d ≤ a ∧ a ≤ head then wr d .manifest 0x90 (BitVec.ofNat 64 a) else d
      | none => d
    (some (0, leBytes 4 head ++ leBytes 4 (manOldest d) ++ leBytes 4 first ++ leBytes 4 n ++ recs), d1)

/-- MANIFEST_READ (R385). -/
def manifestReadOp (d : Dev) (ch : Nat) (e : EccEvent) : Dev := mboxStart d ch 0x61 none (· == 12) fun p d => manifestRead p (mramRead d e)

end Sys2Proof.Machine
end

