-- ==== Sys2Proof/Machine/Services.lean ====
section
/-! DEFINITION. Mailbox services of chapters 5, 12, 13 and 17: VERSION, keys and attestation (R363 to R368), life-cycle transitions
(R347 to R349, R478), workshop tokens (R164), the status and the yield of a pair (R468). -/

namespace Sys2Proof.Machine

/-! ### Tokens and the keys that sign them -/

/-- ECDSA P-384 over bytes 0 to 159 of a 256-byte token, signature in bytes 160 to 255 (log 4). -/
def tokenSigned (key tok : List Byte) : Bool := Config.verify 1 key (tok.take 160) (slice tok 160 96)

/-- The Karyen keys in mask ROM (log 5): provisioning key, debug key, and the pair of image key identifiers. -/
def karyenProvKey : List Byte := fitLen 96 (Config.fused 1)
def karyenDebugKey : List Byte := fitLen 96 (Config.fused 2)
def karyenImageIds : List Byte := fitLen 32 (Config.fused 3)

/-- Key identifiers of an image header, KEY_ID_EC then KEY_ID_PQ (Table 18.2). -/
def hdrKeyIds (hdr : List Byte) : List Byte := slice hdr 96 32

/-- Whether a header is signed by the Karyen image key. -/
def karyenSigned (hdr : List Byte) : Bool := hdrKeyIds hdr == karyenImageIds

/-- The fused owner entry that a header names (R475), revoked or not. -/
def ownerOf (d : Dev) (hdr : List Byte) : Option Nat := (d.boot.owners.find? fun e => e.2 == hdrKeyIds hdr).map (·.1)

/-- A fused owner entry that is not revoked. -/
def ownerLive (d : Dev) (i : Nat) : Bool := (kvGet d.boot.owners i).isSome && !d.boot.revoked.contains i

/-- A token verified under the owner key of the active image (R478), which is that of the image that runs (log 38). -/
def ownerSigned (d : Dev) (tok : List Byte) : Bool := d.boot.image.isSome && tokenSigned (slice d.boot.hdr 512 96) tok

/-- DEVICE_ID and SERIAL of a token (bytes 8 to 31) equal the device's. -/
def tokenHere (d : Dev) (tok : List Byte) : Bool := slice tok 8 16 == deviceId d && slice tok 24 8 == wordBytes serialWord

/-- The image that runs: VERSION and ROLLBACK of its header. -/
def imgVersion (hdr : List Byte) : Nat := leNat (slice hdr 16 8)
def imgRollback (hdr : List Byte) : Nat := leNat (slice hdr 12 4)

/-! ### VERSION, keys, attestation -/

/-- VERSION (Table 12.10): firmware version and the in-band EPOCH. -/
def versionOp (d : Dev) (ch : Nat) : Dev :=
  mboxStart d ch 1 none (· == 0) fun _ d => (some (0, leBytes 8 (imgVersion d.boot.hdr) ++ leBytes 4 d.host.inbEpoch), d)

/-- A command-specific result (R338). -/
def special (n : Nat) : Nat := if n = 0 then 0 else 0x100 + n

/-- Octets of the public key of an asymmetric type (Table 13.12). -/
def pubLen (ktype : Nat) : Nat :=
  if ktype = 3 ∨ ktype = 5 then 64 else if ktype = 4 ∨ ktype = 6 then 96 else if ktype = 7 then 1952 else 0

/-- KEY_WRITE (R363, Table 13.11), not before the command of Carapace in progress has ended (R361). -/
def mboxKeyWriteOp (d : Dev) (ch : Nat) : Dev :=
  if d.car.cmd.isSome then d
  else mboxStart d ch 0x10 (some 0) (· == 80) fun p d =>
    if ch = 2 then (some (special 4, []), d)
    else
      let s := octetAt p 0
      let attr := bytesWord (slice p 8 8)
      let (r, d1) := keyWriteOp d (mboxMaster ch) s attr (slice p 16 64)
      (some (special r, []), carShown d1 1 s attr r)

/-- KEY_GENERATE (R363, Table 13.11), not before the command of Carapace in progress has ended (R361). -/
def mboxKeyGenOp (d : Dev) (ch : Nat) : Dev :=
  if d.car.cmd.isSome then d
  else mboxStart d ch 0x11 (some 0) (· == 16) fun p d =>
    if ch = 2 then (some (special 4, []), d)
    else
      let s := octetAt p 0
      let (r, d1) := keyGenOp d (mboxMaster ch) s (bytesWord (slice p 8 8))
      let k := slotOf d1 s
      let kt := ktypeOf k.attr
      (some (special r, if r = 0 ∧ pubLen kt ≠ 0 then pubKey kt (slotValue k) (pubLen kt) else []),
        carShown d1 2 s (bytesWord (slice p 8 8)) r)

/-- The common part of an attestation statement (Table 13.12). -/
def attestCommon (d : Dev) (format : Nat) (nonce : List Byte) : List Byte :=
  let flags := (debugged d).toNat + 2 * (tampered d).toNat + 4 * (rf d (.scarab 0) 0x80 0 2 % 2) + 8 * d.man.restart.toNat
  leBytes 2 format ++ leBytes 1 (lcOf d) ++ leBytes 1 flags ++ leBytes 4 (rf d .carapace 0x80 32 32) ++ deviceId d
    ++ wordBytes serialWord ++ fitLen 32 nonce ++ timeBytes d ++ leBytes 8 (imgVersion d.boot.hdr)
    ++ leBytes 4 d.boot.rollback ++ leBytes 4 d.boot.boots ++ fitLen 48 (slice d.boot.hdr 48 48)
    ++ leBytes 4 d.man.head ++ fitLen 8 (manChain d)

/-- A statement signed with slot 0, and with slot 1 where `both`; nothing where a slot is refused (R359). -/
def attestSign (d : Dev) (l : List Byte) (both : Bool) : Option (List Byte) × Dev :=
  match useSlot d 0 2 [4] with
  | (none, d1) => (none, d1)
  | (some k0, d1) =>
    let l1 := l ++ signN k0 l 96
    if !both then (some l1, d1)
    else match useSlot d1 1 2 [7] with
      | (none, d2) => (none, d2)
      | (some k1, d2) => (some (l1 ++ signN k1 l1 3309), d2)

/-- The answer to an attestation: BAD_ATTR where a device slot cannot be used (log 39). -/
def attestAnswer (r : Option (List Byte) × Dev) : Answer × Dev :=
  match r with
  | (some l, d) => (some (0, l), d)
  | (none, d) => (some (special 2, []), d)

/-- KEY_ATTEST (R366, R368). -/
def keyAttestOp (d : Dev) (ch : Nat) : Dev :=
  mboxStart d ch 0x12 none (· == 40) fun p d =>
    let s := octetAt p 0
    let k := slotOf d s
    let kt := ktypeOf k.attr
    if !rootPresent d then (some (special 5, []), d)
    else if kt = 0 then (some (special 7, []), d)
    else if bit k.attr 24 then (some (special 2, []), d)
    else
      let n := if pubLen kt = 0 then 8 else pubLen kt
      let l := attestCommon d 0x11 (slice p 8 32) ++ leBytes 1 s ++ [0, 0, 0] ++ wordBytes k.attr ++ leBytes 4 n
        ++ pubKey kt (slotValue k) n
      attestAnswer (attestSign d l false)

/-- DEV_ATTEST (R366, R368). -/
def devAttestOp (d : Dev) (ch : Nat) : Dev :=
  mboxStart d ch 0x13 none (· == 40) fun p d =>
    if !rootPresent d then (some (special 5, []), d)
    else
      let pub (s kt n : Nat) : List Byte := pubKey kt (slotValue (slotOf d s)) n
      let l := attestCommon d 0x10 (slice p 8 32) ++ pub 0 4 96 ++ sha384 (pub 1 7 1952) ++ pub 2 4 96
      attestAnswer (attestSign d l true)

/-! ### Life-cycle transitions (R347 to R349) -/

/-- Table 13.2: who authorises a transition: 0 nobody has to, 1 Karyen, 2 the owner. -/
def lcAuthority (src dst : Nat) : Option Nat :=
  if src = 0 ∧ dst = 1 then some 1
  else if src = 1 ∧ dst = 2 then some 1
  else if src = 2 ∧ dst = 3 then some 2
  else if (src = 2 ∨ src = 3) ∧ dst = 4 then some 2
  else if (src = 0 ∨ src = 1 ∨ src = 4) ∧ dst = 5 then some 0 else none

/-- R478: no transition to LC_FIELD without a live owner entry, or from an image that the Karyen key signed. -/
def fieldRefused (d : Dev) (dst : Nat) : Bool :=
  dst == 3 && (karyenSigned d.boot.hdr || !(List.range 4).any (ownerLive d))

/-- The second call of LC_TRANSITION: result n, and the new state. -/
def lcToken (tok : List Byte) (d : Dev) : Nat × Dev :=
  let src := octetAt tok 2
  let dst := octetAt tok 3
  match lcAuthority src dst with
  | none => (4, d)
  | some a =>
    let signed := if a = 0 then true else if a = 1 then tokenSigned karyenProvKey tok else ownerSigned d tok
    if src ≠ lcOf d ∨ fieldRefused d dst then (4, d)
    else if leNat (tok.take 2) ≠ 2 ∨ !signed then (1, d)
    else if !tokenHere d tok then (2, d)
    else if d.car.lcNonce ≠ some (slice tok 32 32) then (3, d)
    else
      let d1 := manPush d 2 1 (leBytes 1 src ++ leBytes 1 dst ++ leBytes 1 a ++ slice tok 32 16)
      let d2 := sealReq d1 2 none
      (0, { d2 with car := { d2.car with lcNonce := none, lcNext := some (dst, d2.now) } })

/-- LC_TRANSITION (R348): an empty payload draws a nonce, a token requests the transition. -/
def lcTransitionOp (d : Dev) (ch : Nat) : Dev :=
  mboxStart d ch 0x70 (some 3) (fun n => n == 0 || n == 256) fun p d =>
    if p = [] then
      if !trngOk d then (some (special 5, []), d)
      else
        let (n, d1) := draw d 32
        (some (0, n), { d1 with car := { d1.car with lcNonce := some n } })
    else
      let (r, d1) := lcToken p d
      (some (special r, []), d1)

/-! ### Workshop tokens (R164, R165) -/

/-- The result of a workshop token, by the conditions of R164 in their order. -/
def diagTokenResult (tok : List Byte) (d : Dev) : Nat × Dev :=
  let dm := octetAt tok 2
  let s := octetAt tok 3
  if lcOf d ≠ 2 ∧ lcOf d ≠ 3 then (8, d)
  else match useSlot d s 3 [6] with
    | (none, d1) => (7, d1)
    | (some key, d1) =>
      let sec := timeOf d1 dm / secUnits
      let r :=
        if leNat (tok.take 2) ≠ 1 ∨ !tokenSigned key tok then 1
        else if slice tok 8 16 ≠ deviceId d1 then 2
        else if 4 < dm ∨ !domOn d1 dm ∨ !syncOf d1 dm then 9
        else if sec < leNat (slice tok 32 8) then 3
        else if leNat (slice tok 40 8) < sec then 4
        else if leNat (slice tok 4 4) ≤ d1.diagSer then 5
        else if (List.range 4).all (fun i => rb d1 (.bwt 1) (0x110 + i * 0x18) 0) then 6 else 0
      (r, d1)

/-- An accepted workshop token opens a session (R165). -/
def diagAccept (tok : List Byte) (d : Dev) : Dev :=
  let s := ((List.range 4).find? fun i => !rb d (.bwt 1) (0x110 + i * 0x18) 0).getD 0
  let left := min (leNat (slice tok 40 8) * secUnits - timeOf d (octetAt tok 2)) (leNat (slice tok 48 4) * secUnits)
  let zones := bytesWord (slice tok 24 8)
  let exp := BitVec.ofNat 64 ((locNow d + left) / secUnits)
  let ser := leNat (slice tok 4 4)
  let d1 := wr (wr (diagKeep d s) (.bwt 1) (0x100 + s * 0x18) zones) (.bwt 1) (0x108 + s * 0x18) exp
  let d2 := wr { d1 with diagSer := ser } (.bwt 1) (0x110 + s * 0x18) (mkWord [(0, 1), (32, ser)])
  irq (diagRecord d2 1 0 s ser zones exp) (.bwt 0) 3

/-- DIAG_TOKEN (R164). -/
def diagTokenOp (d : Dev) (ch : Nat) : Dev :=
  mboxStart d ch 0x40 (some 5) (· == 256) fun p d =>
    let (r, d1) := diagTokenResult p d
    if r = 0 then (some (0, []), diagAccept p d1)
    else (some (special r, []),
      irq (diagRecord d1 3 r 0 (leNat (slice p 4 4)) (bytesWord (slice p 24 8)) 0) (.bwt 0) 3)

/-- DIAG_CLOSE (R165): the payload names the session slot (log 40). -/
def mboxDiagCloseOp (d : Dev) (ch : Nat) : Dev :=
  mboxStart d ch 0x41 (some 5) (· == 1) fun p d => (some (0, []), if octetAt p 0 < 4 then diagCloseOp d (octetAt p 0) else d)

/-! ### Status and yield of a pair (R468) -/

/-- PAIR_STATUS (R468). -/
def pairStatusOp (d : Dev) (ch : Nat) : Dev :=
  mboxStart d ch 0x50 none (· == 0) fun _ d =>
    if !trngOk d then (some (6, []), d)
    else
      let (n, d1) := draw d 32
      (some (0, wordBytes (pairStat d) ++ wordBytes (pairHealth d) ++ fitLen 48 d.pair.hb ++ n),
        setPair d1 fun p => { p with nonce := some n, nonceAt := d1.now })

/-- The result of a yield token (R468): 0 accepted; the codes in their order. -/
def yieldResult (tok : List Byte) (d : Dev) : Nat :=
  let absent := d.pair.hb = [] ∨ d.pair.lost
  if leNat (tok.take 2) ≠ 5 ∨ !ownerSigned d tok then 1
  else if !tokenHere d tok then 2
  else if d.pair.nonce ≠ some (slice tok 32 32) ∨ d.pair.nonceAt + 60000 * msTicks ≤ d.now then 3
  else if !holding d then 4
  else if absent ∨ hbField d 3 1 = 0 ∨ (hbField d 36 4 % 2 = 0 ∧ octetAt tok 2 ≠ 1) then 5 else 0

/-- PAIR_YIELD (R468, Table 17.5 step 1): the response follows the round that ends the yield. The nonce is used by the token that
carries it and verifies. -/
def pairYieldOp (d : Dev) (ch : Nat) : Dev :=
  mboxStart d ch 0x51 (some 4) (· == 256) fun p d =>
    if d.pair.yield.isSome then (some (5, []), d)
    else
      let r := yieldResult p d
      let d1 := if r = 0 ∨ 4 ≤ r then setPair d fun q => { q with nonce := none } else d
      if r ≠ 0 then (some (special r, []), d1)
      else
        let d2 := (List.range 24).foldl (fun d k => canQuiet (setCan d k { can d k with yielded := true }) k (can d k)) d1
        (none, setPair d2 fun q => { q with yield := some { ch := ch, at0 := d2.now } })

/-- Table 17.5 step 2: the claim number becomes 0. -/
def yieldReleaseOp (d : Dev) : Dev :=
  match d.pair.yield with
  | some y => setPair d fun p => { p with yield := some { y with released := true } }
  | none => d

/-- 60 s have passed since the PAIR_STATUS nonce was drawn. -/
def pairNonceOp (d : Dev) : Dev :=
  if d.pair.nonceAt + 60000 * msTicks ≤ d.now then setPair d fun p => { p with nonce := none } else d

end Sys2Proof.Machine
end

