-- ==== Sys2Proof/Machine/Scarab.lean ====
section
/-! DEFINITION. The Scarab cluster (chapter 14): its voters (R389 to R396), self-tests (R398), modes (R401) and the lockstep under
debug (R403, R404), and what kcoreinfo reads (R405). -/

namespace Sys2Proof.Machine

/-- The Scarab changed. -/
def setScarab (d : Dev) (f : ScarabSt → ScarabSt) : Dev := { d with scarab := f d.scarab }

/-- SCARAB_STAT: TRIO mode, RESYNC, RESYNC_CORE, HALTED (Table 14.7). -/
def trio (d : Dev) : Bool := rf d (.scarab 0) 0x80 0 2 == 1
def resyncing (d : Dev) : Bool := rb d (.scarab 0) 0x80 2
def resyncCore (d : Dev) : Nat := rf d (.scarab 0) 0x80 3 2
def clusterHalted (d : Dev) : Bool := rb d (.scarab 0) 0x80 10

/-- Whether the voters vote: TMR, the lockstep whole, the cluster running (R400, R404). -/
def voting (d : Dev) : Bool := !trio d && !lockBroken d && !clusterHalted d && domCond d 3 == 1 && !d.fcn.safe

/-- SCARAB_LAST_EVENT (Table 14.6). -/
def lastEvent (d : Dev) (core kind : Nat) : Dev := wr d (.scarab 0) 0x98 (mkWord [(0, core), (2, kind), (32, locMs d % 2 ^ 32)])

/-- The cluster halts: NO_MAJORITY (bit 2, kind 4) or PAIR_FAIL (bit 3, kind 5). -/
def clusterHalt (d : Dev) (b kind : Nat) : Dev := lastEvent (raise (wb d (.scarab 0) 0x80 10 true) (.scarab 0) b) 0 kind

/-- A minority of core n (R393): kind 1 of its output, 2 of its digest. -/
def minorityOp (d : Dev) (n kind : Nat) : Dev :=
  let again := match kvGet d.scarab.lastMin n with | some t => decide (locNow d < t + secUnits) | none => false
  let d1 := cnt (setScarab d fun s => { s with lastMin := kvPut s.lastMin n (locNow d) }) (.scarab 0) (0xa0 + n * 8) 1
  let d2 := irq (lastEvent d1 n (if again then 3 else kind)) (.scarab 0) 0
  if again then setScarab (raise d2 (.scarab 0) 1) fun s => { s with left := some n }
  else
    let d3 := wf (wb (raise d2 (.scarab 0) 0) (.scarab 0) 0x80 2 true) (.scarab 0) 0x80 3 2 n
    setScarab d3 fun s => { s with resyncAt := some d.now }

/-- The core that differs from two equal ones: 3 where all are equal, 4 where all differ. -/
def minorityOf (o0 o1 o2 : W64) : Nat :=
  if o0 = o1 ∧ o1 = o2 then 3 else if o0 = o1 then 2 else if o0 = o2 then 1 else if o1 = o2 then 0 else 4

/-- Three values compared by the voters (R389, R395): while a core is left out, the other two are a detecting pair. A second core
found in the cycle in which a resynchronisation began, or in which the first repeated, leaves no majority. -/
def voteOp (d : Dev) (o0 o1 o2 : W64) (kind : Nat) : Dev :=
  let n := minorityOf o0 o1 o2
  if !voting d ∨ n = 3 then d
  else
    let out := if resyncing d then some (resyncCore d) else d.scarab.left
    match out with
    | some x =>
      let same := if x = 0 then o1 = o2 else if x = 1 then o0 = o2 else o0 = o1
      if same then d
      else if n < 3 ∧ (d.scarab.resyncAt = some d.now ∨ (d.scarab.left = some x ∧ kvGet d.scarab.lastMin x = some (locNow d))) then
        clusterHalt d 2 4
      else clusterHalt d 3 5
    | none => if n = 4 then clusterHalt d 2 4 else minorityOp d n kind

/-- The cluster starts (R391): after a reset, a resynchronisation or a self-test its count of cycles begins anew. -/
def digestStart (d : Dev) (t : Instant) : Dev := setScarab d fun s => { s with digFrom := t, digDone := 0 }

/-- The snapshots whose digests have reached the voters since the cluster's last start (R391): one every 4,096 cycles, 66 cycles later. -/
def digestsDue (d : Dev) : Nat := (d.now - d.scarab.digFrom - 66) / 4096

/-- The digests of a compare (R391): SCARAB_DIGEST_Cn, and the voted one (kdigest). -/
def digestVoteOp (dN : Dev) (d0 d1 d2 : W64) : Dev :=
  if !voting dN ∨ digestsDue dN ≤ dN.scarab.digDone then dN
  else
    let d := setScarab dN fun s => { s with digDone := digestsDue dN }
    let e := wr (wr (wr d (.scarab 0) 0xc8 d0) (.scarab 0) 0xd0 d1) (.scarab 0) 0xd8 d2
    let v := if d0 = d1 ∨ d0 = d2 then d0 else if d1 = d2 then d1 else e.scarab.voted
    voteOp (setScarab e fun s => { s with voted := v }) d0 d1 d2 2

/-- The two voters differ (R390). -/
def voterMismatchOp (d : Dev) : Dev := if voting d then lastEvent (raise d (.scarab 0) 4) 0 6 else d

/-- A voter self-test and its outcome (R398). -/
def selftestRun (d : Dev) (ok : Bool) : Dev :=
  let d1 := digestStart (irq (cnt d (.scarab 0) 0xc0 1) (.scarab 0) 2) (d.now + 64)
  if ok then d1 else raise d1 (.scarab 0) 5

/-- A voter self-test is due: it waits for a resynchronisation, and does not run while the lockstep is broken. -/
def selftestOp (d : Dev) (ok : Bool) : Dev :=
  if !voting d then d
  else if resyncing d then setScarab d fun s => { s with testDue := some ok }
  else selftestRun d ok

/-- SELFTEST_MS of local time have passed since the last periodic self-test (R398); values out of range act as 100 (Table 14.7). -/
def selftestDueOp (d : Dev) (ok : Bool) : Dev :=
  let x := rf d (.scarab 0) 0x88 0 7
  let ms := if 1 ≤ x ∧ x ≤ 100 then x else 100
  if locNow d < d.scarab.testAt + ms * (secUnits / 1000) then d
  else selftestOp (setScarab d fun s => { s with testAt := locNow d }) ok

/-- Cycle 2,000 of a resynchronisation (Table 14.1); the cores restarted at cycle 1,992. -/
def resyncDoneOp (d : Dev) : Dev :=
  match d.scarab.resyncAt with
  | none => d
  | some t =>
    if !voting d ∨ !resyncing d ∨ d.now < t + 2000 then d
    else
      let d1 := irq (cnt (wb d (.scarab 0) 0x80 2 false) (.scarab 0) 0xb8 1) (.scarab 0) 1
      let d2 := setScarab (digestStart d1 (t + 1992)) fun s => { s with resyncAt := none, resynced := true, testDue := none }
      match d.scarab.testDue with
      | some ok => selftestRun d2 ok
      | none => d2

/-- SCARAB_MODE_REQ.TRIO (R401): accepted while BOOT_WINDOW stands. -/
def modeReqOp (d : Dev) : Dev :=
  if rb d (.scarab 0) 0x80 8 then
    setScarab (wf (wb d (.scarab 0) 0x80 2 false) (.scarab 0) 0x80 0 2 1) fun s => { s with resyncAt := none, testDue := none, resynced := false }
  else d

/-- A read of kcoreinfo (Table 14.5) by a core that runs. -/
def kcoreinfoOp (d : Dev) (core : Nat) : Dev :=
  if !domUp d 3 then d
  else
  let t := trio d
  let mode := if lockBroken d then 2 else if t then 1 else 0
  let d1 := emit d (.csr (mkWord [(0, mode), (2, if t then core else 0), (4, (!t && d.scarab.resynced).toNat)]))
  setScarab d1 fun s => { s with resynced := false }

/-! ### Interrupts and the time of the cores (R407) -/

/-- Interrupt sources that are pending: those whose page's interrupt output is asserted (R407, R49). -/
def irqSources (d : Dev) : List Nat :=
  (allPages.filter fun pg => domUp d pg.domain && irqPend d pg != 0).map Page.irqSource

/-- Whether SCARAB_IRQ_EN_c_r enables a source for a core; in TMR only c = 0 applies. -/
def irqEnabledFor (d : Dev) (core src : Nat) : Bool :=
  rb d (.scarab 0) (0x100 + (if trio d then core else 0) * 0x20 + src / 64 * 8) (src % 64)

/-- The pending sources that are enabled for a core. -/
def coreIrqs (d : Dev) (core : Nat) : List Nat := (irqSources d).filter (irqEnabledFor d core)

/-- mip.MEIP of a core. -/
def meip (d : Dev) (core : Nat) : Bool := !(coreIrqs d core).isEmpty

/-- kirq (Table 14.5): 1 + the lowest-numbered pending source enabled for the core, 0 when none. -/
def kirq (d : Dev) (core : Nat) : Nat := match (coreIrqs d core).min? with | some n => n + 1 | none => 0

/-- The time CSR: local time in ns, modulo 2^64. -/
def timeCsr (d : Dev) : W64 := BitVec.ofNat 64 (locNow d / 65536)

/-! ### Debug records and the lockstep (R403, R442, R446) -/

/-- The debugger's state changed. -/
def setDbg (d : Dev) (f : DbgSt → DbgSt) : Dev := { d with dbg := f d.dbg }

/-- LEVEL of the open session: 0 CLOSED, 1 NONINV, 2 INV. -/
def dbgLevel (d : Dev) : Nat := rf d .dbg 0x80 0 2

/-- A DEBUG record (Table 16.7). -/
def dbgRecord (d : Dev) (source event level scope path cause core : Nat) (exp : W64) (nonce : List Byte) : Dev :=
  manPush d 4 source (leBytes 1 event ++ leBytes 1 level ++ leBytes 1 scope ++ leBytes 1 path ++ leBytes 1 cause ++ leBytes 1 core
    ++ leBytes 2 d.dbg.killed ++ leBytes 4 (rf d .carapace 0x80 32 32) ++ leBytes 4 d.dbg.maxS ++ wordBytes exp ++ fitLen 16 nonce)

/-- A DEBUG record about the open session. -/
def sessionRecord (d : Dev) (source event cause core : Nat) : Dev :=
  dbgRecord d source event (dbgLevel d) (rf d .dbg 0x80 2 3) (rf d .dbg 0x80 5 3) cause core (rd d .dbg 0x88) d.dbg.sNonce

/-- The first invasive request to a core in TMR breaks the lockstep (R403); a resynchronisation ends (R404). -/
def breakLockstep (d : Dev) (n : Nat) : Dev :=
  if trio d ∨ lockBroken d then d
  else
    let d1 := wf (wb (wb d (.scarab 0) 0x80 5 true) (.scarab 0) 0x80 2 false) (.scarab 0) 0x80 6 2 n
    let d2 := setScarab d1 fun s => { s with resyncAt := none, testDue := none }
    let d3 := lastEvent (raise { d2 with fcn := { d2.fcn with lockBroken := true } } (.scarab 0) 6) n 7
    sessionRecord d3 0 5 0 n

end Sys2Proof.Machine
end

