-- ==== Sys2Proof/Machine/Debug.lean ====
section
/-! DEFINITION. Debug sessions (R436 to R442): challenge, unlock, close, rejections and lockout, and the mailbox commands; the parts of the
TAP that need no register access (R434, R435). -/

namespace Sys2Proof.Machine

/-- A session closes with a cause of Table 16.7 (R438): halted cores resume, the drive of the pins ends. -/
def sessionClose (d : Dev) (cause : Nat) : Dev :=
  if dbgLevel d = 0 then d
  else
    let d1 := irq (sessionRecord d 1 2 cause 0xFF) .dbg 0
    let d2 := wf (wf d1 .dbg 0x80 0 2 0) .dbg 0x80 2 3 0
    setDbg d2 fun x => { x with halted := [], drive := 0 }

/-- The millisecond tick at which local seconds reach DBG_EXP (R438); the session of LC_BLANK has no end. -/
def sessionExpiryOp (d : Dev) : Dev :=
  if dbgLevel d ≠ 0 ∧ d.dbg.maxS ≠ 0 ∧ (rd d .dbg 0x88).toNat ≤ locSec d ∧ domUp d 2 then sessionClose d 2 else d

/-- The challenge of Table 16.3, with a fresh nonce; none while the DRBG is stopped. -/
def challengeOp (d : Dev) : Option (List Byte) × Dev :=
  if !trngOk d then (none, d)
  else
    let (n, d1) := draw d 32
    let l := n ++ deviceId d ++ wordBytes serialWord ++ leBytes 1 (lcOf d) ++ leBytes 1 (dbgLevel d) ++ leBytes 1 (rf d .dbg 0x80 12 4)
      ++ List.replicate 5 0
    (some l, setDbg d1 fun x => { x with nonce := some n, nonceAt := locNow d1 })

/-- The signature of a debug token under the authority of Table 16.6; `none`: the life-cycle state has no authority. -/
def dbgAuthority (d : Dev) (tok : List Byte) : Option Bool :=
  let lc := lcOf d
  if lc = 1 ∨ lc = 4 then some (tokenSigned karyenDebugKey tok)
  else if lc = 2 ∨ lc = 3 then some (ownerSigned d tok) else none

/-- The result of a debug token (R437): the safe state and the lockout refuse every token, then the codes in their order (log 41). -/
def tokenResult (d : Dev) (tok : List Byte) : Nat :=
  if d.fcn.safe then 6
  else if d.dbg.lockAt.isSome then 5
  else match dbgAuthority d tok with
    | none => 4
    | some ok =>
      let level := octetAt tok 2
      let scope := octetAt tok 3
      let maxS := leNat (slice tok 64 4)
      if !ok ∨ leNat (tok.take 2) ≠ 3 then 1
      else if !tokenHere d tok then 2
      else if d.dbg.nonce ≠ some (slice tok 32 32) ∨ d.dbg.nonceAt + 60 * secUnits ≤ locNow d then 3
      else if level = 0 ∨ 2 < level ∨ scope = 0 ∨ 7 < scope ∨ maxS = 0 ∨ 86400 < maxS then 4 else 0

/-- The slots that an invasive session destroys in LC_FIELD (R440). -/
def killSlots (d : Dev) : List Nat := (List.range 256).filter fun s => bit (slotOf d s).attr 9 && ktypeOf (slotOf d s).attr != 0

/-- A slot zeroed for DEBUG_KILL, with its KEY record; its wrapped copy goes with it (log 42). -/
def killSlot (d : Dev) (s : Nat) : Dev :=
  let a := (slotOf d s).attr
  let d1 := emptySlot d s
  keyRecord { d1 with car := { d1.car with wrapped := kvDel d1.car.wrapped s } } 6 s 0 a

/-- What the acceptance of LEVEL 2 destroys and marks (R440). -/
def invasiveMarks (d : Dev) : Dev :=
  let lc := lcOf d
  let kill := if lc = 3 then killSlots d else []
  let d1 := setDbg (kill.foldl killSlot d) fun x => { x with killed := kill.length }
  let d2 := if lc = 3 then wf d1 .carapace 0x80 32 32 (min (2 ^ 32 - 1) (rf d1 .carapace 0x80 32 32 + 1)) else d1
  let d3 := if lc = 2 ∨ lc = 3 then wb d2 .carapace 0x80 5 true else d2
  raise d3 .dbg 0

/-- An accepted token opens a session, in place of any other (R437). -/
def sessionOpen (d : Dev) (tok : List Byte) (path : Nat) : Dev :=
  let level := octetAt tok 2
  let maxS := leNat (slice tok 64 4)
  let d1 := setDbg (sessionClose d 6) fun x => { x with nonce := none, killed := 0 }
  let d2 := if level = 2 then invasiveMarks d1 else d1
  let d3 := wr d2 .dbg 0x80 (mkWord [(0, level), (2, octetAt tok 3), (5, path)])
  let d4 := wr d3 .dbg 0x88 (BitVec.ofNat 64 (locSec d3 + maxS))
  let d5 := setDbg d4 fun x => { x with sNonce := slice tok 32 32, maxS := maxS }
  irq (cnt (sessionRecord d5 1 1 0 0xFF) .dbg 0x98 1) .dbg 0

/-- A rejected token (R439): the eighth in a row, and each one after it, starts a lockout. A nonce that a verified token used is used up. -/
def tokenReject (d : Dev) (tok : List Byte) (path r : Nat) : Dev :=
  let run := min 8 (rf d .dbg 0x80 12 4 + 1)
  let d1 := wf (irq (cnt d .dbg 0xa0 1) .dbg 1) .dbg 0x80 12 4 run
  let d2 := if r = 4 ∧ d.dbg.nonce = some (slice tok 32 32) then setDbg d1 fun x => { x with nonce := none } else d1
  let d3 := manPush d2 4 1 (leBytes 1 3 ++ leBytes 1 0 ++ leBytes 1 (octetAt tok 3) ++ leBytes 1 path ++ leBytes 1 r ++ leBytes 1 0xFF
    ++ leBytes 2 0 ++ leBytes 4 (rf d .carapace 0x80 32 32) ++ leBytes 4 (leNat (slice tok 64 4)) ++ leBytes 8 0 ++ fitLen 16 (slice tok 32 16))
  if run = 8 ∧ r ≠ 5 then
    setDbg (raise (cnt (wb d3 .dbg 0x80 9 true) .dbg 0xa8 1) .dbg 1) fun x => { x with lockAt := some (locNow d) }
  else d3

/-- A debug token on a path (R437): its result and the new state. -/
def tokenOp (d : Dev) (tok : List Byte) (path : Nat) : Nat × Dev :=
  let r := tokenResult d tok
  (r, if r = 0 then sessionOpen d tok path else tokenReject d tok path r)

/-- 60 s of local time have passed since the lockout began (R439). -/
def lockoutEndOp (d : Dev) : Dev :=
  match d.dbg.lockAt with
  | some t => if t + 60 * secUnits ≤ locNow d then setDbg (wb d .dbg 0x80 9 false) fun x => { x with lockAt := none } else d
  | none => d

/-- 60 s of local time have passed since the nonce was drawn (R436). -/
def dbgNonceOp (d : Dev) : Dev :=
  if d.dbg.nonceAt + 60 * secUnits ≤ locNow d then setDbg d fun x => { x with nonce := none } else d

/-- DBG_CHALLENGE (R436); INTERNAL while the DRBG is stopped. -/
def dbgChallengeOp (d : Dev) (ch : Nat) : Dev :=
  mboxStart d ch 0x30 (some 2) (· == 0) fun _ d =>
    match challengeOp d with
    | (some l, d1) => (some (0, l), d1)
    | (none, d1) => (some (6, []), d1)

/-- DBG_UNLOCK (R437); an empty payload closes the session (R438). -/
def dbgUnlockOp (d : Dev) (ch : Nat) : Dev :=
  mboxStart d ch 0x31 (some 2) (fun n => n == 0 || n == 256) fun p d =>
    if p = [] then (some (0, []), sessionClose d 1)
    else
      let (r, d1) := tokenOp d p ch
      (some (special r, []), d1)

/-- DBG_CTRL.CLOSE (R438). -/
def dbgCtrlCloseOp (d : Dev) : Dev := sessionClose d 1

/-! ### The TAP (R435) -/

/-- The TAP serves only BYPASS, IDCODE and SAMPLE/PRELOAD in P3, P4 and the safe state (Table 16.5). -/
def tapAsleep (d : Dev) : Bool := d.fcn.safe || decide (3 ≤ pwrState d)

/-- In LC_SCRAP it serves BYPASS and IDCODE (Table 16.6). -/
def scrap (d : Dev) : Bool := lcOf d == 5

/-- The instruction register changes: EXTEST (1) or CLAMP (2) drive the pins, or nothing does. -/
def tapLoad (d : Dev) (drive : Nat) : Dev := setDbg d fun x => { x with drive := drive }

/-- In P5 the TAP is unpowered and TDO high-impedance (Table 16.5): an instruction has no effect. -/
def tapOff (d : Dev) : Bool := domCond d 1 == 0

/-- The bypass register: one bit. -/
def bypassOp (d : Dev) : Dev := if tapOff d then d else emit (tapLoad d 0) (.tdo [0])

/-- IDCODE (Table 16.2): the silicon revision is the implementation's (log 5). -/
def idcodeOp (d : Dev) : Dev :=
  let rev := octetAt (Config.fused 4) 0 % 16
  if tapOff d then d else emit (tapLoad d 0) (.tdo (leBytes 4 (rev * 2 ^ 28 + 0x2540 * 2 ^ 12 + 0x5B1 * 2 + 1)))

/-- Whether the pins may be driven (Tables 16.1, 16.5): INV with SCOPE[2], neither asleep nor in the safe state. -/
def mayDrive (d : Dev) : Bool := dbgLevel d == 2 && rb d .dbg 0x80 4 && !tapAsleep d && !scrap d && !tapOff d

/-- What the boundary-scan register captures at the pins is not part of this model: a free value of its length (log 43). -/
def bsrOut (d : Dev) (bsr : List Bool) : Dev :=
  let (x, d1) := freeNat d
  emit d1 (.tdo (leBytes ((bsr.length + 7) / 8) x))

/-- SAMPLE/PRELOAD: the register is loaded. -/
def sampleOp (d : Dev) (bsr : List Bool) : Dev :=
  if scrap d ∨ tapOff d then bypassOp d else bsrOut (setDbg (tapLoad d 0) fun x => { x with bsr := bsr }) bsr

/-- EXTEST: the register drives the pins, or BYPASS. -/
def extestOp (d : Dev) (bsr : List Bool) : Dev :=
  if mayDrive d then bsrOut (setDbg (tapLoad d 1) fun x => { x with bsr := bsr }) bsr else bypassOp d

/-- CLAMP: the pins stay as the register drives them, or BYPASS. -/
def clampOp (d : Dev) : Dev := if mayDrive d then emit (tapLoad d 2) (.tdo [0]) else bypassOp d

/-- The answer of DBG_CHAL while awake: 64 octets; status 6 where no nonce can be drawn (log 41). -/
def tapChallenge (d : Dev) : Dev :=
  match challengeOp d with
  | (some l, d1) => emit d1 (.tdo l)
  | (none, d1) => emit d1 (.tdo [6])

/-- DBG_TOKEN: its result in 8 bits, 0xFE while asleep. No firmware, no answer but that of the safe state. -/
def tapTokenOp (d : Dev) (tok : List Byte) : Dev :=
  if scrap d ∨ tapOff d then bypassOp d
  else if tapAsleep d then emit (tapLoad d 0) (.tdo [0xFE])
  else if !firmwareRuns d then tapLoad d 0
  else
    let (r, d1) := tokenOp (tapLoad d 0) (fitLen 256 tok) 4
    emit d1 (.tdo (leBytes 1 r))

/-- DBG_CLOSE: closes the session on Update-IR. -/
def tapCloseOp (d : Dev) : Dev := if scrap d ∨ tapAsleep d ∨ tapOff d then bypassOp d else emit (tapLoad (sessionClose d 1) 0) (.tdo [0])

/-- Whether an invasive request to a core is permitted (Table 16.1): INV, the core in SCOPE, the device awake. -/
def mayInvade (d : Dev) (core : Nat) : Bool :=
  dbgLevel d == 2 && rb d .dbg 0x80 (if core < 3 then 2 else 3) && !tapAsleep d && !scrap d

/-- An invasive request (R402, R403, R442): the core halts; the first of a session writes EVENT 4 (log 44). -/
def invasiveOp (d : Dev) (core : Nat) : Dev :=
  let d1 := if rb d .dbg 0x80 8 then d else sessionRecord (wb d .dbg 0x80 8 true) 0 4 0 core
  let d2 := if core < 3 then breakLockstep d1 core else d1
  setDbg d2 fun x => { x with halted := if x.halted.contains core then x.halted else x.halted ++ [core] }

end Sys2Proof.Machine
end

