-- ==== Sys2Proof/Machine/Ports.lean ====
section
/-! DEFINITION. Ports and media (chapter 3): PAUSE, link loss and link up, warm relink, PLCA and the S segments, TC10,
cable diagnostics, SQI, and the verification of frame preemption. -/

namespace Sys2Proof.Machine

/-! ### PAUSE (R73) -/

/-- PAUSED follows the pause time of the last honoured PAUSE frame. -/
def pauseOp (d : Dev) (p quanta : Nat) : Dev :=
  if !rxAccepts d p then d
  else
    let pg := macPage p
    let d1 := cnt (cnt (cnt (cnt d pg 0x130 1) pg 0x108 1) pg 0x100 64) pg 0x150 1
    if !ab d1 pg 0x80 4 then d1
    else
      let s := portSt d1 p
      if quanta = 0 then wb (setPort d1 p { s with pauseEnd := none }) pg 0xb8 11 false
      else
        wb (setPort d1 p { s with pauseEnd := some (d.now + octetTicks (quanta * 64) (portRate d p)) }) pg 0xb8 11 true

/-- The pause time runs out (R176). -/
def pauseExpiryOp (d : Dev) (p : Nat) : Dev :=
  match (portSt d p).pauseEnd with
  | some x => if x ≤ d.now then wb (setPort d p { portSt d p with pauseEnd := none }) (macPage p) 0xb8 11 false else d
  | none => d

/-! ### Frame preemption (R132) -/

/-- MAC_MERGE_STAT.ACTIVE from its conditions. -/
def mergeUpdate (d : Dev) (p : Nat) : Dev :=
  let c := ac d (macPage p) 0xa8
  let st := rf d (macPage p) 0xb0 0 2
  wb d (macPage p) 0xb0 2 (bit c 0 && linkIsUp d p && portType p != .s && (st == 2 || bit c 1))

/-- VERIFY_STATUS set; a change is reported. -/
def verifyPut (d : Dev) (p st : Nat) : Dev :=
  let old := rf d (macPage p) 0xb0 0 2
  let d1 := mergeUpdate (wf d (macPage p) 0xb0 0 2 st) p
  if old = st then d1 else irq d1 (macPage p) 1

/-- Verification begins where it is asked for: at link-up and at a switch of MAC_MERGE_CTRL. -/
def verifyStart (d : Dev) (p : Nat) : Dev :=
  let c := ac d (macPage p) 0xa8
  verifyPut d p (if bit c 0 && !bit c 1 && linkIsUp d p && portType p != .s then 1 else 0)

/-- The verification ends (R132). -/
def mergeVerifyOp (d : Dev) (p : Nat) (ok : Bool) : Dev :=
  if rf d (macPage p) 0xb0 0 2 = 1 then verifyPut d p (if ok then 2 else 3) else d

/-! ### Link loss (R77, R78) -/

/-- A transmission of a port that breaks off: TX_STOMPED, where the frame is not stomped already, a stomped frame, its timestamp entry
(R78, R219). -/
def breakTx (d : Dev) (p : Nat) : Dev :=
  let one (d : Dev) (f : Option TxFrame) : Dev := match f with
    | none => d
    | some x =>
      tsqEntry (emit (cnt d (macPage p) 0x190 (!x.copy.bad).toNat) (.ethFrame p x.octets true)) x.copy (locAt d (min d.now x.begun)) true false
        (decide (1 < x.frags))
  let d1 := cbsSync d p
  one (one { d1 with tx := kvDel d1.tx p, susp := kvDel d1.susp p } (kvGet d1.tx p)) (kvGet d1.susp p)

/-- The frames in reception on a port break off (R78, R131): RX_FCS_ERR, their copies end badly. -/
def breakRx (d : Dev) (p : Nat) (count : Bool) : Dev :=
  let s := portSt d p
  let cut := s.rx.filter (fun r => r.tailed == none)
  let d1 := setPort d p { s with rx := s.rx.filter (fun r => r.tailed != none) }
  cut.foldl (fun d r =>
    let d2 := if count ∧ r.gone = 0 then cnt d (macPage p) 0x110 1 else d
    if r.decided then endBadly d2 r.fid else d2) d1

/-- The copies queued on a port are freed and counted in TX_LINK_DROP (R77, R253). -/
def flushPort (d : Dev) (p : Nat) : Dev :=
  takeCopies d (quayOfPort p) (fun c => c.port == p) fun d c => freeCopy (cnt d (macPage p) 0x198 1) c

/-- The link of a port goes down (R77, R78). -/
def linkDown (d : Dev) (p : Nat) : Dev :=
  if !linkIsUp d p then d
  else
    let pg := macPage p
    let d1 := breakRx (breakTx d p) p true
    let d2 := wf (wf d1 pg 0xb8 0 1 0) pg 0xb8 9 3 0
    let s := portSt d2 p
    let d3 := setPort d2 p { s with lpiFrom := none, lpiWakeAt := none, pauseEnd := none }
    let d4 := verifyStart (irq (cnt d3 pg 0xc0 1) pg 0) p
    let d5 := wf (wf d4 (phyPage p) 0x98 0 3 0) (phyPage p) 0x80 0 4 0
    let d6 := if enabled d5 (phyPage p) then raise d5 (phyPage p) 2 else d5
    let d7 := if portType p = .s then wf d6 (phyPage p) 0xe0 0 2 0 else d6
    if ab d7 pg 0x80 14 then irq (flushPort d7 p) pg 3 else d7

/-! ### Warm relink (R80 to R85) and link-up (R79) -/

/-- Whether a port's PHY keeps warm-relink records: B, M and G. -/
def warmPort (p : Nat) : Bool := decide (p < 20)

/-- The record of a port; PHY_WARM_STAT.RECORD_VALID shows whether there is one. -/
def setRecord (d : Dev) (p : Nat) (r : Option (Nat × Bool)) : Dev := setPort d p { portSt d p with record := r }

/-- A save event (R80): with the link down nothing is saved and the record is invalidated. -/
def saveRecord (d : Dev) (p : Nat) : Dev :=
  if !warmPort p then d
  else if linkIsUp d p then setRecord d p (some (rf d (macPage p) 0xb8 1 4, rb d (macPage p) 0xb8 5))
  else setRecord d p none

/-- The Scarab copies the valid records to the configuration store (R80); the store keeps what it holds of the others (log 182). -/
def recordsToFlash (d : Dev) : Dev :=
  (List.range 26).foldl (fun d p => match (portSt d p).record with
    | some r => setPort d p { portSt d p with recFlash := some r }
    | none => d) d

/-- PHY_WARM_CTRL.SAVE: after a save the Scarab copies the records (R80). -/
def warmSaveOp (d : Dev) (p : Nat) : Dev :=
  if !warmPort p then d else if linkIsUp d p then recordsToFlash (saveRecord d p) else saveRecord d p

/-- PHY_WARM_CTRL.FLUSH (R81). -/
def warmFlushOp (d : Dev) (p : Nat) : Dev := if warmPort p then setRecord d p none else d

/-- Whether a warm attempt is in progress: the PHY runs, the link is down, training began from a valid record, WARM_EN. -/
def warmTrying (d : Dev) (p : Nat) : Bool :=
  warmPort p && (portSt d p).warmFrom.isSome && running d (phyPage p) && !linkIsUp d p && (portSt d p).record.isSome && rb d (phyPage p) 0xa0 0

/-- A warm attempt falls back (R81, R84): the record goes, the cause counts, WARM_FALLBACK. -/
def fallBackWarm (d : Dev) (p ctr : Nat) : Dev :=
  let d1 := setRecord (cnt d (phyPage p) ctr 1) p none
  irq (wf (setPort d1 p { portSt d1 p with fallback := true, warmFrom := none }) (phyPage p) 0xa8 1 2 2) (phyPage p) 0

/-- The partner cold-trains (R82): M and G ports. -/
def warmFbPartnerOp (d : Dev) (p : Nat) : Dev := if warmTrying d p ∧ 4 ≤ p then fallBackWarm d p 0x210 else d

/-- The fingerprint check (R83): M and G ports. -/
def fingerprintOp (d : Dev) (p echo sqi ppm : Nat) : Dev :=
  let w := rd d (phyPage p) 0xa0
  if warmTrying d p ∧ 4 ≤ p ∧ (fld w 4 8 < echo ∨ sqi < fld w 12 3 ∨ 50 < ppm) then fallBackWarm d p 0x208 else d

/-- PHY_WARM_CTRL.TIMEOUT in periods of CLK_FAB (Table 3.12). -/
def warmWindow (d : Dev) (p : Nat) : Nat :=
  let x := rf d (phyPage p) 0xa0 16 16
  (if x < 10 ∨ 40 < x then 24 else x) * 100 * usTicks

/-- Whether some time has passed since a warm attempt began. -/
def warmPast (d : Dev) (p : Nat) (ticks : Nat) : Bool :=
  match (portSt d p).warmFrom with
  | some x => decide (x + ticks ≤ d.now)
  | none => false

/-- The warm window has passed (R84). -/
def warmTimeoutOp (d : Dev) (p : Nat) : Dev :=
  if warmTrying d p ∧ warmPast d p (warmWindow d p) then fallBackWarm d p 0x218 else d

/-- No block lock 0.3 ms after the relock of a B port (R85); it counts WARM_FB_TIMEOUT (DESIGN CHOICE, log 181). -/
def blockLockOp (d : Dev) (p : Nat) : Dev :=
  if warmTrying d p ∧ p < 4 ∧ warmPast d p (300 * usTicks) then fallBackWarm d p 0x218 else d

/-- What a link-up makes of a warm attempt, and whether it was warm (R82, R84): past the window the attempt has fallen back; an M or G
link that is cold, or comes up at another speed or in another role than was saved, has followed a partner that cold-trained. -/
def warmSettle (d : Dev) (p speed : Nat) (isMaster warm : Bool) : Dev × Bool :=
  if !warmTrying d p then (d, false)
  else if !warmPast d p (warmWindow d p + 1) && warm && (decide (p < 4) || (portSt d p).record == some (speed, isMaster)) then (d, true)
  else (fallBackWarm d p (if p < 4 ∨ warmPast d p (warmWindow d p + 1) = true then 0x218 else 0x210), false)

/-- A PHY begins to bring its link up: from a record, or cold (R81, R84). A jabber lockout stays (R91). -/
def phyStart (d : Dev) (p : Nat) : Dev :=
  let s := portSt d p
  let d1 := setPort d p { s with warmFrom := if s.record.isSome then some d.now else none, fallback := false }
  if warmPort p ∧ s.record.isNone ∧ rb d (phyPage p) 0xa0 0 then cnt d1 (phyPage p) 0x220 1 else d1

/-- The port reports link loss (R77, R78, Table 3.5): a PHY that runs trains again; a B port shows the fault, its own or the partner's,
and signals its own (FAULT_SIGNAL). -/
def linkLossOp (d : Dev) (p : Nat) (remote : Bool) : Dev :=
  if !linkIsUp d p then d
  else
    let d1 := linkDown d p
    let d2 := if portType p = .b then wb (wb d1 (macPage p) 0xb8 7 (!remote)) (macPage p) 0xb8 8 remote else d1
    let d3 := if portType p = .b ∧ !remote ∧ ab d2 (macPage p) 0x80 6 then emit d2 (.remoteFault p) else d2
    if running d3 (phyPage p) then phyStart d3 p else d3

/-- PLCA begins on a segment (R86, R88): its parameters are taken; a coordinator sends its beacon at once, a follower waits for one. -/
def plcaBegin (d : Dev) (p : Nat) : Dev :=
  if portType p ≠ .s then d
  else
    let w := ac d (phyPage p) 0xd8
    let d1 := setPort d p { portSt d p with plcaNow := w, beaconAt := d.now, burst := 0 }
    wf d1 (phyPage p) 0xe0 0 2 (bit w 0 && linkIsUp d p && fld w 1 8 == 0).toNat

/-- The link is up (R79, R84, R189, R215). -/
def linkUpOp (d00 : Dev) (p speed : Nat) (isMaster warm : Bool) (lat : W64) : Dev :=
  if linkIsUp d00 p ∨ !running d00 (phyPage p) ∨ (portSt d00 p).jabber then d00
  else
    let pg := macPage p
    let ph := phyPage p
    let (d, w) := warmSettle d00 p speed isMaster warm
    let s := portSt d p
    let d0 := wr d pg 0xb8 (mkWord [(0, 1), (1, speed), (5, isMaster.toNat), (6, w.toNat)])
    let d1 := if portType p = .b then d0 else wr d0 (tsPage p) 0x88 lat
    let d2 := { d1 with credits := d1.credits.filter (fun e => e.1 / 8 != p) }
    let d3 := setPort d2 p { s with warmFrom := none, fallback := false, emptyFrom := d.now }
    let d4 := if w then cnt d3 ph 0x200 1 else d3
    let d5 := if warmPort p then wf d4 ph 0xa8 1 2 (if w then 1 else if s.fallback then 2 else 3) else d4
    let an := portType p == .m || portType p == .g
    let d6 := wr d5 ph 0x80 (mkWord [(0, 1), (1, (portType p == .b).toNat), (3, (an && rb d5 pg 0x88 8 && !w).toNat)])
    let d7 := wf d6 ph 0xc8 0 3 0
    verifyStart (irq (plcaBegin d7 p) pg 0) p

/-! ### S segments (R86 to R91) -/

/-- Whether a node is the coordinator: NODE_ID 0 is in effect (R86). -/
def coordinator (d : Dev) (p : Nat) : Bool := fld (portSt d p).plcaNow 1 8 == 0

/-- A beacon sent or received: the parameters of the last commit take effect (R86), PLCA is in operation. -/
def plcaLatch (d : Dev) (p : Nat) : Dev :=
  let ph := phyPage p
  wb (wb (setPort d p { portSt d p with plcaNow := ac d ph 0xd8, beaconAt := d.now, burst := 0 }) ph 0xe0 0 true) ph 0xe0 1 false

/-- A valid beacon of another node (R88). -/
def beaconOp (d : Dev) (p : Nat) : Dev :=
  let ph := phyPage p
  if portType p ≠ .s ∨ !running d ph ∨ !linkIsUp d p ∨ !ab d ph 0xd8 0 then d
  else if coordinator d p then plcaLatch (irq (wb (cnt d ph 0x250 1) ph 0xe0 2 true) ph 1) p
  else plcaLatch d p

/-- A coordinator begins a cycle (R88): it sends its beacon, and its opportunity 0 begins. -/
def beaconSend (d : Dev) (p : Nat) : Dev :=
  if portType p = .s ∧ running d (phyPage p) ∧ linkIsUp d p ∧ ab d (phyPage p) 0xd8 0 ∧ coordinator d p then
    emit (plcaLatch d p) (.beacon p)
  else d

/-- Periods of CLK_FAB of bit times on a segment: 100 ns each. -/
def bitTimes (n : Nat) : Nat := n * 160

/-- Whether an S port may go on with a burst (R87): fewer than MAX_BURST frames more, within BURST_TIMER of the last one. -/
def burstOpen (d : Dev) (p : Nat) : Bool :=
  let c := ac d (phyPage p) 0xd8
  let s := portSt d p
  let last := match kvGet d.tx p with | some f => f.ends | none => s.lastTx
  decide (1 ≤ s.burst ∧ s.burst ≤ fld c 25 8 ∧ d.now ≤ last + bitTimes (fld c 33 8))

/-- Whether a port may make a selection (R87, Table 3.1): an S port not while it receives, and under PLCA only as its own opportunity
begins, or in a burst. `op`: the opportunity that begins on the segment, if one does. -/
def mediumFree (d : Dev) (p : Nat) (op : Option Nat) : Bool :=
  portType p != .s || (!(portSt d p).rx.any (·.tailed.isNone)
    && (!rb d (phyPage p) 0xe0 0 || op == some (fld (portSt d p).plcaNow 1 8) || (op == none && burstOpen d p)))

/-- A transmission that begins in an opportunity is the first of it, or one more of its burst (R87). -/
def burstCount (old d : Dev) (p : Nat) (op : Option Nat) : Dev :=
  if portType p = .s ∧ (kvGet d.tx p).isSome ∧ kvGet d.tx p ≠ kvGet old.tx p then
    setPort d p { portSt d p with burst := if op.isSome then 1 else (portSt d p).burst + 1 }
  else d

/-- The selection of an Ethernet port, on an S port in its turn (R87, R176). -/
def selectTurn (d : Dev) (p : Nat) (e : EccEvent) (op : Option Nat) : Dev :=
  let d1 := if op = some 0 then beaconSend d p else d
  if mediumFree d1 p op then burstCount d1 (selectEth d1 p e) p op else d1

/-- A follower saw no beacon for 4,000 bit times (R88). -/
def beaconLossOp (d : Dev) (p : Nat) : Dev :=
  let ph := phyPage p
  if portType p = .s ∧ running d ph ∧ linkIsUp d p ∧ ab d ph 0xd8 0 ∧ !coordinator d p ∧ (portSt d p).beaconAt + 400 * usTicks ≤ d.now
      ∧ !rb d ph 0xe0 1 then
    irq (cnt (wb (wb d ph 0xe0 0 false) ph 0xe0 1 true) ph 0x240 1) ph 1
  else d

/-- A physical collision (R87): PLCA_COLL under PLCA; the MAC retries, and drops the frame after 16 attempts. The retry begins after the
jam, the gap and a backoff of Clause 4, a number of slot times below 2^min(10, n) after the n-th attempt: a free value (log 191). -/
def collisionOp (d : Dev) (p : Nat) (late : Bool) : Dev :=
  if portType p ≠ .s ∨ !running d (phyPage p) then d
  else
    let d1 := if rb d (phyPage p) 0xe0 0 then cnt d (phyPage p) 0x248 1 else d
    match kvGet d1.tx p with
    | none => d1
    | some f =>
      let d2 := cnt d1 (macPage p) (if late then 0x1b0 else 0x1a8) 1
      if 16 ≤ f.tries + 1 then
        freeCopy (cnt { cbsSync d2 p with tx := kvDel d2.tx p } (macPage p) 0x1b8 1) f.copy
      else
        let (k, d3) := freeNat d2
        let rate := portRate d p
        let start := d.now + octetTicks (4 + 12 + 64 * (k % 2 ^ min 10 (f.tries + 1))) rate
        { d3 with tx := kvPut d3.tx p { f with tries := f.tries + 1, start := start, begun := start, stamp := none,
                                               ends := start + octetTicks (8 + f.total) rate } }

/-- S_NOISE_CTRL.WINDOW in periods of CLK_FAB. -/
def noiseWindow (d : Dev) (p : Nat) : Nat := af d (phyPage p) 0xe8 32 16 * usTicks

/-- A noise event (R91). -/
def noiseOp (d : Dev) (p : Nat) (k : NoiseKind) : Dev :=
  let ph := phyPage p
  if portType p ≠ .s ∨ !running d ph then d
  else
    let d1 := cnt d ph (match k with | .symErr => 0x268 | .esdErr => 0x270 | .emptyCarrier => 0x278) 1
    let s := portSt d1 p
    let l := (s.noise.filter fun x => decide (d.now < x + noiseWindow d p)) ++ [d.now]
    let d2 := setPort d1 p { s with noise := l }
    if af d2 ph 0xe8 0 16 < l.length then irq (raise d2 ph 0) ph 3 else d2

/-- A received transmission longer than 2 ms (R91). -/
def jabberRxOp (d : Dev) (p : Nat) : Dev :=
  if portType p = .s ∧ running d (phyPage p) then cnt d (phyPage p) 0x280 1 else d

/-- 2 ms of continuous transmission of a frame: silent until a soft reset (R91, Table 3.5). -/
def jabberTxOp (d : Dev) (p : Nat) : Dev :=
  let ph := phyPage p
  let long : Bool := match kvGet d.tx p with | some f => decide (f.start + 2 * msTicks ≤ d.now) | none => false
  if portType p = .s ∧ running d ph ∧ !(portSt d p).jabber ∧ long then
    let d1 := raise (cnt (linkDown d p) ph 0x288 1) ph 1
    setPort d1 p { portSt d1 p with jabber := true }
  else d

/-! ### TC10 (R95 to R97) -/

/-- Whether a port has TC10: M and G. -/
def tc10Port (p : Nat) : Bool := decide (4 ≤ p ∧ p < 20)

/-- PHY_TC10_STAT.STATE set, TC10_EVENT raised. -/
def tc10Put (d : Dev) (p st : Nat) : Dev := irq (wf d (phyPage p) 0xc8 0 3 st) (phyPage p) 5

/-- The link goes silent after a sleep handshake: the record is saved first (R80, R95). -/
def tc10Sleep (d : Dev) (p : Nat) : Dev := tc10Put (linkDown (saveRecord d p) p) p 3

/-- PHY_TC10_CTRL.SLEEP_REQ on a link that is up (R95). -/
def tc10ReqOp (d : Dev) (p : Nat) : Dev :=
  if tc10Port p ∧ linkIsUp d p then
    emit (wf (setPort d p { portSt d p with tc10From := some d.now }) (phyPage p) 0xc8 0 3 1) (.tc10 p 0)
  else d

/-- The partner acknowledges (R95). -/
def tc10AckOp (d : Dev) (p : Nat) : Dev :=
  if rf d (phyPage p) 0xc8 0 3 = 1 then cnt (tc10Sleep d p) (phyPage p) 0x290 1 else d

/-- The partner rejects (R95). -/
def tc10RejectOp (d : Dev) (p : Nat) : Dev :=
  if rf d (phyPage p) 0xc8 0 3 = 1 then cnt (tc10Put d p 4) (phyPage p) 0x298 1 else d

/-- 16 ms without an answer (R95). -/
def tc10TimeoutOp (d : Dev) (p : Nat) : Dev :=
  let due : Bool := match (portSt d p).tc10From with
    | some x => decide (x + 16 * msTicks ≤ d.now)
    | none => false
  if rf d (phyPage p) 0xc8 0 3 = 1 ∧ due then cnt (tc10Put d p 5) (phyPage p) 0x298 1 else d

/-- The partner requests sleep (R96). -/
def tc10PartnerOp (d : Dev) (p : Nat) : Dev :=
  if !tc10Port p || !linkIsUp d p then d
  else if rf d (phyPage p) 0xc8 0 3 = 1 then cnt (tc10Sleep d p) (phyPage p) 0x290 1
  else if rb d (phyPage p) 0xc0 1 && !(queued d (quayOfPort p)).any (·.2.port == p) then emit (tc10Sleep (wf d (phyPage p) 0xc8 0 3 2) p) (.tc10 p 2)
  else emit (irq d (phyPage p) 5) (.tc10 p 3)

/-- PHY_TC10_CTRL.WUR on an active link (R97). -/
def tc10WurOp (d : Dev) (p : Nat) : Dev := if tc10Port p ∧ linkIsUp d p then emit d (.tc10 p 1) else d

/-! ### Cable diagnostics and SQI (R99) -/

/-- PHY_DIAG_CTRL.START: only while the port is disabled; not supported on B ports (Table 3.13). -/
def diagStartOp (d : Dev) (p : Nat) : Dev :=
  let ph := phyPage p
  if portType p = .b then wr d ph 0xb8 7
  else if !disabled d ph then conflict d ph 1
  else
    wr (if warmPort p then setRecord d p none else d) ph 0xb8 1

/-- The cable test ends (R99). -/
def diagDoneOp (d : Dev) (p : Nat) (r : DiagOutcome) (distance loss : Nat) : Dev :=
  let ph := phyPage p
  if rf d ph 0xb8 0 3 = 1 then
    let st := match r with | .noFault => 2 | .openLine => 3 | .short => 4 | .mismatch => 5 | .aborted => 6
    let d1 := wr d ph 0xb8 (mkWord [(0, st), (8, min 4095 distance), (20, min 255 loss)])
    irq d1 ph 4
  else d

/-- The 1 ms SQI measurement of an M or G link that is up (R99). -/
def sqiOp (d : Dev) (p sqi : Nat) : Dev :=
  let ph := phyPage p
  if (portType p = .m ∨ portType p = .g) ∧ linkIsUp d p ∧ (portSt d p).sqiAt + msTicks ≤ d.now then
    let s := min 7 sqi
    let d := setPort d p { portSt d p with sqiAt := d.now }
    wf (wf d ph 0x98 0 3 s) ph 0x98 4 3 (min s (rf d ph 0x98 4 3))
  else d

/-- The link partner enters or leaves LPI (Table 3.5). -/
def rxLpiOp (d : Dev) (p : Nat) (on : Bool) : Dev :=
  if linkIsUp d p ∧ (portType p = .m ∨ portType p = .g) ∧ rb d (macPage p) 0xb8 10 ≠ on then
    irq (wb d (macPage p) 0xb8 10 on) (macPage p) 2
  else d

/-- QUAY_SF_STATE written: BLOCKED of the selected filter is cleared by 1 (R120, R138). -/
def sfClearOp (d : Dev) (n : Nat) (v : W64) : Dev :=
  let i := 1024 * n + rf d (quayPage n 0) 0xb8 0 10
  if bit v 0 then setFilter d i { filter d i with blocked := false } else d

/-- The shadow values of a PCS/PHY page (R92 and Table 3.9). -/
def phyShadowValid (d : Dev) (p : Nat) : Bool :=
  if portType p ≠ .s then true
  else
    let w := rd d (phyPage p) 0xd8
    decide (fld w 1 8 ≤ 31 ∧ 2 ≤ fld w 9 8 ∧ fld w 9 8 ≤ 32 ∧ 20 ≤ fld w 17 8 ∧ 1 ≤ fld w 33 8)
      && rf d (phyPage p) 0xe8 32 16 != 0

/-- The shadow values of a MAC page (R74, R181, R190, Tables 3.14 and 4.13). -/
def macShadowValid (d : Dev) (p : Nat) : Bool :=
  if 26 ≤ p then true
  else
    let m := rf d (macPage p) 0x90 0 14
    decide (64 ≤ m ∧ m ≤ (if portType p = .s then 2000 else 10240)) && (portType p == .b || portType p == .s || rf d (macPage p) 0xa0 8 16 != 0)
      && !(portType p == .s && rb d (macPage p) 0xa8 0) && gateShadowValid d p && cbsShadowValid d p

/-- Whether MAC_MODE names what Table 3.1 supports (R76). -/
def macModeOk (d : Dev) (p : Nat) : Bool :=
  let w := rd d (macPage p) 0x88
  let c := rd d (macPage p) 0x80
  let sp := fld w 0 4
  let fec := fld w 6 2
  let ifm := fld w 4 2
  let role := fld w 9 2
  !(bit c 12 && bit c 13) && (match portType p with
    | .b => (ifm == 0 && sp == 6 && fec != 3) || (ifm == 1 && sp == 5 && decide (fec ≤ 1))
        || (ifm == 2 && ((sp == 5 && decide (fec ≤ 1)) || ((sp == 4 || sp == 3) && fec == 0)))
    | .m => (sp == 3 || sp == 4 || sp == 5) && ifm == 0 && fec == 0 && role != 3 && !(role == 0 && !bit w 8)
    | .g => (sp == 1 || sp == 2) && ifm == 0 && fec == 0 && role != 3 && !(role == 0 && !bit w 8)
    | .s => sp == 0 && ifm == 0 && fec == 0
    | .internal => true)

end Sys2Proof.Machine
end

