-- ==== Sys2Proof/Machine/Update.lean ====
section
/-! DEFINITION. Images and update (chapter 18): header checks (Table 18.3), accepted keys (Table 18.4), the update session (R484 to R488),
activation and confirmation (R489, R480), UPDATE records (R492). Image slots lie in MRAM as Table 14.4 addresses it. -/

namespace Sys2Proof.Machine

/-- The boot record and the update session changed. -/
def setBoot (d : Dev) (f : BootSt → BootSt) : Dev := { d with boot := f d.boot }

/-- Where a target begins: slot A (0), slot B (1), application-core L2 (2). -/
def slotBase (s : Nat) : Nat := if s = 0 then 0x80000000 else if s = 1 then 0x80300000 else 0x20000000

/-- The header block that a target holds. -/
def slotHdr (m : List Host.Cell) (s : Nat) : List Byte := memRead m (slotBase s) 8192

/-- State of a slot (Table 18.1): 0 EMPTY, 1 WRITING, 2 VALID, 3 ACTIVE, 4 PENDING, 5 FAILED. -/
def slotSt (d : Dev) (s : Nat) : Nat := if s = 0 then d.boot.slotA else d.boot.slotB

/-- The state of a slot set; L2 has none. -/
def setSlotSt (d : Dev) (s x : Nat) : Dev :=
  setBoot d fun b => if s = 0 then { b with slotA := x } else if s = 1 then { b with slotB := x } else b

/-- BODY_SIZE and CONFIRM_MS of a header. -/
def hdrBody (hdr : List Byte) : Nat := leNat (slice hdr 24 4)
def hdrConfirm (hdr : List Byte) : Nat := leNat (slice hdr 28 4)

/-- Check 1 of Table 18.3. -/
def hdrForm (hdr : List Byte) : Bool :=
  let zero (off len : Nat) : Bool := (slice hdr off len).all (· == 0)
  leNat (hdr.take 4) == 0x4D495144 && leNat (slice hdr 4 2) == 1 && leNat (slice hdr 6 2) == 0x2540 && octetAt hdr 8 == 1
    && zero 128 176 && zero 400 112 && zero 3917 179 && zero 6048 2144
    && decide (4096 ≤ hdrBody hdr ∧ hdrBody hdr ≤ 3133440 ∧ hdrBody hdr % 4096 = 0 ∧ 100 ≤ hdrConfirm hdr ∧ hdrConfirm hdr ≤ 10000)

/-- ENROLL of a header counts in LC_PROV (R476). -/
def enrolls (d : Dev) (hdr : List Byte) : Bool := lcOf d == 2 && octetAt hdr 10 % 2 == 1

/-- Owner entries not fused. -/
def unfused (d : Dev) : Option Nat := (List.range 4).find? fun i => (kvGet d.boot.owners i).isNone

/-- Key identifiers accepted (R475, Table 18.4); `upd`: at UPD_OPEN and UPD_ACTIVATE. -/
def keysAccepted (d : Dev) (hdr : List Byte) (upd : Bool) : Bool :=
  let lc := lcOf d
  let owner := match ownerOf d hdr with | some i => ownerLive d i | none => false
  if lc = 0 ∨ lc = 1 ∨ lc = 4 then karyenSigned hdr
  else if lc = 2 then karyenSigned hdr || owner || (upd && enrolls d hdr && (unfused d).isSome)
  else if lc = 3 then owner else false

/-- Checks 1 to 8 of Table 18.3 (R474): 0, or the result code of the first that fails. -/
def hdrCheck (d : Dev) (hdr : List Byte) (upd hostLoad : Bool) : Nat :=
  if !hdrForm hdr then 2
  else if octetAt hdr 9 / 2 ^ lcOf d % 2 = 0 then 3
  else if slice hdr 96 16 ≠ (sha384 (slice hdr 512 96)).take 16 ∨ slice hdr 112 16 ≠ (sha384 (slice hdr 4096 1952)).take 16 then 2
  else if !keysAccepted d hdr upd then 4
  else if imgRollback hdr < d.boot.rollback then 6
  else if hostLoad ∧ 2088960 < hdrBody hdr then 2
  else if !Config.verify 1 (slice hdr 512 96) (hdr.take 304) (slice hdr 304 96) then 5
  else if !Config.verify 2 (slice hdr 4096 1952) (hdr.take 304) (slice hdr 608 3309) then 5 else 0

/-- Check 9: the body as written hashes to BODY_HASH. -/
def bodyOk (m : List Host.Cell) (s : Nat) (hdr : List Byte) : Bool :=
  sha384 (memRead m (slotBase s + 8192) (hdrBody hdr)) == slice hdr 48 48

/-- Whether a read of an image slot meets a word that cannot be corrected: what it reads then fails its digest (R37; DEDUCED, log 183). -/
def slotLost (e : EccEvent) (s : Nat) : Bool :=
  match e with
  | .uncorrectable w => s < 2 && w * 8 / 0x300000 == s
  | _ => false

/-- verify(s) of R479. -/
def slotVerify (d : Dev) (m : List Host.Cell) (e : EccEvent) (s : Nat) : Bool :=
  let hdr := slotHdr m s
  hdrCheck d hdr false false == 0 && bodyOk m s hdr && !slotLost e s

/-- An UPDATE record (Table 18.8): slot and channel 0xFF for none. -/
def updRecord (d : Dev) (event slot ch result : Nat) (hdr : List Byte) : Dev :=
  let src := if romServes d ∨ d.boot.due then 6 else 1
  manPush d 12 src (leBytes 1 event ++ leBytes 1 slot ++ leBytes 1 ch ++ leBytes 1 result ++ leBytes 8 (imgVersion hdr)
    ++ leBytes 4 (imgRollback hdr) ++ fitLen 8 (slice hdr 96 8) ++ fitLen 16 (slice hdr 48 16))

/-- Host load (R491): the ROM serves and no image runs yet. -/
def hostLoading (d : Dev) : Bool := romServes d && !chrysalis d

/-- The update lock is released (R486); but for a successful FINISH the target becomes EMPTY. -/
def updRelease (d : Dev) (state : Nat) : Dev :=
  match d.boot.session with
  | some x => irq (setBoot (setSlotSt d x.target state) fun b => { b with session := none }) .upd 0
  | none => d

/-- A release that an event of the device causes, without a record of its own (R486: entry to P3 or P4, a chip reset). -/
def updDrop (d : Dev) : Dev := updRelease d 0

/-- UPD_OPEN (R484, R485). -/
def updOpenOp (d : Dev) (ch : Nat) : Dev :=
  mboxStart d ch 0x20 (some 1) (· == 6048) fun p d =>
    let hdr := fitLen 8192 p
    if d.boot.session.isSome then
      (some (special 1, []), updRecord (cnt d .upd 0x108 1) 10 0xFF ch 1 hdr)
    else
      let c := hdrCheck d hdr true (hostLoading d)
      let r := if c ≠ 0 then c else if d.boot.pending.isSome then 7 else 0
      if r ≠ 0 then (some (special r, []), updRecord d 10 0xFF ch r hdr)
      else
        let t := if hostLoading d then 2 else 1 - d.boot.active
        let d1 := setSlotSt (cnt d .upd 0x100 1) t 1
        let d2 := setBoot d1 fun b => { b with session := some { ch := ch, target := t, hdr := hdr, lastAt := d.now } }
        let d3 := { d2 with memOut := d2.memOut ++ [(slotBase t, hdr)] }
        (some (0, leBytes 4 t ++ leBytes 4 (hdrBody hdr / 4096)), irq (updRecord d3 1 t ch 0 hdr) .upd 0)

/-- A command of the session's holder, or its refusal (R486). -/
def asHolder (d : Dev) (ch : Nat) (f : UpdSession → Answer × Dev) : Answer × Dev :=
  match d.boot.session with
  | none => (some (special 9, []), d)
  | some x => if x.ch = ch then f x else (some (special 8, []), d)

/-- UPD_BLOCK (R487); `readOk`: the block reads back as it was written. -/
def updBlockOp (d : Dev) (ch : Nat) (readOk : Bool) : Dev :=
  mboxStart d ch 0x21 (some 1) (· == 4112) fun p d => asHolder d ch fun x =>
    let off := leNat (p.take 4)
    let data := p.drop 16
    if off % 4096 ≠ 0 ∨ hdrBody x.hdr ≤ off then (some (special 10, []), d)
    else if crc32 data ≠ leNat (slice p 4 4) then (some (special 11, []), d)
    else
      let k := off / 4096
      let y := { x with got := if x.got.contains k then x.got else x.got ++ [k], lastAt := d.now }
      let d1 := setBoot d fun b => { b with session := some y }
      let d2 := { d1 with memOut := d1.memOut ++ [(slotBase x.target + 8192 + off, data)] }
      if readOk then (some (0, []), d2) else (some (special 15, []), raise (updRelease d2 0) .upd 2)

/-- An image starts (R479, R491): BOOT_WINDOW clears, the deadline of a pending image runs. -/
def imageRun (d : Dev) (s : Nat) (hdr : List Byte) (pending : Bool) : Dev :=
  let d1 := wb d (.scarab 0) 0x80 8 false
  setBoot d1 fun b => { b with image := some s, hdr := hdr, due := false,
                               confirm := if pending then some (d.now + hdrConfirm hdr * msTicks) else none }

/-- A BOOT record (Table 13.17), written by the ROM. -/
def bootRecord (d : Dev) (cause last : Nat) : Dev :=
  let d1 := wf d .upd 0x80 16 8 cause
  manPush d1 1 6 (leBytes 1 cause ++ leBytes 1 (lcOf d) ++ leBytes 1 ((d.man.restart && cause != 6).toNat + 2 * (rootPresent d).toNat) ++ [0]
    ++ leBytes 8 (imgVersion d.boot.hdr) ++ leBytes 4 d.boot.rollback ++ leBytes 4 d.boot.boots ++ leBytes 4 last)

/-- SEQ of the last record written. -/
def lastSeq (d : Dev) : Nat := (d.man.head + 2 ^ 32 - 1) % 2 ^ 32

/-- UPD_FINISH (R488, R491): the body as written, in the memories `m`, is hashed. -/
def updFinishOp (m : List Host.Cell) (d : Dev) (ch : Nat) (e : EccEvent) : Dev :=
  mboxStart d ch 0x22 (some 1) (· == 0) fun _ d0 => asHolder d0 ch fun x =>
    let d := if x.target < 2 then mramRead d0 e else d0
    if x.got.length < hdrBody x.hdr / 4096 then (some (special 12, []), d)
    else if !bodyOk m x.target x.hdr ∨ slotLost e x.target then
      (some (special 13, []), updRecord (updRelease (cnt d .upd 0x120 1) 0) 3 x.target ch 13 x.hdr)
    else
      let d1 := irq (updRecord (updRelease d 2) 2 x.target ch 0 x.hdr) .upd 1
      let d2 := if x.target = 2 then
          let d3 := imageRun (wb d1 .upd 0x80 5 true) 2 x.hdr false
          bootRecord d3 7 (lastSeq d3)
        else d1
      (some (0, []), d2)

/-- The pair of key identifiers of an enrolling image is fused (R476). -/
def enroll (d : Dev) (hdr : List Byte) : Dev :=
  if enrolls d hdr ∧ (ownerOf d hdr).isNone then
    match unfused d with
    | some i => setBoot d fun b => { b with owners := kvPut b.owners i (hdrKeyIds hdr) }
    | none => d
  else d

/-- What UPD_ACTIVATE does to the boot record (R489): result n, and the new state. -/
def activate (m : List Host.Cell) (d : Dev) (s ch : Nat) : Nat × Dev :=
  if 1 < s then (14, d)
  else if s = d.boot.active ∧ slotSt d s = 3 then
    match d.boot.pending with
    | some p => (0, setBoot (setSlotSt d p 2) fun b => { b with pending := none, attempts := 0 })
    | none => (0, d)
  else if slotSt d s ≠ 2 then (14, d)
  else
    let hdr := slotHdr m s
    if octetAt hdr 9 / 2 ^ lcOf d % 2 = 0 then (3, d)
    else if !keysAccepted d hdr true then (4, d)
    else if imgRollback hdr < d.boot.rollback then (6, d)
    else
      let d1 := setBoot (setSlotSt (enroll d hdr) s 4) fun b => { b with pending := some s, attempts := 0 }
      (0, irq (updRecord d1 6 s ch 0 hdr) .upd 2)

/-- UPD_ACTIVATE (R489): with MODE 1 a chip reset follows in 10 ms. -/
def updActivateOp (m : List Host.Cell) (d : Dev) (ch : Nat) (e : EccEvent) : Dev :=
  mboxStart d ch 0x23 (some 1) (· == 2) fun p d =>
    let (r, d1) := activate m (mramRead d e) (octetAt p 0) ch
    (some (special r, []), if r = 0 ∧ octetAt p 1 = 1 then setBoot d1 fun b => { b with actAt := some d1.now } else d1)

/-- UPD_ABORT (R486). -/
def updAbortOp (d : Dev) (ch : Nat) : Dev :=
  mboxStart d ch 0x24 (some 1) (· == 0) fun _ d => asHolder d ch fun x =>
    (some (0, []), updRecord (updRelease d 0) 4 x.target ch 0 x.hdr)

/-- 5 s without an accepted UPD_OPEN or UPD_BLOCK (R486). -/
def updTimeoutOp (d : Dev) : Dev :=
  match d.boot.session with
  | some x =>
    if x.lastAt + 5000 * msTicks ≤ d.now then updRecord (updRelease (cnt d .upd 0x110 1) 0) 5 x.target x.ch 0 x.hdr else d
  | none => d

/-- The entries that a confirmed image revokes (R477). -/
def revoke (d : Dev) : Dev :=
  match ownerOf d d.boot.hdr with
  | some i =>
    let js := (List.range 4).filter fun j => j != i && decide (octetAt d.boot.hdr 11 / 2 ^ j % 2 = 1) && !d.boot.revoked.contains j
    setBoot d fun b => { b with revoked := b.revoked ++ js }
  | none => d

/-- UPD_CONFIRM.GO (R480): the pending image that runs confirms itself. -/
def updConfirmOp (d : Dev) : Dev :=
  match d.boot.pending, d.boot.confirm with
  | some p, some limit =>
    if limit ≤ d.now then d
    else
    let d1 := revoke d
    let old := d1.boot.active
    let d2 := if slotSt d1 old = 3 then setSlotSt d1 old 2 else d1
    let d3 := setBoot (setSlotSt d2 p 3) fun b =>
      { b with active := p, pending := none, attempts := 0, confirm := none, rollback := max b.rollback (imgRollback b.hdr) }
    updRecord d3 7 p 0xFF 0 d3.boot.hdr
  | _, _ => d

/-- The UPD registers that show the boot record, the session and the owner keys (Table 18.9). -/
def updReg (m : List Host.Cell) (d : Dev) (off : Nat) : Option W64 :=
  let b := d.boot
  let held (s : Nat) : Bool := decide (2 ≤ slotSt d s)
  let hdr (s : Nat) : List Byte := if held s then memRead m (slotBase s) 24 else []
  if off = 0x80 then
    some ((rd d .upd 0x80 &&& 0xFFFF60) ||| mkWord [(0, b.active), (1, b.pending.getD 3), (3, b.attempts), (32, b.boots)])
  else if off = 0x88 ∨ off = 0x90 then
    let s := (off - 0x88) / 8
    some (mkWord [(0, slotSt d s), (32, imgRollback (hdr s))])
  else if off = 0x98 ∨ off = 0xa0 then some (BitVec.ofNat 64 (imgVersion (hdr ((off - 0x98) / 8))))
  else if off = 0xa8 then some (BitVec.ofNat 64 b.rollback)
  else if off = 0xb0 then
    match b.session with
    | some x => some (mkWord [(0, 1), (1, x.ch), (3, x.target), (16, x.got.length), (32, hdrBody x.hdr / 4096),
        (48, min 65535 ((d.now - x.lastAt) / msTicks))])
    | none => some 0
  else if off = 0xb8 then
    match b.confirm with
    | some t => some (mkWord [(32, (t - d.now) / msTicks)])
    | none => some 0
  else if off = 0xc0 then
    let mask (f : Nat → Bool) : Nat := (List.range 4).foldl (fun a i => a + (f i).toNat * 2 ^ i) 0
    some (mkWord [(0, mask fun i => (kvGet b.owners i).isSome), (4, mask b.revoked.contains),
      (8, (ownerOf d b.hdr).getD 0), (10, (b.image.isSome && karyenSigned b.hdr).toNat)])
  else none

end Sys2Proof.Machine
end

