-- ==== Sys2Proof/Machine/Resets.lean ====
section
/-! DEFINITION. Block soft resets (R20, R21), the isolate-and-drain of a quay (R24 to R28), reset shadows (R421), the scrub and the
free-cell test (R16 to R19, R416), and the clock monitors (R34). -/

namespace Sys2Proof.Machine

/-! ### Reset shadows (R421) -/

/-- Address of the first page of a page's block: what names the block. -/
def blockBase (pg : Page) : Nat := (pg.blockPages.headD pg).base

/-- FCN_CTRL.SHADOW_US as it acts (Table 15.11). -/
def shadowUs (d : Dev) : Nat := min 1000 (max 1 (rf d (.fcn 0) 0x80 0 10))

/-- The reset shadow of a block or a quay is open, its end not known yet. -/
def openShadow (d : Dev) (base : Nat) (quay : Bool) : Dev :=
  let l := d.fcn.shadows.filter fun s => !(s.base == base && s.quay == quay)
  { d with fcn := { d.fcn with shadows := l ++ [{ base := base, quay := quay }] } }

/-- The reset has ended: its shadow closes SHADOW_US later. -/
def endShadow (d : Dev) (base : Nat) (quay : Bool) : Dev :=
  let f (s : Shadow) : Shadow := if s.base = base ∧ s.quay = quay then { s with closes := some (d.now + shadowUs d * usTicks) } else s
  { d with fcn := { d.fcn with shadows := d.fcn.shadows.map f } }

/-- The shadow of a page's block, or of the quay of a QUAY page, closes. -/
def closeShadowOp (d : Dev) (pg : Page) : Dev :=
  let q := match pg with | .quay _ _ => true | _ => false
  let open' (s : Shadow) : Bool :=
    !(s.base == blockBase pg && s.quay == q && (match s.closes with | some t => decide (t ≤ d.now) | none => false))
  { d with fcn := { d.fcn with shadows := d.fcn.shadows.filter open' } }

/-- An ERR_RAW bit set by an escalation (R428: ESCALATED). -/
def raiseEsc (d : Dev) (pg : Page) (b : Nat) (blk : Option Page) : Dev :=
  let d1 := wb d pg 0x40 b true
  match pg.errSource b with
  | some s => { d1 with evq := d1.evq ++ [{ src := s, esc := true, blk := blk }] }
  | none => d1

/-! ### What a block forgets (R20) -/

/-- The queue pairs of port H or C forget what they fetch; rings and their positions stay. -/
def hostClear (d : Dev) (portC : Bool) : Dev :=
  let mine (i : Nat) : Bool := decide (16 ≤ i) == portC
  let qs := d.host.qs.map fun e => (e.1, if mine e.1 then ({ fetched := hqHead d e.1 true } : HostQ) else e.2)
  setCur { d with host := { d.host with qs := qs } } portC none

/-- The datapath state of a port. -/
def portClear (d : Dev) (p : Nat) : Dev :=
  if p = 26 then hostClear d false
  else if p = 27 then hostClear d true
  else if p = 28 then d
  else
    let d1 := breakRx (breakTx d p) p false
    let s := portSt d1 p
    let d2 := setPort d1 p { s with rx := [], warmFrom := none, fallback := false, tc10From := none, jabber := false, noise := [],
                                    pauseEnd := none, lpiFrom := none, lpiWakeAt := none }
    let d3 := wf d2 (macPage p) 0xb8 9 3 0
    if portType p = .s then wf d3 (phyPage p) 0xe0 0 2 0 else d3

/-- The datapath state of the block of a page outside the quays (log 46): blocks of which the manual names none keep everything. -/
def blockClear (d : Dev) (pg : Page) : Dev :=
  match pg with
  | .port p _ => portClear d p.val
  | .bwt _ => wb { d with flush := none } (.bwt 0) 0xb8 63 false
  | .time _ => timedClear { d with time := { d.time with snapDue := none } }
  | .ferry => ferryClear d false
  | .can k => canClear d k.val
  | .lin l => linClear d l.val
  | .xwe => wr (xweClear d) .xwe 0xd0 0
  | .buoy _ => { d with buoy := { d.buoy with fec := [], pins := [], kaDue := [] } }
  | .lighter _ => (List.range 32).foldl (fun d c => ltSet (ltArmPut d c false) c 0 (ltResult d c)) d
  | .host _ => hostClear d false
  | .mbox _ => [0, 1, 2, 3].foldl mboxAckOp d
  | .carapace => wb { d with car := { d.car with cmd := none } } .carapace 0x100 63 false
  | _ => d

/-- The refills of pages that run begin again (R58). -/
def restartRefills (d : Dev) (pgs : List Page) : Dev :=
  { d with refillAt := pgs.foldl (fun l pg => if (kvGet l pg.base).isSome then kvPut l pg.base (d.now + refillTicks pg) else l) d.refillAt }

/-- Pages stop: RUNNING clears. -/
def pagesStop (d : Dev) (pgs : List Page) : Dev := pgs.foldl (fun d pg => wb d pg 0x18 0 false) d

/-- Pages run again where they are enabled. -/
def pagesStart (d0 : Dev) (pgs : List Page) : Dev :=
  let d := if pgs.contains .xwe then xweTicksAnew d0 else d0
  pgs.foldl (fun d pg => if enabled d pg then wb d pg 0x18 0 (!rb d pg 0x10 1) else wb (wb d pg 0x18 0 false) pg 0x18 1 true) d

/-! ### Quays (R24 to R28) -/

/-- The pages of a quay. -/
def quayPages (n : Nat) : List Page := [quayPage n 0, quayPage n 1, quayPage n 2]

/-- Every page of a quay and of its ports. -/
def quayBlocks (n : Nat) : List Page := quayPages n ++ (portsOfQuay n).flatMap fun p => (Page.port (portFin p) 0).blockPages

/-- The frames of a quay's ports are gone (Table 1.3, steps 2 and 3): transmissions are stomped, receptions and what waits for the
pipeline discarded, cut-through copies elsewhere stomped (R26). -/
def quayCut (d : Dev) (n : Nat) : Dev :=
  let d0 := if n = 3 then ferryLost d else d
  let d1 := (portsOfQuay n).foldl (fun d p =>
    if p < 26 then
      let d2 := breakRx (breakTx d p) p false
      setPort d2 p { portSt d2 p with rx := [] }
    else
      match kvGet d.tx p with
      | some f => freeCopy { d with tx := kvDel d.tx p } f.copy
      | none => d) d0
  setQuay d1 n { quay d1 n with ready := [], pipe := [] }

/-- A quay reset is requested (R24): merged into one that runs, escalated where it is the second within 1 s (R28). -/
def quayResetOp (d : Dev) (n : Nat) : Dev :=
  let q := quay d n
  if q.isoAt.isSome ∨ !domUp d (5 + n) then d
  else if (match q.resetAt with | some t => decide (locNow d < t + secUnits) | none => false) = true then raiseEsc d .chip 34 none
  else
    let d0 := (quayPages n).foldl (fun d pg => wb d pg 0x10 1 true) (pagesStop (quayCut d n) (quayPages n))
    let d1 := openShadow d0 (quayPage n 0).base true
    setQuay d1 n { quay d1 n with isoAt := some d.now, resetAt := some (locNow d) }

/-- A quay forgets its queues, tags, credits, shapers, rings and transmit timestamps (R179, R197, R220). -/
def quayForget (d : Dev) (n : Nat) : Dev :=
  let q := quay d n
  let d1 := setQuay (takeCopies d n (fun _ => true) freeCopy) n { resetAt := q.resetAt, isoAt := q.isoAt, lastEnt := q.lastEnt, lastPres := q.lastPres,
                                                                             sampAt := q.sampAt }
  let d2 := { d1 with credits := d1.credits.filter fun e => quayOfPort (e.1 / 8) != n }
  let d3 := wf (wf d2 (quayPage n 2) 0x88 0 13 0) (quayPage n 1) 0xb8 0 12 0
  (portsOfQuay n).foldl (fun d p => if p < 26 then tsqClear d p else d) d3

/-- The isolate-and-drain ends (Table 1.3, steps 4 to 6), after the 16 cycles of steps 1 to 3, the 1,024 that reset the pipeline state and
the 8 of step 6. Edge frames received before are not forwarded (R27). -/
def quayDrainOp (d : Dev) (n : Nat) : Dev :=
  let done : Bool := match (quay d n).isoAt with | some t => decide (t + 1048 ≤ d.now) | none => false
  if !done then d
  else
    let d1 := (quayPages n).foldl (fun d pg => wb d pg 0x10 1 false) (quayForget d n)
    let d2 := pagesStart (setQuay d1 n { quay d1 n with isoAt := none }) (quayPages n)
    let d3 := endShadow (restartRefills d2 (quayBlocks n)) (quayPage n 0).base true
    if n = 3 then
      let k := d3.ferry.ready.length + d3.ferry.carriers.flatten.length
      setFerry (cnt d3 .ferry 0x218 k) fun f => { f with ready := [], carriers := [] }
    else d3

/-! ### Block soft resets (R20, R21) -/

/-- A block soft reset starts: merged into one that runs, absorbed by its quay's reset (R418); of a QUAY page it is a quay reset. -/
def softResetOp (d : Dev) (pg : Page) : Dev :=
  match pg with
  | .quay n _ => quayResetOp d n.val
  | _ =>
    let iso : Bool := match pg.quayOf with | some n => (quay d n.val).isoAt.isSome | none => false
    if (kvGet d.srst (blockBase pg)).isSome ∨ iso = true then d
    else
      let d1 := pg.blockPages.foldl (fun d pg => wb (wb d pg 0x18 0 false) pg 0x10 1 true) d
      blockClear (openShadow { d1 with srst := kvPut d1.srst (blockBase pg) d.now } (blockBase pg) false) pg

/-- A block soft reset ends (R20). -/
def softResetEndOp (d : Dev) (pg : Page) : Dev :=
  if (kvGet d.srst (blockBase pg)).isNone then d
  else
    let d1 := pg.blockPages.foldl (fun d pg => wb d pg 0x10 1 false) { d with srst := kvDel d.srst (blockBase pg) }
    let d2 := pagesStart d1 pg.blockPages
    let d3 := match pg with | .port p _ => plcaBegin d2 p.val | _ => d2
    endShadow (restartRefills d3 pg.blockPages) (blockBase pg) false

/-- 100 µs have passed since the start of a soft reset (R21). -/
def resetTimeoutOp (d : Dev) (pg : Page) : Dev :=
  match kvGet d.srst (blockBase pg) with
  | some t => if t + 100 * usTicks ≤ d.now then raiseEsc d .chip 33 (some pg) else d
  | none => d

/-! ### Scrub and free-cell test (R16 to R19, R416) -/

/-- The domain of an SRAM region of Table 1.6; the quays' regions are reached while any quay is on. -/
def regionUp (d : Dev) (r : Nat) : Bool :=
  if r = 5 ∨ r = 6 ∨ r = 7 then [5, 6, 7, 8].any (domUp d)
  else domUp d (if r ≤ 1 then 9 else if r = 2 then 3 else if r = 3 ∨ r = 11 then 4 else if r = 4 ∨ r = 8 ∨ r = 10 then 14
    else if r = 9 then 11 else if r = 12 ∨ r = 13 then 2 else 1)

/-- Octets of an entry of the table window that holds an address (chapters 4 to 6, 8, 9, 13): in the zone window VLAN entries take 16 and the
rest 8, beside the meter states of 32 octets lie the FRER functions of 64, and in the last window the parts of Ferry and XWE differ. -/
def entrySize (a : Nat) : Nat :=
  let k := (a - 0x01000000) / 0x400000
  let o := (a - 0x01000000) % 0x400000 % 0x200000
  if k = 3 then (if o < 0x10000 then 16 else 8)
  else if k = 6 then (if o < 0x100000 then 32 else 64)
  else if k = 11 then (if o < 0x4000 then 32 else if o < 0x5000 then 64 else if o < 0x6000 then 32 else if o < 0x8000 then 16 else 32)
  else if k = 0 then 64 else if k = 1 ∨ k = 8 then 16 else if k = 2 ∨ k = 7 then 128 else if k = 4 ∨ k = 5 ∨ k = 9 then 32 else 8

/-- What a word of an entry that cannot be corrected holds until software rewrites it (R18): what makes the entry invalid for lookups. Zone
pairs have no VALID bit and hold the invalid VERDICT 3, which acts as DROP (R515; DESIGN CHOICE, log 45). -/
def lostWord (a : Nat) : W64 :=
  let k := (a - 0x01000000) / 0x400000
  let o := (a - 0x01000000) % 0x400000 % 0x200000
  if k = 3 ∧ 0x10000 ≤ o ∧ o < 0x14000 then 0x0000000300000003 else tblReset a

/-- An entry of the table array that cannot be corrected (R18): invalid, and the state of a meter starts anew. -/
def entryLost (d : Dev) (a : Nat) : Dev :=
  let n := entrySize a
  let d1 := if 0x02800000 ≤ a ∧ a < 0x02810000 then { d with meters := kvDel d.meters ((a - 0x02800000) / 32) } else d
  (List.range (n / 8)).foldl (fun d i => twr d (a / n * n + i * 8) (lostWord (a / n * n + i * 8))) d1

/-- A word corrected twice in one scrub pass is retired (R17): a table line takes a spare line of its bank, while there is one. -/
def wordRetire (d : Dev) (r w : Nat) : Dev :=
  let (again, d1) := seenTwice d r w
  if !again ∨ r ≠ 1 then d1
  else
    let b := Config.tableBank w
    let used := kvD d1.scrub.spares b 0
    if used < 32 then { d1 with scrub := { d1.scrub with spares := kvPut d1.scrub.spares b (used + 1) } } else raise d1 .chip 32

/-- The scrub reads a word of an SRAM region (R19); the packet buffer is not scrubbed. A word of the table array is named by its place
in the table windows; an entry that cannot be corrected is invalid until software rewrites it (R18, log 45). -/
def scrubOp (d : Dev) (r w : Nat) (e : EccEvent) : Dev :=
  if r = 0 ∨ !regionUp d r then d
  else match e with
  | .clean => d
  | .corrected _ => wordRetire (raise d .chip r) r w
  | .uncorrectable _ =>
    let d1 := raise d .chip (16 + r)
    if r = 1 then entryLost d1 (0x01000000 + w * 8) else d1

/-- A free buffer cell is tested (R416): one that fails is retired and reported as its SECDED event. -/
def freeCellOp (d : Dev) (n cell : Nat) (ok : Bool) : Dev :=
  if ok ∨ !domUp d (5 + n) ∨ !domUp d 9 then d
  else raise (retireCell d cell) .chip 0

/-! ### Clock monitors (R34) -/

/-- Cycles of a clock in a window of 64 cycles of CLK_BUOY: REFCLK, root PLL, CLK_FAB, CLK_CPU, CLK_SYS, CLK_TS, CLK_EDGE; the lock of
the root PLL counts its 3.2 GHz. -/
def windowCount (c : Nat) : Nat :=
  if c = 0 then 100 else if c = 1 then 12800 else if c = 2 ∨ c = 3 then 6400 else if c = 4 then 3200 else if c = 5 then 1600 else 640

/-- A window of the monitor ends (R34): a count that deviates by more than 5 % is reported. On a loss of CLK_SYS the FCN moves to
CLK_BUOY (R431). In P3 and P4 the root PLL is off. -/
def clockWindowOp (d : Dev) (c count : Nat) : Dev :=
  let nom := windowCount c
  let dev := if count < nom then nom - count else count - nom
  if 3 ≤ pwrState d ∨ dev * 20 ≤ nom then d
  else
    let d1 := if c = 4 then { d with fcn := { d.fcn with onBuoyClk := true } } else d
    raise d1 .clk c

/-- What the reverse monitor saw of CLK_BUOY (R34): a stop, or more than 5 %. -/
def buoyMonitorOp (d : Dev) (stopped : Bool) (ppm : Nat) : Dev :=
  if stopped ∨ 50000 < ppm then raise d .clk 7 else d

end Sys2Proof.Machine
end

