-- ==== Sys2Proof/Machine/Fcn.lean ====
section
/-! DEFINITION. The Fault Concentrator (chapter 15): what it decides of the events of a command (R408 to R422), FAULT_N (R423),
the chip reset up to its assertion (R425), the safe state (R426), FAULT records (R428), its self-test (R430) and its log (R433). -/

namespace Sys2Proof.Machine

/-- The Fault Concentrator changed. -/
def setFcn (d : Dev) (f : Fcn → Fcn) : Dev := { d with fcn := f d.fcn }

/-! ### FAULT_N (R423) -/

/-- The least low time of FAULT_N: 808 periods of CLK_BUOY (62.5 ns). -/
def faultMin : Nat := 808 * 100

/-- A FAULT_N reaction: the pin goes low, the minimum low time starts, a RELEASE that waits is discarded. -/
def faultLowOp (d : Dev) : Dev :=
  setFcn d fun x => { x with faultLow := true, held := true, relPend := false, minUntil := some (d.now + faultMin) }

/-- Pages 0 to 2 of the FCN are locked (R413). -/
def fcnLocked (d : Dev) : Bool := [Page.fcn 0, Page.fcn 1, Page.fcn 2].all (locked d)

/-- A write of FCN_FAULTN (R423): ASSERT wins over RELEASE; in the safe state RELEASE is ignored; before R413 has locked pages 0
to 2 a RELEASE has no effect. -/
def faultnOp (d : Dev) (v : W64) : Dev :=
  if bit v 1 then faultLowOp d
  else if !bit v 0 ∨ d.fcn.safe ∨ !fcnLocked d ∨ !d.fcn.held then d
  else if d.fcn.minUntil.isSome then setFcn d fun x => { x with relPend := true }
  else setFcn d fun x => { x with faultLow := false, held := false }

/-- The minimum low time has passed: a RELEASE written during it takes effect. -/
def faultMinOp (d : Dev) : Dev :=
  match d.fcn.minUntil with
  | none => d
  | some t =>
    if d.now < t then d
    else if d.fcn.relPend ∧ !d.fcn.safe then
      setFcn d fun x => { x with minUntil := none, relPend := false, faultLow := false, held := false }
    else setFcn d fun x => { x with minUntil := none }

/-- FCN_FAULTN as it reads (Table 15.12). -/
def faultnReg (d : Dev) : W64 :=
  mkWord [(8, (!d.fcn.faultLow).toNat), (9, d.fcn.minUntil.isSome.toNat), (10, d.fcn.safe.toNat), (11, d.fcn.held.toNat)]

/-! ### Registers -/

/-- Units of 2^-16 ns in ten seconds of local time. -/
def tenSec : Nat := 10 * secUnits

/-- FCN chip resets in the preceding 10 s, 0 to 2. -/
def resets10s (d : Dev) : Nat := min 2 (d.fcn.chipHist.filter fun t => decide (locNow d ≤ t + tenSec)).length

/-- Whether a reset shadow is open now. -/
def shadowNow (d : Dev) (s : Shadow) : Bool := match s.closes with | none => true | some t => decide (d.now < t)

/-- FCN_STAT (Table 15.11). -/
def fcnStat (d : Dev) : W64 :=
  mkWord [(0, d.fcn.safe.toNat), (1, d.fcn.lockBroken.toNat), (2, (rb d (.fcn 0) 0x88 2).toNat),
    (3, (d.fcn.shadows.any (shadowNow d)).toNat), (4, d.fcn.chipRst.isSome.toNat), (5, resets10s d)]

/-- The page and offset of FCN_SRC_s (Table 15.9). -/
def fcnSrcAt (s : Nat) : Page × Nat := (if s < 256 then .fcn 1 else .fcn 2, 0x800 + s % 256 * 8)

/-- FCN_SRC_s. -/
def fcnSrc (d : Dev) (s : Nat) : W64 := rd d (fcnSrcAt s).1 (fcnSrcAt s).2

/-- A write of FCN_SRC_s (R412): refused as a whole, or by the lock of its page. -/
def fcnSrcWriteOp (d : Dev) (s : Nat) (v : W64) : Dev :=
  let pg := (fcnSrcAt s).1
  let old := fcnSrc d s
  let c := fld v 0 3
  let sc := fld old 16 2
  let bad := bit old 15 || decide (4 < c) || decide (c < fld old 12 3) || (bit v 6 && sc == 0) || (bit v 7 && sc != 2)
    || (bit v 8 && decide (c < 3)) || s == 65
  if (sourcePage s).isNone then d
  else if locked d pg then writeFields d pg (fcnSrcAt s).2 v
  else if bad then invalidValue d pg
  else writeFields d pg (fcnSrcAt s).2 v

/-! ### Deciding events (R408 to R422) -/

/-- An event with what its source selects: class, reactions as Table 15.7 byte 3, the scopes of its resets. -/
structure Decided where
  ev     : FcnEv
  cls    : Nat
  reac   : Nat
  page   : Option Page
  quay   : Option Nat
  block  : Option Page
  conseq : Bool := false
  merged : Bool := false
deriving DecidableEq, Repr

/-- Class and reactions of an event (R408, R411): bits [0] IRQ, [1] NMI, [2] BLOCK_RST, [3] QUAY_RST, [4] CHIP_RST, [5] FAULT_N,
[6] SAFE. BLOCK_RST of a QUAY page acts as QUAY_RST. Source 65 takes those of the block that timed out; a forced one that names no
block those of a block outside the quays (log 47). -/
def decideEv (d : Dev) (e : FcnEv) : Decided :=
  let cfg := fcnSrc d e.src
  let pg := if e.src = 65 then e.blk else (sourcePage e.src).map (·.1)
  let q := (pg.bind Page.quayOf).map (·.val)
  if e.src = 65 then
    if q.isSome then { ev := e, cls := 2, reac := 8, page := none, quay := q, block := none }
    else { ev := e, cls := 3, reac := 16, page := none, quay := none, block := none }
  else
    let c := fld cfg 0 3
    let r := fld cfg 4 6
    let isQuay : Bool := match pg with | some (.quay _ _) => true | _ => false
    let toQuay := (r / 8 % 2 == 1) || (isQuay && r / 4 % 2 == 1)
    let chip := r / 16 % 2 == 1 || c == 3
    let reac := r % 16 + (chip.toNat) * 16 + (if c = 4 then 1 else r / 32 % 2) * 32 + (if c = 4 then 64 else 0)
    { ev := e, cls := c, reac := reac, page := pg,
      quay := if toQuay then q else none,
      block := if r / 4 % 2 = 1 ∧ !isQuay then pg else none }

/-- Whether a page's event falls into an open shadow (R421): of its block, of its quay's pages, or LINK_LOST of a port of the quay. -/
def inShadow (d : Dev) (x : Decided) : Bool :=
  match x.page with
  | none => false
  | some pg =>
    let q := pg.quayOf.map (·.val)
    let isQuay : Bool := match pg with | .quay _ _ => true | _ => false
    let linkLost := decide (184 ≤ x.ev.src ∧ x.ev.src < 288) && (x.ev.src - 184) % 4 == 2
    d.fcn.shadows.any fun s => shadowNow d s &&
      (if s.quay then (isQuay || linkLost) && q.any (fun n => s.base == (quayPage n 0).base) else s.base == blockBase pg)

/-- The scopes (address, quay) that an event's page belongs to. -/
def scopesOf (x : Decided) : List (Nat × Bool) :=
  match x.page with
  | none => []
  | some pg => (blockBase pg, false) :: (match pg.quayOf with | some n => [((quayPage n.val 0).base, true)] | none => [])

/-- The scopes whose reset an event asks for. -/
def resetScopes (x : Decided) : List (Nat × Bool) :=
  (match x.quay with | some n => [((quayPage n 0).base, true)] | none => [])
    ++ (match x.block with | some pg => [(blockBase pg, false)] | none => [])

/-- Whether a reset that an event asks for runs already (R418). -/
def resetRuns (d : Dev) (x : Decided) : Bool :=
  let iso (pg : Page) : Bool := match pg.quayOf with | some n => (quay d n.val).isoAt.isSome | none => false
  (x.cls == 3 && d.fcn.chipRst.isSome)
    || (match x.quay with | some n => (quay d n).isoAt.isSome | none => false)
    || (match x.block with | some pg => (kvGet d.srst (blockBase pg)).isSome || iso pg | none => false)

/-- The log entry of an event (R433, Table 15.8). -/
def fcnLogPut (d : Dev) (x : Decided) : Dev :=
  let t := locNow d
  if 64 ≤ d.fcn.log.length then cnt d (.fcn 0) 0x140 1
  else setFcn d fun f => { f with log := f.log ++ [(mkWord [(0, tNs t), (32, tSec t % 2 ^ 32)],
    mkWord [(0, x.ev.src), (9, x.cls), (12, x.reac), (19, x.conseq.toNat), (20, x.merged.toNat), (21, x.ev.forced.toNat),
      (22, x.ev.esc.toNat), (63, 1)])] }

/-- FCN_LAST and FCN_LAST_NS (Table 15.11). -/
def fcnLastPut (d : Dev) (x : Decided) : Dev :=
  let t := locNow d
  wr (wr d (.fcn 0) 0x98 (mkWord [(0, x.ev.src), (9, x.cls), (12, x.ev.forced.toNat), (32, tSec t % 2 ^ 32)]))
    (.fcn 0) 0xa0 (mkWord [(0, tNs t)])

/-- PD_SEC is intact (R428). -/
def secIntact (d : Dev) : Bool := domUp d 2 && !d.fcn.secBroken

/-- The FAULT record of an event and a seal (R428, Tables 15.5 to 15.7). -/
def faultRecord (d : Dev) (x : Decided) : Dev :=
  if !secIntact d then d
  else
    let t := locNow d
    let others := ((d.fcn.cycleSrcs.filter (· != x.ev.src)).take 4).flatMap (leBytes 2)
    let flags := x.ev.forced.toNat + x.ev.esc.toNat * 2 + (if d.fcn.onBuoyClk ∨ 3 ≤ pwrState d then 4 else 0)
    sealReq (manPush d 5 5 (leBytes 2 x.ev.src ++ leBytes 1 x.cls ++ leBytes 1 x.reac ++ leBytes 1 flags ++ leBytes 1 (pwrState d)
      ++ leBytes 1 (resets10s d) ++ [0] ++ leBytes 4 (tSec t) ++ leBytes 4 (tNs t)
      ++ others ++ List.replicate (8 - others.length) 0xFF ++ wordBytes (rd d (.fcn 0) 0x148))) 4 none

/-- The egress MACs of ports 0 to 25 stomp what they send; every Lighter channel is aborted (Tables 15.5, 15.6, step 3). -/
def stompAll (d : Dev) : Dev :=
  let d1 := (List.range 26).foldl (fun d p =>
    if (kvGet d.tx p).isSome ∨ (kvGet d.susp p).isSome then breakTx d p else d) d
  (List.range 32).foldl ltAbortOp d1

/-- The chip reset of Table 15.5 begins; the third within 10 s is escalated instead (R420). A reset while an image is pending is
not entered in the history (R481). -/
def chipResetOp (d : Dev) (x : Decided) : Dev :=
  if d.fcn.safe ∨ d.fcn.chipRst.isSome then d
  else
    let pending := d.boot.pending.isSome
    let third : Bool := match d.fcn.chipHist with
      | [a, _] => decide (locNow d ≤ a + tenSec)
      | _ => false
    if third ∧ !pending then raiseEsc d .chip 35 none
    else
      let d1 := faultLowOp (fcnLastPut d x)
      let hist := if pending then d.fcn.chipHist else (d.fcn.chipHist ++ [locNow d]).drop (d.fcn.chipHist.length - 1)
      let d2 := setFcn (cnt d1 (.fcn 0) 0x148 1) fun f => { f with chipRst := some d.now, chipHist := hist }
      faultRecord (stompAll d2) x

/-- The safe state (R426, R516, Table 15.6). -/
def safeStateOp (d : Dev) (x : Decided) : Dev :=
  if d.fcn.safe then d
  else
    let d1 := setFcn (faultLowOp d) fun f => { f with safe := true, chipRst := none, relPend := false }
    let d2 := (List.range 26).foldl (fun d p => let d1 := breakRx d p false; setPort d1 p { portSt d1 p with rx := [], standby := true })
      (stompAll d1)
    let d3 := (List.range 24).foldl (fun d i =>
      [false, true].foldl (fun d rx => if hqEn d i rx then hqStop d i rx else d) d) d2
    faultRecord (abortSlots d3 (fun _ _ => true) 3 0) x

/-- A quay reset by the FCN (R24, R28). -/
def fcnQuayReset (d : Dev) (n : Nat) : Dev :=
  if (quay d n).isoAt.isSome then d
  else
    let d1 := quayResetOp d n
    if (quay d1 n).isoAt.isSome then cnt d1 (.fcn 0) 0x138 1 else d1

/-- A block reset by the FCN: the fourth within 1 s disables the block instead (R419). -/
def fcnBlockReset (d : Dev) (pg : Page) : Dev :=
  let iso : Bool := match pg.quayOf with | some n => (quay d n.val).isoAt.isSome | none => false
  if (kvGet d.srst (blockBase pg)).isSome ∨ iso = true then d
  else
    let hist := d.fcn.blkHist.filter fun e => decide (locNow d < e.2 + secUnits)
    if 3 ≤ (hist.filter fun e => e.1 == blockBase pg).length then
      let d1 := pg.blockPages.foldl disableOp (setFcn d fun f => { f with blkHist := hist })
      raiseEsc (wr d1 (.fcn 0) 0xb0 (mkWord [(0, pg.blockType), (16, pg.instanceNo)])) .chip 36 none
    else
      softResetOp (cnt (setFcn d fun f => { f with blkHist := hist ++ [(blockBase pg, locNow d)] }) (.fcn 0) 0x130 1) pg

/-- What every event leaves in the log, the counters and FCN_LAST (R422, R433). -/
def fcnNote (d : Dev) (x : Decided) : Dev :=
  let d1 := fcnLogPut d x
  let d2 := if 3 ≤ x.cls then fcnLastPut d1 x else d1
  if x.conseq then irq (cnt d2 (.fcn 0) 0x128 1) (.fcn 0) 1 else cnt d2 (.fcn 0) (0x100 + x.cls * 8) 1

/-- The interrupt, NMI and FAULT_N reactions of an event that acts. -/
def fcnSignal (d : Dev) (x : Decided) : Dev :=
  let s := x.ev.src
  let d1 := if x.reac % 2 = 1 then
      irq (wb d (.fcn 3) (0x80 + s / 64 * 8) (s % 64) true) (.fcn 0) 0 else d
  let d2 := if x.reac / 2 % 2 = 1 ∧ domCond d1 3 = 1 then emit d1 (.nmi s) else d1
  if x.reac / 32 % 2 = 1 then faultLowOp d2 else d2

/-- Whether an event is delivered in P3 and P4 (R431). -/
def delivered (d : Dev) (e : FcnEv) : Bool :=
  pwrState d < 3 || e.src == 15 || decide (16 ≤ e.src ∧ e.src ≤ 23) || e.src == 67 || e.src == 75 || e.src == 77

/-- One CLK_SYS cycle is two periods of CLK_FAB. The sources and opened scopes of a cycle are kept until the next one. -/
def fcnCycle (d : Dev) : Dev :=
  if d.fcn.cycle = d.now / 2 then d
  else setFcn d fun f => { f with cycle := d.now / 2, cycleSrcs := [], cycleRst := [] }

/-- One page of each block: several resets of one block that are asked for in one cycle are one (R417). -/
def oneEach (l : List Page) : List Page :=
  l.foldl (fun a pg => if a.any fun q => blockBase q == blockBase pg then a else a ++ [pg]) []

/-- The FCN decides a list of events that arrive in one cycle (R417, R418, R421, R422). -/
def fcnDecide (d0 : Dev) (evs : List FcnEv) : Dev :=
  let d := fcnCycle d0
  let evs := evs.filter (delivered d)
  let broken := evs.any fun e => e.src == 60 || e.src == 61 || e.src == 497 || e.src == 498
  let d := setFcn d fun f => { f with cycleSrcs := f.cycleSrcs ++ evs.map (·.src), secBroken := f.secBroken || broken }
  let xs := evs.map (decideEv d)
  -- shadows that were open before this cycle
  let held (x : Decided) : Bool := x.cls != 4 && inShadow d x && !((resetScopes x).any d.fcn.cycleRst.contains)
  let live := xs.filter fun x => !held x
  let big := d.fcn.safe || d.fcn.chipRst.isSome || live.any fun x => decide (3 ≤ x.cls) || x.reac / 16 % 2 == 1
  let opened := d.fcn.cycleRst ++ (if big then [] else live.flatMap resetScopes)
  let marked := xs.map fun x =>
    let own := (resetScopes x).any opened.contains
    let same := !big && x.cls != 4 && !own && (scopesOf x).any fun s => opened.contains s
    let c := held x || same
    { x with conseq := c, merged := !c && resetRuns d x }
  let d1 := setFcn d fun f => { f with cycleRst := opened }
  let d2 := marked.foldl fcnNote d1
  let acts := marked.filter fun x => !x.conseq
  if d2.fcn.safe then d2
  else
    let d3 := acts.foldl fcnSignal d2
    match acts.find? (fun x => x.cls == 4) with
    | some x => safeStateOp d3 x
    | none =>
      match acts.find? (fun x => x.reac / 16 % 2 == 1) with
      | some x => chipResetOp d3 x
      | none =>
        if d3.fcn.chipRst.isSome then d3
        else
          let d4 := (acts.filterMap (·.quay)).foldl fcnQuayReset d3
          (oneEach (acts.filterMap (·.block))).foldl fcnBlockReset d4

/-- The events of a command are decided, and those that the reactions raise; at most n rounds. -/
def fcnSettle : Nat → Dev → Dev
  | 0, d => d
  | n + 1, d => if d.evq = [] then d else fcnSettle n (fcnDecide { d with evq := [] } d.evq)

/-- The condition of a source occurs (R409): its ERR_RAW bit is set and an event delivered. -/
def faultEventOp (d : Dev) (s : Nat) : Dev :=
  match sourcePage s with
  | some (pg, b) => raise d pg b
  | none => d

/-- A supply outside its safety window (R410): sources 16 to 21. -/
def railOp (d : Dev) (r : Rail) : Dev :=
  raise d .pwr (match r with | .vddCore => 0 | .vddSram => 1 | .vddaHs => 2 | .vdd18 => 3 | .vdd33 => 4 | .buoy08 => 5)

/-- Tj above 125 °C, or above 140 °C (Table 15.2, sources 22 and 23). -/
def tjOp (d : Dev) (crit : Bool) : Dev := raise d .pwr (if crit then 7 else 6)

/-! ### Self-test (R430) and the log aperture (R433) -/

/-- A self-test with its outcome: suspended in P3 and P4. -/
def fcnSelftestOp (d : Dev) (ok : Bool) : Dev :=
  if 3 ≤ pwrState d then d
  else
    let d1 := setFcn d fun f => { f with lastTest := locNow d, exitTest := false }
    if ok then wb (wf d1 (.fcn 0) 0xa8 32 32 ((rf d1 (.fcn 0) 0xa8 32 32 + 1) % 2 ^ 32)) (.fcn 0) 0x88 2 true
    else raise (wb d1 (.fcn 0) 0x88 2 false) (.fcn 0) 2

/-- The periodic self-test is due 100 ms of local time after the last one, and at the exit from P3 or P4 (R431). -/
def fcnSelftestDue (d : Dev) : Bool := d.fcn.exitTest || decide (d.fcn.lastTest + 100 * 65536000000 ≤ locNow d)

/-- A read of the log aperture by the rule of R198. -/
def fcnLogRead (d : Dev) (addr width : Nat) : W64 × Dev :=
  let (w, l, h) := drainStep d.fcn.log d.fcn.logHalf addr width
  (w, setFcn d fun f => { f with log := l, logHalf := h })

end Sys2Proof.Machine
end

