-- ==== Sys2Proof/Machine/Power.lean ====
section
/-! DEFINITION. Power states (chapter 11): the target (R309), idle quays (R304 to R306), entry to P3 and P4 (R310), exit (R312),
edge checks (R314), and what survives (R303). -/

namespace Sys2Proof.Machine

/-- The power manager changed. -/
def setPwr (d : Dev) (f : PwrSt → PwrSt) : Dev := { d with pwr := f d.pwr }

/-! ### The target (R308, R309) -/

/-- The state of a cluster. -/
def clus (d : Dev) (n : Nat) : Cluster := kvD d.buoy.cl n {}

/-- An edge check runs (R314). -/
def edgeCheck (d : Dev) : Bool := rb d .pwr 0x88 21

/-- DEEP_BLOCK.NM: a valid cluster is not ASLEEP or OFF, and not in WAKE_CHECK under an edge check. -/
def nmBlocks (d : Dev) : Bool :=
  (List.range 32).any fun n =>
    let s := (clus d n).state
    clValid d n && s != 0 && s != 4 && !(s == 5 && edgeCheck d && d.pwr.check.contains n)

/-- DEEP_BLOCK.DEBUG: an INV session is open (Table 16.5). -/
def debugBlocks (d : Dev) : Bool := dbgLevel d == 2

/-- The PCIe link is down or in L2/L3 Ready. -/
def pcieQuiet (d : Dev) : Bool := !rb d (.host 0) 0x80 6 || rf d (.host 0) 0x80 8 2 == 3

/-- deep_ok(s) of R309. -/
def deepOk (d : Dev) (s : Nat) : Bool := !nmBlocks d && !debugBlocks d && (s == 3 || pcieQuiet d)

/-- Exit latencies of Table 11.5 in tenths of a microsecond. -/
def exitTenths (s : Nat) (edge : Bool) : Nat :=
  if s = 1 then 4 else if s = 2 then 480 else if s = 3 then (if edge then 9000 else 30000) else (if edge then 90000 else 110000)

/-- Every active wake class tolerates the exit latency of a state (R308). -/
def tolerated (d : Dev) (s : Nat) : Bool :=
  (List.range 8).all fun c =>
    let w := rd d .pwr (0xc0 + c * 8)
    !bit w 17 || bit w 16 || decide (exitTenths s (bit w 18) ≤ fld w 0 16 * 10)

/-- target() of R309. -/
def pwrTarget (d : Dev) : Nat :=
  let ok (s : Nat) : Bool := decide (s ≤ rf d .pwr 0x80 0 3) && (decide (s < 3) || deepOk d s) && tolerated d s
  if ok 4 then 4 else if ok 3 then 3 else if ok 2 then 2 else if ok 1 then 1 else 0

/-! ### Idle quays (R304 to R306) -/

/-- A port satisfies the condition of R304, or with `deep` that of R305. -/
def portIdle (d : Dev) (p : Nat) (deep : Bool) : Bool :=
  if p < 26 then
    !linkIsUp d p || !enabled d (macPage p)
      || (if deep then rf d (phyPage p) 0xc8 0 3 == 3 else rb d (macPage p) 0xb8 9 && rb d (macPage p) 0xb8 10)
  else !enabled d (macPage p)

/-- A quay is P1-idle (R304). -/
def p1Idle (d : Dev) (n : Nat) : Bool := (portsOfQuay n).all (fun p => portIdle d p false) && (queued d n).isEmpty

/-- A quay is P2-idle (R305). -/
def p2Idle (d : Dev) (n : Nat) : Bool :=
  (portsOfQuay n).all (fun p => portIdle d p true) && (queued d n).isEmpty
    && (List.range 8).all fun s =>
      !(slotState d s == 1 || slotState d s == 2) || (joinedPages d s).all fun pg => pg.domain != 5 + n

/-- Every page of a power domain. -/
def domainPages (x : Nat) : List Page := allPages.filter fun pg => pg.domain == x

/-- The kinds of field that P2 and P3 keep (Table 11.3): all but status. -/
def keptBits (pg : Page) (off : Nat) : W64 :=
  if off = 0x8 ∨ off = 0x50 ∨ off = 0x60 then ~~~0
  else match pg.rowAt off with
  | some r => r.bits fun k => k == .rw || k == .rws || k == .rwd || k == .rwl || k == .ctr
  | none => 0

/-- Status fields, IRQ_RAW and ERR_RAW of pages return to their reset values (Table 11.3). -/
def statusReset (d : Dev) (p : Page → Bool) : Dev :=
  let f (e : Nat × W64) : Option (Nat × W64) :=
    match pageOf e.1 with
    | none => some e
    | some pg =>
      if !p pg then some e
      else
        let m := keptBits pg (e.1 % 0x1000)
        let v := (e.2 &&& m) ||| (regReset e.1 &&& ~~~m)
        if v = regReset e.1 then none else some (e.1, v)
  let drop (l : List (Nat × Instant)) : List (Nat × Instant) :=
    l.filter fun e => match pageOf e.1 with | some pg => !p pg | none => true
  { d with regs := d.regs.filterMap f, commitAt := drop d.commitAt, refillAt := drop d.refillAt }

/-- A quay is clock-gated (R304, Table 11.4). -/
def quayClockGateOp (d : Dev) (n : Nat) : Dev :=
  let since : Bool := match kvGet d.pwr.idle1 n with | some t => decide (t + usTicks ≤ d.now) | none => false
  if d.fcn.safe ∨ pwrTarget d = 0 ∨ domCond d (5 + n) ≠ 1 ∨ (quay d n).isoAt.isSome ∨ !p1Idle d n ∨ !since then d
  else pagesStop (wb (setDomCond d (5 + n) 2) .pwr 0x88 (8 + n) true) (domainPages (5 + n))

/-- A quay is power-gated with retention (R305, Tables 11.3 and 11.4). -/
def quayPowerGateOp (d : Dev) (n : Nat) : Dev :=
  let us := max 1 (rf d .pwr 0x80 16 16)
  let since : Bool := match kvGet d.pwr.idle2 n with | some t => decide (t + us * usTicks ≤ d.now) | none => false
  if d.fcn.safe ∨ pwrTarget d < 2 ∨ !domUp d (5 + n) ∨ (quay d n).isoAt.isSome ∨ !p2Idle d n ∨ !since then d
  else
    let d1 := quayForget (ltDomainStop d [5 + n]) n
    let d2 := statusReset d1 fun pg => pg.domain == 5 + n
    wb (wb (setDomCond d2 (5 + n) 3) .pwr 0x88 (8 + n) false) .pwr 0x88 (12 + n) true

/-- A gated quay begins to be restored (R306). -/
def quayRestoreOp (d : Dev) (n : Nat) : Dev :=
  let c := domCond d (5 + n)
  if d.fcn.safe ∨ 3 ≤ pwrState d ∨ !(c == 2 || c == 3) ∨ (quay d n).restore.isSome then d
  else setQuay d n { quay d n with restore := some (d.now, c) }

/-- One signature pass over each page of a quay that comes from retention (step 5 of Table 11.4). -/
def quayPass (d : Dev) (n c : Nat) : Dev := if c = 3 then (domainPages (5 + n)).foldl sigPassOp d else d

/-- A gated quay runs, or is clock-gated where its target allows no more (R306). -/
def quayOn (d : Dev) (n : Nat) : Dev :=
  let toCg := domCond d (5 + n) = 3 ∧ pwrTarget d = 1 ∧ p1Idle d n
  let d1 := setQuay d n { quay d n with restore := none }
  let d2 := quayPass (wb (wb d1 .pwr 0x88 (12 + n) false) .pwr 0x88 (8 + n) (decide toCg)) n (domCond d (5 + n))
  if toCg then setDomCond d2 (5 + n) 2 else pagesStart (setDomCond d2 (5 + n) 1) (domainPages (5 + n))

/-- The restoration time of Table 11.4 has passed: 0.4 µs from CG, 48 µs from RET. -/
def quayRestoreDoneOp (d : Dev) (n : Nat) : Dev :=
  match (quay d n).restore with
  | none => d
  | some (t, c) => if t + (if c = 2 then 640 else 48 * usTicks) ≤ d.now then quayOn d n else d

/-- An access to a page of a gated quay restores it, and is served when it runs (R306). -/
def quayTouch (d : Dev) (pg : Page) : Dev :=
  if 5 ≤ pg.domain ∧ pg.domain ≤ 8 ∧ pwrState d < 3 ∧ !d.fcn.safe ∧ (domCond d pg.domain = 2 ∨ domCond d pg.domain = 3) then
    let n := pg.domain - 5
    let d1 := setQuay d n { quay d n with restore := none }
    let d2 := quayPass (wb (wb d1 .pwr 0x88 (12 + n) false) .pwr 0x88 (8 + n) false) n (domCond d pg.domain)
    pagesStart (setDomCond d2 (5 + n) 1) (domainPages (5 + n))
  else d

/-! ### Entry (R310, Table 11.6) -/

/-- The quays' rest of an entry: copies of every port freed, those of ports 0 to 25 and 28 counted in TX_LINK_DROP
(R77, R253). -/
def dropCopies (d : Dev) : Dev :=
  let d1 := ferryOff ((List.range 26).foldl flushPort d)
  (List.range 4).foldl (fun d n => setQuay (takeCopies d n (fun _ => true) freeCopy) n { quay (takeCopies d n (fun _ => true) freeCopy) n with ready := [], pipe := [] }) d1

/-- Steps 1 to 5 of Table 11.6 at the decision (log 48). -/
def entryStart (d : Dev) (t : Nat) : Dev :=
  let d1 := ltDomainStop (abortSlots (pairHold d 8) (fun _ _ => true) 2 0) (List.range 15)
  let d2 := (List.range 26).foldl (fun d p =>
    if linkIsUp d p then linkDown (if warmPort p then saveRecord d p else d) p else d) d1
  let d3 := (List.finRange 24).foldl (fun d k => canClear (wb d (.can k) 0x18 0 false) k.val) (dropCopies d2)
  let d4 := (List.finRange 8).foldl (fun d l => linClear (wb d (.lin l) 0x18 0 false) l.val) d3
  let d5 := updDrop (wb d4 (.buoy 0) 0x288 3 true)
  let d6 := if t = 4 then manEmpty (sessionClose (diagCloseAll (recordsToFlash d5)) 3) else d5
  setPwr (wb d6 .pwr 0x88 6 true) fun x => { x with entry := some (t, d.now), latched := none }

/-- The point of no return of an entry (Table 11.6): 130 µs after the decision, 1,610 µs for P4. -/
def ponrAt (t : Nat) (start : Instant) : Instant := start + (if t = 4 then 1610 else 130) * usTicks

/-- Whether an entry has passed its point of no return: entry to P3 waits at its step 4 for a resynchronisation or self-test (R399). -/
def ponrPast (d : Dev) (t : Nat) (start : Instant) : Bool :=
  d.time.stopped || (decide (ponrAt t start ≤ d.now) && !(t == 3 && (resyncing d || decide (d.now < d.scarab.digFrom))))

/-- Step 6 of an entry: the time counters are saved and CLK_TS stops (R207). -/
def clockStop (d : Dev) : Dev :=
  if d.time.stopped then d
  else setPwr { d with time := { d.time with stopped := true } } fun x => { x with sleepAt := some d.now }

/-- The keeper's first period starts, with no periods counted as missed (R299). -/
def keeperRestart (d : Dev) : Dev :=
  let d1 := wf d (.buoy 0) 0x288 0 2 0
  { d1 with buoy := { d1.buoy with kicked := false, keepAt := d.now } }

/-- The steps of an entry reversed: the device is in P0 (R310), and the keeper runs again where it was suspended (R299). -/
def entryAbort (d : Dev) : Dev :=
  let d1 := setPwr (wb d .pwr 0x88 6 false) fun x => { x with entry := none }
  let d2 := irq (cnt (keeperRestart (wb d1 (.buoy 0) 0x288 3 false)) .pwr 0x110 1) .pwr 1
  let d3 := pagesStart d2 (domainPages 14)
  (List.range 26).foldl (fun d p => if enabled d (phyPage p) then phyStart d p else d) d3

/-- DEEP_DELAY_MS has passed with deep_ok (R309). -/
def deepDelayOp (d : Dev) : Dev :=
  let t := pwrTarget d
  let since := if t = 4 then d.pwr.deepAt4 else d.pwr.deepAt
  let due : Bool := match since with | some x => decide (x + rf d .pwr 0x80 32 16 * msTicks ≤ d.now) | none => false
  if halted d ∨ t < 3 ∨ 3 ≤ pwrState d ∨ d.pwr.entry.isSome ∨ !due then d else entryStart d t

/-! ### Exit (R312) -/

/-- A request to leave P3 or P4, or to abort or latch an entry (R310). -/
def exitRequest (d : Dev) (host : Bool) (wclass : Nat) : Dev :=
  if halted d then d
  else match d.pwr.entry with
  | some (t, s) =>
    if !ponrPast d t s then entryAbort d
    else if d.pwr.latched.isSome then d
    else cnt (setPwr (wb d .pwr 0x88 20 true) fun x => { x with latched := some (host, wclass) }) .pwr 0x118 1
  | none =>
    if pwrState d < 3 ∨ d.pwr.exit.isSome then d
    else
      let ahead := match d.pwr.checkAt with
        | some t => min (d.now - t) (if pwrState d = 4 then 8500 * usTicks else 100 * usTicks)
        | none => 0
      let d1 := setPwr (wb (wb d .pwr 0x88 6 true) .pwr 0x88 21 false) fun x =>
        { x with exit := some (host, wclass), exitAt := d.now, exitFrom := d.now - ahead, exitStep := 0, checkAt := none, pwrEn := true }
      if pwrState d = 4 ∧ !edgeCheck d then setBoot d1 fun b => { b with due := true, cause := 6 } else d1

/-- A host access in P3, or past the point of no return of an entry to P3 (R310, R316, ACCESS_WAKE of Table 11.11). -/
def hostAccessOp (d : Dev) : Dev :=
  let late : Bool := match d.pwr.entry with | some (t, s) => t == 3 && ponrPast d t s | none => false
  if rb d .pwr 0x80 3 ∧ (pwrState d = 3 ∨ late) then exitRequest d true (rf d .pwr 0x80 4 3) else d

/-- What pages and engines outside PD_AON lose when their domains go OFF (Table 11.3). The configuration store restores nothing beyond
reset values (log 49). -/
def dropDomains (d0 : Dev) (keep : Page → Bool) : Dev :=
  let d := (List.range 26).foldl tsqClear (timedClear d0)
  let stays (e : Nat × W64) : Bool := match pageOf e.1 with | some pg => keep pg | none => true
  let staysAt (e : Nat × Instant) : Bool := match pageOf e.1 with | some pg => keep pg | none => true
  let d1 := { d with
    regs := d.regs.filter stays, act := d.act.filter stays, frz := [], frzSel := [], tbl := [], epoch := d.epoch + 1, retired := [],
    srst := d.srst.filter staysAt, commitAt := d.commitAt.filter staysAt, refillAt := d.refillAt.filter staysAt, tideRef := [],
    sigFrom := d.sigFrom.filter staysAt }
  let d2 := { d1 with
    quays := [], tx := [], susp := [], gates := [], credits := [], filters := [], meters := [], pend := [], frerQ := [], flush := none,
    evidAt := [], rateRem := [], logAt := none, retired1 := [], scrub := {}, ferryIn := [], ferry := {}, xwe := {}, diagPrev := [],
    commitBy := [], scarab := {} }
  let d3 := { d2 with
    cans := d.cans.filterMap fun (e : Nat × CanSt) => if e.2.seqLevel.isSome then some (e.1, ({ seqLevel := e.2.seqLevel } : CanSt)) else none,
    lins := d.lins.filterMap fun (e : Nat × LinSt) => if e.2.seqLevel.isSome then some (e.1, ({ seqLevel := e.2.seqLevel } : LinSt)) else none,
    ports := d.ports.map fun (e : Nat × PortSt) => (e.1, ({ record := e.2.record, recFlash := e.2.recFlash, standby := e.2.standby } : PortSt)),
    host := { d.host with qs := [], curH := none, curC := none, mbox := [], ltNext := [], ltMaster := [], msixT := [], pba := [], held := [], inbWait := none } }
  manLose (emptySlots { d3 with car := { d3.car with cmd := none, lcNonce := none } })

/-- The conditions of Table 11.2 in P3 or P4, and back in P0. -/
def domainsTo (d : Dev) (s : Nat) : Dev :=
  (List.range 15).foldl (fun d x =>
    if x ≤ 1 then d else setDomCond d x (if s = 4 then 0 else if s = 3 then (if x = 11 then 4 else 3) else 1)) d

/-- Tide slots that a page of a domain outside PD_AON joined are aborted before the power-down (R67). -/
def abortDomains (d : Dev) : Dev := (List.range 15).foldl (fun d x => if x ≤ 1 then d else abortDomain d x) d

/-- Pages whose status fields P3 resets; of PD_SEC and PD_SCARAB only the interrupt and error words (log 50). -/
def anchorReset (d : Dev) : Dev :=
  let d1 := statusReset d fun pg => 4 ≤ pg.domain
  (domainPages 2 ++ domainPages 3).foldl (fun d pg => wr (wr d pg 0x20 0) pg 0x40 0) d1

/-- The state of an entry is reached (Tables 11.2, 11.3, 11.6). -/
def stateReachedOp (d : Dev) : Dev :=
  match d.pwr.entry with
  | none => d
  | some (t, s) =>
    if halted d ∨ !ponrPast d t s then d
    else
      let d := clockStop (abortDomains d)
      let d1 := if t = 4 then dropDomains d (fun pg => pg.domain ≤ 1 || pg == .time 0)
        else
          let e := anchorReset ((List.range 4).foldl quayForget d)
          ferryClear { e with susp := [], gates := e.gates.map fun g => (g.1, { g.2 with hold := false }) } true
      let d2 := if t = 3 then xweClear (setXwe d1 {}) else setBoot d1 fun b => { b with image := none, confirm := none }
      let d3 := domainsTo d2 t
      let d4 := wf (wf (wb d3 .pwr 0x88 6 false) .pwr 0x88 8 8 0) .pwr 0x88 0 3 t
      let d5 := irq (cnt d4 .pwr (if t = 4 then 0x108 else 0x100) 1) .pwr 0
      let d7 := setPwr d5 fun x => { x with entry := none, latched := none, idle1 := [], idle2 := [], pwrEn := t != 4 }
      match d.pwr.latched with
      | some (h, c) => exitRequest (wb d7 .pwr 0x88 20 false) h c
      | none => d7

/-- The time counters are restored (R207, R313): the measured sleep is within 1 % of the sleep. What waited for an edge when CLK_TS stopped
(a RATE, a load, a step, a snapshot) has it once CLK_TS runs again (DEDUCED, log 193). -/
def timeRestore (d : Dev) : Dev :=
  match d.pwr.sleepAt with
  | none => d
  | some s =>
    let real := (d.now - s) * (tsStep / 4)
    let (k, d1) := freeNat d
    let m := real - real / 100 + k % (2 * (real / 100) + 1)
    let restored (x : TimeDom) : TimeDom :=
      let add := (((m * 2 ^ 40 : Nat) : Int) + (m : Int) * x.rate).toNat
      { x with ctr := if x.on then x.ctr + add else x.ctr, wdFrom := d.now,
               steps := x.steps.map fun s => { s with edge := max s.edge (d.now / 4 + 1) } }
    let before := (List.range 5).map fun i => (i, timeOf d1 i)
    let d2 := d1.time.doms.foldl (fun d e => setDom d e.1 (restored e.2))
      { d1 with time := { d1.time with loc := d1.time.loc + m, stopped := false } }
    let d3 := (List.range 4).foldl (fun d i =>
      if rb d (.time 0) (0x100 + i * 0x40) 0 then
        irq (wb (wb d (.time 0) (tReg i 0) 1 false) (.time 0) (tReg i 0x30) 0 true) (.time 0) i else d) d2
    let d4 := before.foldl (fun d e => afterStep d e.1 e.2) d3
    setPwr d4 fun x => { x with sleepAt := none }

/-- Domains are powered and clocked. -/
def domainsOn (d : Dev) (l : List Nat) : Dev := l.foldl (fun d x => setDomCond d x 1) d

/-- The pages of some domains that run before edge ready: the Ferry and the CAN and LIN controllers start at steps of their own. -/
def earlyPages (l : List Nat) : List Page :=
  allPages.filter fun pg => l.contains pg.domain && match pg with | .can _ => false | .lin _ => false | .ferry => false | _ => true

/-- The pages of the CAN and LIN controllers. -/
def busPages : List Page := allPages.filter fun pg => match pg with | .can _ => true | .lin _ => true | _ => false

/-- PD_PHYM and PD_PHYG on, with the warm-relink records loaded: the PHYs start, those that wait for a WUR with it (R296). -/
def physOn (d : Dev) (fromStore : Bool) : Dev :=
  (List.range 26).foldl (fun d p =>
    let d' := if fromStore then setPort d p { portSt d p with record := (portSt d p).recFlash } else d
    if enabled d' (phyPage p) ∧ !d.buoy.portDue.contains p then phyStart d' p else d') (pagesStart (domainsOn d [12, 13]) (earlyPages [12, 13]))

/-- Edge ready (R312): the controllers run, and those of the woken clusters are in normal mode. -/
def edgeReady (d : Dev) : Dev :=
  let d1 := (List.range 24).foldl (fun d k => setCan d k { can d k with edgeChk := false }) (pagesStart d busPages)
  (List.range 8).foldl (fun d l => setLin d l { lin d l with edgeChk := false }) d1

/-- The times of the steps of an exit in µs (Tables 11.7, 11.8), and of an edge check (Table 11.13). -/
def exitTimes (s : Nat) : List Nat := if s = 4 then [2200, 8500, 8600, 9000] else [100, 120, 300, 600, 700, 900]
def checkTimes (s : Nat) : List Nat := if s = 4 then [2200, 8500, 9000] else [100, 900]

/-- An exit in progress has made its last step. -/
def exitReady (d : Dev) : Bool := d.pwr.exit.isSome && d.pwr.exitStep == (exitTimes (pwrState d)).length

/-- A step of an exit, in the order of Table 11.7 (P3) or 11.8 (P4). -/
def exitStepOp (d : Dev) (s k : Nat) : Dev :=
  match decide (s = 4), k with
  | false, 0 => digestStart (pagesStart (domainsOn d [2, 3, 4, 8, 9, 11, 14]) (earlyPages [4, 9, 11, 14])) d.now
  | false, 1 => sessionExpiryOp (timeRestore d)
  | false, 2 => pagesStart (domainsOn d [5, 6, 7, 10]) (earlyPages [5, 6, 7, 10])
  | false, 3 => physOn d false
  | false, 4 => pagesStart d (.ferry :: earlyPages [8])
  | true, 0 => domainsOn d [2, 3, 4, 5, 6, 7, 8, 9, 10, 11, 14]
  | true, 1 => sessionExpiryOp (pagesStart (timeRestore d) (.ferry :: earlyPages [4, 5, 6, 7, 8, 9, 10, 11, 14]))
  | true, 2 => physOn d true
  | _, _ => edgeReady d

/-- A step of an edge check, in the order of Table 11.13. -/
def checkStepOp (d : Dev) (s k : Nat) : Dev :=
  match decide (s = 4), k with
  | false, 0 => pagesStart (domainsOn d [14]) (.ferry :: earlyPages [14])
  | true, 0 => domainsOn d [2, 3, 14]
  | true, 1 => pagesStart d (.ferry :: earlyPages [14])
  | _, _ => pagesStart d busPages

/-- The next step of the entry, exit or edge check in progress: when it is due, and its effect. CLK_TS stops at the point of no return of
an entry (Table 11.6). In P4 the steps after the first wait for the boot. After a failed power-up PWR_EN rises again (Table 19.3). -/
def powerNext (d : Dev) : Option (Instant × (Dev → Dev)) :=
  let s := pwrState d
  let step (l : List Nat) (base : Instant) (k : Nat) (f : Dev → Dev) : Option (Instant × (Dev → Dev)) :=
    match l[k]? with
    | some us => if halted d ∨ (s = 4 ∧ k ≠ 0 ∧ d.boot.due) then none else some (base + us * usTicks, f)
    | none => none
  if s < 3 then
    match d.pwr.enAt, d.pwr.entry with
    | some t, _ => some (t, fun d => setPwr d fun x => { x with enAt := none, pwrEn := true })
    | none, some (t, x) => if halted d ∨ d.time.stopped ∨ (t = 3 ∧ resyncing d) then none else some (max (ponrAt t x) (if t = 3 then d.scarab.digFrom else 0), clockStop)
    | none, none => none
  else if d.pwr.exit.isSome then
    step (exitTimes s) d.pwr.exitFrom d.pwr.exitStep fun d => setPwr (exitStepOp d s d.pwr.exitStep) fun x => { x with exitStep := x.exitStep + 1 }
  else match d.pwr.checkAt with
  | some t => step (checkTimes s) t d.pwr.checkStep fun d => setPwr (checkStepOp d s d.pwr.checkStep) fun x => { x with checkStep := x.checkStep + 1 }
  | none => none

/-- The steps of an exit or edge check that are due by an instant; at most k of them. -/
def powerDue (t : Instant) : Nat → Dev → Dev
  | 0, d => d
  | k + 1, d => match powerNext d with
    | some (a, f) => if a ≤ t then powerDue t k (f (moveTo d (max d.now a))) else d
    | none => d

/-- The exit ends: edge and Ethernet ready, after the last step of Table 11.7 or 11.8 (R312, log 51). The keeper's first period starts
(R299); the self-test of the FCN runs (R431). -/
def exitDoneOp (d : Dev) : Dev :=
  match d.pwr.exit with
  | none => d
  | some (h, c) =>
    let s := pwrState d
    if halted d ∨ s < 3 ∨ d.pwr.exitStep < (exitTimes s).length then d
    else
      let us := min (2 ^ 32 - 1) ((d.now - d.pwr.exitAt) / usTicks)
      let d1 := wr d .pwr 0x98 (mkWord [(0, s), (3, h.toNat), (4, c), (32, us)])
      let d2 := irq (irq (wb (wf d1 .pwr 0x88 0 3 0) .pwr 0x88 6 false) .pwr 2) .pwr 0
      let d3 := setPwr { d2 with fcn := { d2.fcn with exitTest := true } } fun x => { x with exit := none, check := [] }
      keeperRestart (wb d3 (.buoy 0) 0x288 3 false)

/-! ### Edge checks (R314) -/

/-- An edge check begins, or takes in further clusters. -/
def checkStart (d : Dev) (ns : List Nat) : Dev :=
  let d1 := setPwr d fun x => { x with check := x.check ++ ns.filter (fun n => !x.check.contains n), pwrEn := true }
  if edgeCheck d then d1
  else
    let d2 := setPwr (wb d1 .pwr 0x88 21 true) fun x => { x with checkAt := some d.now, checkStep := 0 }
    if pwrState d = 4 then setBoot d2 fun b => { b with due := true, cause := 6 } else d2

/-- The check ends without a request for P0: what it turned on returns to its condition. -/
def checkEnd (d : Dev) : Dev :=
  let d0 := if pwrState d = 4 then abortDomains d else abortDomain d 14
  let d1 := setPwr (wb d0 .pwr 0x88 21 false) fun x => { x with check := [], checkAt := none, pwrEn := pwrState d != 4 }
  let d2 := (List.range 24).foldl (fun d k => setCan d k { can d k with edgeChk := false }) d1
  let d3 := (List.range 8).foldl (fun d l => setLin d l { lin d l with edgeChk := false }) d2
  if pwrState d = 4 then
    setBoot (domainsTo (dropDomains d3 (fun pg => pg.domain ≤ 1 || pg == .time 0)) 4) fun b => { b with due := false, image := none, confirm := none }
  else
    let d4 := (List.finRange 24).foldl (fun d k => canClear d k.val) d3
    let d5 := (List.finRange 8).foldl (fun d l => linClear d l.val) d4
    setDomCond (statusReset (ferryClear d5 true) fun pg => pg.domain == 14) 14 3

/-! ### After every command (R306, R309, R310, R311) -/

/-- Since when the quays have been idle. -/
def idleUpdate (d : Dev) : Dev :=
  let upd (l : List (Nat × Instant)) (f : Nat → Bool) : List (Nat × Instant) :=
    (List.range 4).foldl (fun l n => if !f n then kvDel l n else if (kvGet l n).isSome then l else kvPut l n d.now) l
  setPwr d fun x => { x with idle1 := upd x.idle1 (p1Idle d), idle2 := upd x.idle2 (p2Idle d) }

/-- Gated quays whose trigger of R306 has come begin to be restored. -/
def restoreUpdate (d : Dev) (t : Nat) : Dev :=
  (List.range 4).foldl (fun d n =>
    let c := domCond d (5 + n)
    if (c = 2 ∧ (t = 0 ∨ !p1Idle d n)) ∨ (c = 3 ∧ (t < 2 ∨ !p2Idle d n)) then quayRestoreOp d n else d) d

/-- The target is recomputed, and what follows from it (R309 to R311). -/
def pwrSettle (d : Dev) : Dev :=
  if d.fcn.safe then d
  else
    let t := pwrTarget d
    let st := pwrState d
    let blk := (nmBlocks d).toNat + (debugBlocks d).toNat * 2 + (!pcieQuiet d).toNat * 4 + (decide (rf d .pwr 0x80 0 3 < 3)).toNat * 8
    let d1 := wf (wf d .pwr 0x88 3 3 t) .pwr 0x88 16 4 blk
    let since (old : Option Instant) (b : Bool) : Option Instant := if b then some (old.getD d.now) else none
    let d2 := setPwr d1 fun x => { x with deepAt := since x.deepAt (deepOk d 3), deepAt4 := since x.deepAt4 (deepOk d 4) }
    if st < 3 then
      match d2.pwr.entry with
      | some (e, s) => if t = e then d2 else if !ponrPast d e s then entryAbort d2 else d2
      | none =>
        let d3 := wf (idleUpdate d2) .pwr 0x88 0 3 (min t 2)
        restoreUpdate (if st = min t 2 then d3 else irq d3 .pwr 0) t
    else if d2.pwr.exit.isNone ∧ t ≠ st then exitRequest d2 false 0
    else d2

end Sys2Proof.Machine
end

