-- ==== Sys2Proof/Machine/Buoy.lean ====
section
/-! DEFINITION. The Buoy (chapter 10): wake events and what they wake (R275 to R287), NM clusters (R288, R289), sleep sequences and the
wake race (R290 to R296), the transceiver keeper (R297 to R299), and the check of a commit (R300). -/

namespace Sys2Proof.Machine

/-- The Buoy changed; a cluster changed; a source's counts. -/
def setBuoy (d : Dev) (f : BuoySt → BuoySt) : Dev := { d with buoy := f d.buoy }
def setClus (d : Dev) (n : Nat) (f : Cluster → Cluster) : Dev := setBuoy d fun b => { b with cl := kvPut b.cl n (f (clus d n)) }
def wakeSrc (d : Dev) (s : Nat) : WakeSrc := kvD d.buoy.src s {}
def setSrc (d : Dev) (s : Nat) (f : WakeSrc → WakeSrc) : Dev := setBuoy d fun b => { b with src := kvPut b.src s (f (wakeSrc d s)) }

/-- The action entry of a source (Table 10.9), active copy. -/
def actEntry (d : Dev) (s : Nat) : W64 := ac d (.buoy 2) (0x80 + s * 8)

/-- A cluster is a CAN cluster, on this channel; its LIN channels; its member ports. -/
def clCan (d : Dev) (n : Nat) : Option Nat := if bit (clWord d n 0) 1 then none else some (fld (clWord d n 0) 2 5)
def clLins (d : Dev) (n : Nat) : List Nat := (List.range 8).filter fun l => bit (clWord d n 0) (8 + l)
def clPorts (d : Dev) (n : Nat) : List Nat :=
  if bit (clWord d n 0) 1 then (List.range 26).filter fun p => bit (clWord d n 1) p else []

/-- LOCAL_NEED of a cluster. -/
def localNeed (d : Dev) (n : Nat) : Bool := rb d (.buoy 0) 0x400 n

/-- A timer of `ms` milliseconds of CLK_BUOY that began at `from0` may have run out (R289: within ±1 % ±1 ms). -/
def timerOut (d : Dev) (from0 : Instant) (ms : Nat) : Bool := decide (from0 + ms * 1584000 ≤ d.now + msTicks)

/-- A cluster enters a state (R289). -/
def clTo (d : Dev) (n st : Nat) : Dev := irq (setClus d n fun c => { c with state := st, entered := d.now }) (.buoy 0) 2

/-! ### Pins and ports of a cluster -/

/-- The level that a sequence of the Buoy commands on the pins of a cluster; none: the registers command it (R222). -/
def clPins (d : Dev) (n : Nat) (lv : Option Bool) : Dev :=
  let d1 := match clCan d n with | some k => setCan d k { can d k with seqLevel := lv } | none => d
  (clLins d n).foldl (fun d l => setLin d l { lin d l with seqLevel := lv }) d1

/-- The controller of a CAN cluster is in restricted operation for a sleep sequence, or no longer. -/
def clRestrict (d : Dev) (n : Nat) (on : Bool) : Dev :=
  match clCan d n with | some k => canQuiet (setCan d k { can d k with sleepSeq := on }) k (can d k) | none => d

/-- A sleeping M or G port is sent WUR once its domain is on (R296). -/
def portWake (d : Dev) (p : Nat) : Dev :=
  if domUp d (phyPage p).domain then phyStart (emit (tc10Put d p 0) (.tc10 p 1)) p
  else setBuoy d fun b => { b with portDue := if b.portDue.contains p then b.portDue else b.portDue ++ [p] }

/-- A LIN controller can send: PD_EDGE is on and, where it is enabled, it runs. -/
def linReady (d : Dev) (l : Nat) : Bool := domUp d 14 && (running d (linPg l) || !enabled d (linPg l))

/-- A LIN master of a cluster sends WAKE once PD_EDGE is on (R296). -/
def linDueWake (d : Dev) (l : Nat) : Dev :=
  if linReady d l then linWakeOp d l
  else setBuoy d fun b => { b with linDue := if b.linDue.contains l then b.linDue else b.linDue ++ [l] }

/-- The ports of a cluster that sleep are woken; its S ports leave standby. -/
def clPortsWake (d : Dev) (n : Nat) : Dev :=
  (clPorts d n).foldl (fun d p =>
    if portType p = .s then setPort d p { portSt d p with standby := false }
    else if rf d (phyPage p) 0xc8 0 3 = 3 then portWake d p else d) d

/-- A cluster is brought back after its point of no return (R296). -/
def clWake (d : Dev) (n : Nat) : Dev :=
  let d1 := clRestrict (clPins d n (some true)) n false
  let d2 := clPortsWake ((clLins d n).foldl linDueWake d1) n
  if pwrState d < 3 ∨ exitReady d then d2
  else
    let d3 := match clCan d n with | some k => setCan d2 k { can d2 k with edgeChk := true } | none => d2
    (clLins d n).foldl (fun d l => setLin d l { lin d l with edgeChk := true }) d3

/-- A sleep is cancelled before its point of no return (R293): what has moved already is returned. -/
def clCancel (d : Dev) (n : Nat) : Dev :=
  let d1 := clRestrict (clPins d n none) n false
  let d2 := (clLins d n).foldl (fun d l =>
    if rb d (linPg l) 0xa8 0 then linDueWake d l else setLin d l { lin d l with gosleep := false }) d1
  setClus (clPortsWake d2 n) n fun c => { c with ponr := none, waits := [] }

/-- Whether a port belongs to no cluster that is neither in SLEEP_PENDING nor ASLEEP. -/
def portFree (d : Dev) (p : Nat) : Bool :=
  (List.range 32).all fun n => !(clValid d n && (clPorts d n).contains p) || (clus d n).state == 3 || (clus d n).state == 4

/-- The point of no return of a sleep (R290, R291). -/
def clPonr (d : Dev) (n : Nat) : Dev :=
  let d1 := clPins d n (some false)
  let d2 := match clCan d n with
    | some k => setCan (cnt d1 (canPg k) 0x230 (can d1 k).tx.length) k { can d1 k with tx := [] }
    | none => d1
  let d3 := (clPorts d n).foldl (fun d p =>
    if portType p = .s ∧ linkIsUp d p ∧ portFree d p then setPort d p { portSt d p with standby := true } else d) d2
  setClus d3 n fun c => { c with ponr := some d.now, waits := [] }

/-- A cluster enters SLEEP_PENDING (Table 10.4 step 1; R291). -/
def clSleep (d : Dev) (n : Nat) : Dev :=
  let d1 := setClus (clTo d n 3) n fun c => { c with ponr := none, latch := none, owed := false, waits := [] }
  match clCan d n with
  | some _ => (clLins d n).foldl (fun d l => if domUp d 14 then linGotoSleepOp d l else d) (clRestrict d1 n true)
  | none =>
    let ps := (clPorts d n).filter fun p => tc10Port p && linkIsUp d1 p && portFree d1 p
    let d2 := setClus (ps.foldl tc10ReqOp d1) n fun c => { c with waits := ps }
    if ps = [] then clPonr d2 n else d2

/-- A cluster reaches AWAKE: a source that woke it has its consecutive count reset; suppressions end (R287). -/
def clAwake (d : Dev) (n : Nat) : Dev :=
  let w := (clus d n).woken
  let d1 := setClus (clPins (clRestrict (clTo d n 1) n false) n none) n fun c => { c with woken := none, latch := none, owed := false }
  let d2 := match w with | some s => setSrc d1 s fun x => { x with consec := 0 } | none => d1
  let src := d2.buoy.src.map fun e =>
    (e.1, if e.2.suppr ∧ w ≠ some e.1 ∧ bit (actEntry d e.1) (32 + n) then { e.2 with suppr := false, consec := 0 } else e.2)
  setBuoy d2 fun b => { b with src := src }

/-! ### Wake events (R283 to R287) -/

/-- An event of source s acts on a cluster of its mask (R285). -/
def clEvent (d : Dev) (n s : Nat) : Dev :=
  let c := clus d n
  if !clValid d n then d
  else if c.state = 4 then setClus (clTo (clWake d n) n 5) n fun c => { c with woken := some s }
  else if c.state = 2 then setClus (clTo d n 5) n fun c => { c with woken := some s }
  else if c.state = 3 then
    if c.ponr.isNone then setClus (clTo (clCancel d n) n 5) n fun c => { c with woken := some s }
    else cnt (if c.latch.isNone then setClus d n fun c => { c with latch := some s } else d) (.buoy 0) 0x480 1
  else d

/-- The clusters of a source's NM_FWD. -/
def fwdOf (d : Dev) (s : Nat) : List Nat := (List.range 32).filter fun n => bit (actEntry d s) (32 + n)

/-- The action of a source: a suppressed one counts only. -/
def actionOf (d : Dev) (s : Nat) : Nat := if (wakeSrc d s).suppr then 0 else fld (actEntry d s) 0 2

/-- The cluster in whose window an event that can act on none at once waits as the first (R295). -/
def waitsIn (d : Dev) (s : Nat) : Option Nat :=
  let l := (fwdOf d s).filter (clValid d)
  let now (n : Nat) : Bool := let c := clus d n; c.state == 4 || c.state == 2 || (c.state == 3 && c.ponr.isNone)
  if l.any now then none else l.find? fun n => (clus d n).state == 3 && (clus d n).ponr.isSome && (clus d n).latch.isNone

/-- An event acted upon counts in WAKES of its source. -/
def wakeCount (d : Dev) (s : Nat) : Dev := setSrc d s fun x => { x with wakes := min ctrMax (x.wakes + 1) }

/-- Counts, BUOY_LAST_WAKE and IRQ_RAW.WAKE of an event (R283). One that waits in a window counts in WAKES when it acts (Table 10.5). -/
def noteEvent (d : Dev) (s : Nat) : Dev :=
  let a := actionOf d s
  let acts := a == 1 || a == 2
  let d1 := if acts then (match waitsIn d s with
      | some n => setClus d n fun c => { c with owed := true }
      | none => wakeCount d s)
    else setSrc d s fun x => { x with ignored := min ctrMax (x.ignored + 1) }
  let d2 := if (wakeSrc d s).suppr then cnt d1 (.buoy 0) 0x498 1 else d1
  let latched := acts && (fwdOf d s).any fun n => clValid d n && (clus d n).state == 3 && (clus d n).ponr.isSome
  let ms := match d.pwr.sleepAt with | some t => (d.now - t) / msTicks % 2 ^ 32 | none => 0
  let d3 := wr d2 (.buoy 0) 0x2c0 (mkWord [(0, s), (7, a), (9, latched.toNat), (32, ms)])
  if acts then irq d3 (.buoy 0) 0 else d3

/-- Events decided in one cycle, sources ascending (R284): the power request first, then the clusters. In the safe state they are
counted and not acted upon (R426). -/
def wakeEvents (d : Dev) (srcs : List Nat) : Dev :=
  let acts := srcs.filter fun s => actionOf d s == 1 || actionOf d s == 2
  let d1 := srcs.foldl noteEvent d
  if d.fcn.safe then d1
  else
    let d2 := match srcs.find? (fun s => actionOf d s == 2) with
      | some s => exitRequest d1 false (fld (actEntry d s) 2 3)
      | none =>
        match acts with
        | [] => d1
        | s :: _ =>
          if d.pwr.entry.isSome then exitRequest d1 false (fld (actEntry d s) 2 3)
          else if 3 ≤ pwrState d ∧ d.pwr.exit.isNone then
            checkStart d1 ((List.range 32).filter fun n => clValid d n && (clus d n).state == 4 && acts.any fun s => (fwdOf d s).contains n)
          else d1
    acts.foldl (fun e s => (fwdOf d s).foldl (fun e n => clEvent e n s) e) d2

/-- A keep-alive of a cluster (R288, R289); during an entry it aborts it (R310). -/
def keepAliveOp (d : Dev) (n : Nat) : Dev :=
  if !clValid d n then d
  else
    let d1 := setClus d n fun c => { c with lastKa := some d.now, timer := d.now }
    let s := (clus d n).state
    let d2 := if s = 2 ∨ s = 5 then clAwake d1 n
      else if s = 3 ∧ (clus d n).ponr.isNone then clAwake (clCancel d1 n) n else d1
    match d2.pwr.entry with
    | some (t, at0) => if !ponrPast d2 t at0 ∧ !d2.fcn.safe then entryAbort d2 else d2
    | none => d2

/-- A keep-alive indication crosses to the Buoy (R288; Table 1.5: 1 cycle of CLK_SYS and 3 cycles of CLK_BUOY, at +1 % 186.9 ns). -/
def keepAliveIn (d : Dev) (n : Nat) : Dev :=
  match kvGet d.buoy.kaDue n with
  | some t => if d.now < t + 299 then d else keepAliveOp (setBuoy d fun b => { b with kaDue := kvDel b.kaDue n }) n
  | none => d

/-! ### Inputs (R276 to R282) -/

/-- A dominant phase on a CAN channel in WUP mode (R276). -/
def canWupOp (d : Dev) (k us : Nat) : Dev :=
  let c := ac d (.buoy 0) (0x100 + k * 8)
  if bit c 20 ∧ !bit c 2 ∧ fld c 12 8 ≤ us then wakeEvents d [k] else d

/-- Filter f matches a valid frame on channel k (R278). -/
def filterHit (d : Dev) (f k : Nat) (x : CanFrame) : Bool :=
  let w0 := ac d (.buoy 1) (0x80 + f * 0x18)
  let mask := ac d (.buoy 1) (0x88 + f * 0x18)
  let w2 := ac d (.buoy 1) (0x90 + f * 0x18)
  let data := bytesWord x.data
  bit w0 63 && !(bit w2 24 && decide (8 < fld w0 59 4)) && bit w2 k && !x.rtr && x.ide == bit w0 58
    && (x.id &&& fld w0 29 29) == (fld w0 0 29 &&& fld w0 29 29)
    && (!bit w2 24 || x.dlc == fld w0 59 4) && (mask == 0 || (data &&& mask) != 0)

/-- What the decoder makes of one frame on a channel (R277 to R279): keep-alives where its controller does not run (R288), then filters. -/
def frameDecodedOp (d : Dev) (k : Nat) (r : Decoded) : Dev :=
  let c := ac d (.buoy 0) (0x100 + k * 8)
  let on := bit c 20 && (bit c 2 || rb d (canPg k) 0xb0 8)
  let fec := kvD d.buoy.fec k 0
  let put (d : Dev) (x : Nat) : Dev := setBuoy d fun b => { b with fec := kvPut b.fec k x }
  if !on then d
  else match r with
  | .error =>
    if !bit c 3 then d
    else if fld c 4 8 < fec + 1 then wakeEvents (put d 0) [k] else put d (fec + 1)
  | .valid x =>
    if x.fdf || x.xlf then d
    else
      let d1 := if bit c 3 then put d (fec - 1) else d
      let d2 := if running d (canPg k) then d1 else (kaOfCan d k x).foldl keepAliveOp d1
      wakeEvents d2 (((List.range 64).filter fun f => filterHit d f k x).map (64 + ·))

/-- The recessive edge that ends a dominant phase on a LIN channel (R280). -/
def linPulseOp (d : Dev) (l us : Nat) : Dev :=
  let c := ac d (.buoy 0) (0x1c0 + l * 8)
  if !bit c 16 then d
  else if 20000 < us then setSrc d (24 + l) fun x => { x with ignored := min ctrMax (x.ignored + 1) }
  else if fld c 0 13 ≤ us then wakeEvents d [24 + l] else d

/-- A PHY wake detector (R281). -/
def phyWakeOp (d : Dev) (p : Nat) : Dev :=
  let ph := phyPage p
  let asleep := !domUp d ph.domain || !running d ph || (if portType p = .s then (portSt d p).standby || rb d (.buoy 0) 0x288 2 else rf d ph 0xc8 0 3 == 3)
  if 4 ≤ p ∧ p < 26 ∧ ab d (.buoy 0) 0x240 (p - 4) ∧ asleep then wakeEvents d [28 + p] else d

/-- A WAKE pin has held its active condition, or the opposite one, for DEBOUNCE_US (R282). -/
def wakePinOp (d : Dev) (n : Nat) (active : Bool) : Dev :=
  if !ab d (.buoy 0) (0x200 + n * 8) 0 then d
  else if !active then setBuoy d fun b => { b with pins := b.pins.filter (· != n) }
  else if d.buoy.pins.contains n then d
  else wakeEvents (setBuoy d fun b => { b with pins := b.pins ++ [n] }) [54 + n]

/-! ### Clusters (R288 to R296) -/

/-- NM_TIMEOUT_MS without a keep-alive (R289). -/
def nmTimeoutOp (d : Dev) (n : Nat) : Dev :=
  let c := clus d n
  if clValid d n ∧ c.state = 1 ∧ !localNeed d n ∧ timerOut d c.timer (fld (clWord d n 2) 0 16) then clTo d n 2 else d

/-- READY_SLEEP_MS has passed (R289). -/
def readySleepOp (d : Dev) (n : Nat) : Dev :=
  let c := clus d n
  if clValid d n ∧ c.state = 2 ∧ timerOut d c.entered (fld (clWord d n 2) 16 16) then clSleep d n else d

/-- FALSE_WAKE_MS has passed (R287, R289): the source that woke the cluster counts a false wake. -/
def falseWakeOp (d : Dev) (n : Nat) : Dev :=
  let c := clus d n
  if !clValid d n ∨ c.state ≠ 5 ∨ !timerOut d c.entered (fld (clWord d n 2) 32 16) then d
  else
    let d1 := irq (setClus d n fun c => { c with woken := none }) (.buoy 0) 1
    let lim := af d (.buoy 0) 0x80 0 8
    let d2 := match c.woken with
      | none => d1
      | some s =>
        let x := wakeSrc d s
        let sup := lim != 0 && decide (lim ≤ x.consec + 1)
        let e := setSrc d1 s fun x => { x with wrong := min ctrMax (x.wrong + 1), consec := x.consec + 1, suppr := x.suppr || sup }
        if sup && !x.suppr then irq e (.buoy 0) 5 else e
    clSleep d2 n

/-- Since when the conditions of step 2 hold as far as the device shows it: SLEEP_PENDING, and every LIN master asleep. -/
def sleepFrom (d : Dev) (n : Nat) : Instant :=
  ((clLins d n).filter fun l => domUp d 14 && linMaster d l).foldl (fun t l => max t (lin d l).sleptAt) (clus d n).entered

/-- Steps 2 and 3 of Table 10.4: no transmission, every LIN master asleep, and 5 cycles of CLK_BUOY (at +1 %) since. -/
def sleepMetOp (d : Dev) (n : Nat) : Dev :=
  let c := clus d n
  let lins := (clLins d n).all fun l => !domUp d 14 || !linMaster d l || rb d (linPg l) 0xa8 0
  if clValid d n ∧ c.state = 3 ∧ c.ponr.isNone ∧ (clCan d n).isSome ∧ lins ∧ sleepFrom d n + 495 ≤ d.now then clPonr d n else d

/-- XCVR_SETTLE_US has passed since the point of no return (R294, R295): ASLEEP, or the latched event acts. -/
def windowEndOp (d : Dev) (n : Nat) : Dev :=
  let c := clus d n
  match c.ponr with
  | none => d
  | some t =>
    if c.state ≠ 3 ∨ d.now < t + af d (.buoy 0) 0x80 8 8 * usTicks then d
    else
      let d1 := setClus (clTo d n 4) n fun c => { c with ponr := none, latch := none, owed := false }
      let d2 := match clCan d n with | some k => setBuoy d1 fun b => { b with fec := kvDel b.fec k } | none => d1
      match c.latch with
      | some s =>
        let d2 := if c.owed then wakeCount d2 s else d2
        let d3 := if 3 ≤ pwrState d ∧ d.pwr.exit.isNone then
            (if fld (actEntry d s) 0 2 = 2 then exitRequest d2 false (fld (actEntry d s) 2 3) else checkStart d2 [n]) else d2
        clEvent d3 n s
      | none => d2

/-- What the levels of the Buoy's inputs bring about after every command: TC10 handshakes (R291, R292), LOCAL_NEED (R289), what
waited for a domain (R296), the end of an edge check (R314). -/
def buoyCluster (d : Dev) (n : Nat) : Dev :=
  let c := clus d n
  if !clValid d n then d
  else if c.state = 3 ∧ c.ponr.isNone ∧ localNeed d n then clAwake (clCancel d n) n
  else if c.state = 3 ∧ c.ponr.isNone ∧ c.waits ≠ [] then
    let st (p : Nat) : Nat := rf d (phyPage p) 0xc8 0 3
    if c.waits.any fun p => st p == 4 || st p == 5 then irq (cnt (setClus (clAwake (clCancel d n) n) n fun c => { c with timer := d.now }) (.buoy 0) 0x488 1) (.buoy 0) 4
    else if c.waits.all fun p => st p == 3 then clPonr d n else d
  else if localNeed d n ∧ (c.state = 2 ∨ c.state = 5) then clAwake d n
  else if localNeed d n ∧ c.state = 4 then clAwake (clTo (clWake d n) n 5) n
  else d

/-- The clusters of a check (R314): one that is AWAKE requests P0; when all sleep again the check ends. -/
def checkSettle (d : Dev) (before : List (Nat × Cluster)) : Dev :=
  if !edgeCheck d ∨ d.pwr.exit.isSome ∨ d.fcn.safe then d
  else match d.pwr.check.find? (fun n => (clus d n).state == 1) with
  | some n =>
    let w := match (kvD before n {}).woken with | some s => fld (actEntry d s) 2 3 | none => 0
    exitRequest d false w
  | none => if d.pwr.check.all (fun n => (clus d n).state == 4 || (clus d n).state == 0) then checkEnd d else d

/-- The Buoy after every command. `before`: its clusters before the command. -/
def buoySettle (before : List (Nat × Cluster)) (d : Dev) : Dev :=
  let d1 := (List.range 32).foldl buoyCluster d
  let d2 := (d1.buoy.linDue.filter (linReady d1)).foldl linWakeOp (setBuoy d1 fun b => { b with linDue := b.linDue.filter fun l => !linReady d1 l })
  let d3 := d2.buoy.portDue.foldl portWake (setBuoy d2 fun b => { b with portDue := [] })
  checkSettle d3 before

/-! ### The keeper (R297 to R299) -/

/-- The master code that may kick and release. -/
def keeperMaster (d : Dev) : Nat := rf d (.buoy 0) 0x280 4 3

/-- KICK (R297). -/
def keeperKickOp (d : Dev) (m : Master) : Dev :=
  if masterCode m = keeperMaster d then setBuoy d fun b => { b with kicked := true }
  else accessErr d (masterCode m) 3 true 3 ((Page.buoy 0).base + 0x280)

/-- RELEASE (R298): only after a KICK in the current period. -/
def keeperReleaseOp (d : Dev) (m : Master) : Dev :=
  if masterCode m ≠ keeperMaster d then accessErr d (masterCode m) 3 true 3 ((Page.buoy 0).base + 0x280)
  else if d.buoy.kicked then wb d (.buoy 0) 0x288 2 false else d

/-- A keeper period of 100 ms of CLK_BUOY ends (R297): the third missed one in a row trips. -/
def keeperPeriodOp (d : Dev) : Dev :=
  if !rb d (.buoy 0) 0x280 0 ∨ rb d (.buoy 0) 0x288 3 ∨ d.now < d.buoy.keepAt + 99 * msTicks then d
  else if d.buoy.kicked then wf (setBuoy d fun b => { b with kicked := false, keepAt := d.now }) (.buoy 0) 0x288 0 2 0
  else
    let d := setBuoy d fun b => { b with keepAt := d.now }
    let m := rf d (.buoy 0) 0x288 0 2
    let d1 := wf d (.buoy 0) 0x288 0 2 (min 3 (m + 1))
    if m ≠ 2 then d1
    else
      let d2 := raise (wb (wb d1 (.buoy 0) 0x288 2 true) (.buoy 0) 0x288 4 true) (.buoy 0) 0
      let d3 := irq (cnt d2 (.buoy 0) 0x490 1) (.buoy 0) 3
      manPush d3 13 1 (wordBytes (rd d3 (.buoy 0) 0x490) ++ leBytes 1 (keeperMaster d))

/-! ### Commits and reads (R300, Table 10.6) -/

/-- The shadow copies of the BUOY pages hold valid values (R300). -/
def buoyShadowValid (d : Dev) : Bool :=
  let r (i : Fin 4) (o : Nat) : W64 := rd d (.buoy i) o
  let cl (n w : Nat) : W64 := r 3 (0x80 + n * 0x20 + w * 8)
  let used (n : Nat) : Bool := bit (cl n 0) 0
  let acts := (List.range 128).all fun s => fld (r 2 (0x80 + s * 8)) 0 2 != 3
  let filters := (List.range 64).all fun f =>
    let w := r 1 (0x80 + f * 0x18)
    !bit w 63 || ((bit w 58 || decide (fld w 0 29 ≤ 0x7ff)) && (!bit (r 1 (0x90 + f * 0x18)) 24 || decide (fld w 59 4 ≤ 8)))
  let clusters := (List.range 32).all fun n =>
    let w := cl n 0
    let eth := bit w 1
    let vid := fld w 16 12
    !used n || ((if eth then vid != 0 && decide (vid ≤ 4094) && fld (cl n 1) 0 26 != 0
        else decide (fld w 2 5 ≤ 23) && (List.range n).all fun j => !used j || bit (cl j 0) 1 || fld (cl j 0) 2 5 != fld w 2 5)
      && (List.range n).all fun j => !used j || (fld (cl j 0) 8 8 &&& fld w 8 8) == 0)
  let timers := (List.range 32).all fun n => (List.range 3).all fun i => fld (cl n 2) (16 * i) 16 != 0
  let x := fld (r 0 0x80) 8 8
  let lins := (List.range 8).all fun l => let w := fld (r 0 (0x1c0 + l * 8)) 0 13; decide (30 ≤ w ∧ w ≤ 5000)
  let pins := (List.range 8).all fun m => fld (r 0 (0x200 + m * 8)) 8 16 != 0
  let wups := (List.range 24).all fun k => fld (r 0 (0x100 + k * 8)) 12 8 != 0
  acts && filters && clusters && timers && decide (1 ≤ x ∧ x ≤ 50) && lins && pins && wups

/-- After a switch of the BUOY pages (R287, R289): clusters made valid are AWAKE, those made invalid OFF; suppressions end. -/
def buoySwitch (d : Dev) : Dev :=
  let d1 := (List.range 32).foldl (fun d n =>
    let s := (clus d n).state
    if clValid d n ∧ s = 0 then setClus (clTo d n 1) n fun c => { c with timer := d.now }
    else if !clValid d n ∧ s ≠ 0 then setClus (clTo (clRestrict (clPins d n none) n false) n 0) n fun _ => {}
    else d) d
  setBuoy d1 fun b => { b with src := b.src.map fun e => (e.1, { e.2 with suppr := false, consec := 0 }) }

/-- BUOY_NM_STAT_n (Table 10.6); the age of a keep-alive that never came is a free value. -/
def nmStat (d : Dev) (n : Nat) : W64 :=
  let c := clus d n
  let sup := d.buoy.src.any fun e => e.2.suppr && bit (actEntry d e.1) (32 + n)
  let ms := match c.lastKa with | some t => min (2 ^ 32 - 1) ((d.now - t) / msTicks) | none => Config.freeValue d.frees % 2 ^ 32
  mkWord [(0, c.state), (3, c.latch.isSome.toNat), (4, sup.toNat), (32, ms)]

/-- A counter of the selected source (R138): 0 WAKES, 1 IGNORED, 2 FALSE. -/
def srcCounter (d : Dev) (i : Nat) : Nat :=
  let x := wakeSrc d (rf d (.buoy 0) 0x2d0 0 7)
  if i = 0 then x.wakes else if i = 1 then x.ignored else x.wrong

/-- The shown value of a counter taken off a source. -/
def srcLess (x shown : WakeSrc) (i : Nat) : WakeSrc :=
  if i = 0 then { x with wakes := x.wakes - shown.wakes } else if i = 1 then { x with ignored := x.ignored - shown.ignored }
  else { x with wrong := x.wrong - shown.wrong }

/-- A write of 0 clears a counter of the selected source (R11); of a frozen page what is shown is cleared, and what was counted since stays
(R47). -/
def srcClear (d : Dev) (i : Nat) (v : W64) : Dev :=
  let s := rf d (.buoy 0) 0x2d0 0 7
  if v ≠ 0 then d
  else match kvGet d.frzSel (Page.buoy 0).base with
  | none => setSrc d s fun x => srcLess x x i
  | some z =>
    let sn : WakeSrc := kvD z.srcs s {}
    setSrc { d with frzSel := kvPut d.frzSel (Page.buoy 0).base { z with srcs := kvPut z.srcs s (srcLess sn sn i) } } s fun x => srcLess x sn i

end Sys2Proof.Machine
end

