-- ==== Sys2Proof/Machine/Boot.lean ====
section
/-! DEFINITION. Resets of the chip (R200, R316, R425, R499), loss of supplies (R497), life-cycle transitions (R349, R350), the boot
procedure (R479, R482), Chrysalis (R490), and the resets that the update and the life cycle ask for (R480, R489). -/

namespace Sys2Proof.Machine

/-- A chip reset: every page returns to its reset values (R58). Kept: local time (R200), what PD_VBAT, the fuses and the MRAM hold, FCN_LAST,
FCN_CHIP_RESETS, the history of R420 and the FAULT_N state (Table 15.5 step 6), straps and warm-relink records (log 52). -/
def chipReset (d0 : Dev) (cause : Nat) : Dev :=
  let d := updDrop (if d0.time.stopped then timeRestore d0 else d0)
  let (n, d) := draw d 8
  let lc := setBit (setBit (rd d .carapace 0x80) 5 false) 6 true
  let idle : List (Nat × Instant) := [(0, d.now), (1, d.now), (2, d.now), (3, d.now)]
  let fcn : Fcn := { minUntil := d.fcn.minUntil, chipHist := d.fcn.chipHist, lastTest := d.fcn.lastTest, cycle := d.fcn.cycle }
  let car : Carapace := { d.car with slots := [], cmd := none, lcNonce := none, trngStop := false }
  let pair : PairSt := { strapEn := d.pair.strapEn, unit := d.pair.unit, epoch := leNat (n.drop 4), bootAt := d.now }
  let boot : BootSt := { d.boot with image := none, hdr := [], confirm := none, session := none, actAt := none, due := true, cause := cause }
  let ports := d.ports.map fun (e : Nat × PortSt) => (e.1, ({ record := e.2.record, recFlash := e.2.recFlash } : PortSt))
  let kept : Dev := { now := d.now, frees := d.frees, out := d.out, memOut := d.memOut, evq := d.evq, nextFid := d.nextFid }
  let closed := (diagCloseAll { d with manQ := [] }).manQ
  let kept := { kept with diagSer := d.diagSer, manQ := closed, retired1 := d.retired1, scrub := d.scrub, ports := ports, man := { (manLose d).man with restart := d.man.restart && d.boot.due } }
  let host : HostSt := { inbEpoch := leNat (n.take 4) }
  let e : Dev := { kept with fcn := fcn, time := { loc := d.time.loc }, car := car, pair := pair, boot := boot, host := host, pwr := { idle1 := idle, idle2 := idle } }
  let e1 := wr (wr (wr e .carapace 0x80 lc) .carapace 0xa0 (rd d .carapace 0xa0)) .carapace 0xa8 (rd d .carapace 0xa8)
  let e2 := wr (wr (wr e1 (.fcn 0) 0x98 (rd d (.fcn 0) 0x98)) (.fcn 0) 0xa0 (rd d (.fcn 0) 0xa0)) (.fcn 0) 0x148 (rd d (.fcn 0) 0x148)
  let e3 := wf (wb e2 (.scarab 0) 0x80 9 d.boot.trio) .upd 0x80 10 2 d.boot.sel
  if fld lc 0 3 = 0 then e3 else wr e3 .dbg 0x80 (4 <<< 5)

/-- A chip reset in P3 or P4 first leaves that state: when the exit sequence of Table 11.7 or 11.8 ends that began with it, or before (R431). -/
def leftAt (d : Dev) (t : Instant) : Instant :=
  if pwrState d < 3 then t
  else (if d.pwr.exit.isSome then d.pwr.exitFrom else t) + (exitTimes (pwrState d)).getLastD 0 * usTicks

/-- The chip reset of Table 15.5 is asserted: the seal is signed, or 5 ms have passed, or PD_SEC is not intact; not before P3 or P4 is
left. -/
def chipResetAssertOp (d : Dev) : Dev :=
  match d.fcn.chipRst with
  | none => d
  | some t =>
    if d.now < leftAt d t ∨ secIntact d ∧ d.now < t + 5 * msTicks ∧ (d.man.signing.isSome ∨ d.man.staging ≠ []) then d else chipReset d 2

/-- RESET_N (Table 19.4): ignored in the safe state, merged with a chip reset that runs. The manual gives this boot no cause byte (R483):
a free value. -/
def resetNOp (d : Dev) : Dev :=
  if halted d then d
  else
    let (k, d1) := freeNat d
    chipReset d1 (k % 256)

/-- PORST_N or power-up (Table 19.4): a cold reset; the straps are sampled (R470). An invalid PD_VBAT is a tamper, and the Manifest chain
restarts (R356, R380). In the safe state only a loss of VDD_AON_IN has effect. -/
def powerOnResetOp (d : Dev) (s : Straps) : Dev :=
  if d.fcn.safe then d
  else
    let sel := if s.bootSel.val = 3 then 0 else s.bootSel.val
    let d0 := setBoot { d with time := { d.time with stopped := false } } fun b => { b with sel := sel, trio := s.scarabTrio, outer := true }
    let e := chipReset { d0 with pair := { d0.pair with strapEn := s.pairEn, unit := s.pairUnit } } 1
    let e1 := wr (wr (wr { e with time := {}, fcn := {} } (.fcn 0) 0x98 0) (.fcn 0) 0xa0 0) (.fcn 0) 0x148 0
    let e2 : Dev := { e1 with ports := e1.ports.map fun (x : Nat × PortSt) => (x.1, ({ record := x.2.recFlash, recFlash := x.2.recFlash } : PortSt)) }
    if d.car.vbatOk then e2
    else
      let e3 := manRecover { e2 with car := { e2.car with vbatOk := true } }
      tamperOp e3 15 5

/-- PCIE_PERST_N (Table 19.4): the PCIe endpoint and the HOST pages. -/
def perstOp (d : Dev) : Dev :=
  if d.fcn.safe then d
  else
    let keep (e : Nat × W64) : Bool := match pageOf e.1 with | some (.host i) => e.1 == (Page.host i).base + 0x60 | _ => true
    let d1 := hostClear { d with regs := d.regs.filter keep } false
    { d1 with host := { d1.host with qs := d1.host.qs.filter fun e => decide (16 ≤ e.1), msixT := [], pba := [], held := [] } }

/-- 10 ms after PWR_EN rose not all supplies are in regulation (Table 19.3): PWR_EN falls for 100 ms, for another attempt. -/
def powerUpTimeoutOp (d : Dev) : Dev :=
  if d.boot.outer ∨ d.now < d.pwr.enFrom + 10 * msTicks then d
  else setPwr d fun x => { x with pwrEn := false, enFrom := d.now + 100 * msTicks, enAt := some (d.now + 100 * msTicks) }

/-- Supplies are lost (R497): the switched ones, or VDD_AON_IN with everything but PD_VBAT; or VBAT with it (R356). -/
def supplyLossOp (d : Dev) (aon vbatOk : Bool) : Dev :=
  let d1 := dropDomains (ltDomainLost (if aon then d else abortDomains d) (List.range 15)) (fun pg => !aon && pg.domain ≤ 1)
  let d2 := domainsTo d1 4
  let d3 := setBoot d2 fun b => { b with image := none, confirm := none, session := none, due := true, outer := false }
  let d4 := if aon then
      setDomCond { d3 with fcn := {}, buoy := {}, dbg := {}, pwr := { pwrEn := false, enFrom := d.now }, time := {} } 1 0
    else setPwr (wb (wb d3 .pwr 0x88 6 false) .pwr 0x88 21 false) fun x => { x with entry := none, exit := none, latched := none, check := [], checkAt := none, enFrom := d.now }
  let keepLc := rd d .carapace 0x80 &&& ~~~(maskOf 5 1)
  let d5 := wr (wr (wr d4 .carapace 0x80 keepLc) .carapace 0xa0 (rd d .carapace 0xa0)) .carapace 0xa8 (rd d .carapace 0xa8)
  if vbatOk then d5
  else
    let d6 := wf (dropRoot d5) .carapace 0x80 32 32 0
    wr { d6 with car := { d6.car with vbatOk := false } } .carapace 0xa8 0

/-- A tamper source is detected (R354, Table 13.7): active in the power state, a session closes (R438), a seal being signed ends. -/
def tamperDetectOp (d : Dev) (b : Nat) : Dev :=
  let known := b ≤ 4 || decide (8 ≤ b ∧ b ≤ 11) || b == 15
  let s := if domCond d 1 = 0 then 5 else pwrState d
  let active := !(b == 1 && decide (4 ≤ s)) && !(b == 2 && s == 5) && !(b == 3 && decide (3 ≤ s))
  if !known ∨ !active ∨ (b ≠ 15 ∧ !rb d .carapace 0xa0 b) then d
  else sessionClose (manTamper (tamperOp d b s)) 5

/-! ### Life-cycle transitions (R349 to R351) -/

/-- The wipes of Table 13.5 and the root action of Table 13.2, at the boot after an accepted transition. -/
def lcApply (d : Dev) : Dev :=
  match d.car.lcNext with
  | none => d
  | some (dst, _) =>
    let src := lcOf d
    let d1 := { d with diagSer := 0, tbl := [], ports := d.ports.map fun (e : Nat × PortSt) => (e.1, { e.2 with record := none, recFlash := none }),
                       car := { d.car with lcNext := none, wrapped := [], rootDue := src == 1 && dst == 2 } }
    let d2 := wf (emptySlots d1) .carapace 0x80 0 3 dst
    let d3 := wr d2 .carapace 0xa0 (if dst = 2 ∨ dst = 3 then (rd d .carapace 0xa0 &&& (maskOf 16 4)) ||| 0x1F else 0)
    let d4 := if src = 1 ∧ dst = 2 then wr (wb d3 .carapace 0x80 4 false) .carapace 0xa8 0 else d3
    let d5 := if dst = 4 then wf (dropRoot d4) .carapace 0x80 32 32 0 else d4
    if dst = 0 then d5 else wr d5 .dbg 0x80 (4 <<< 5)

/-- 10 ms after an accepted transition (R349). -/
def lcResetOp (d : Dev) : Dev :=
  match d.car.lcNext with
  | some (_, t) => if halted d ∨ d.now < t + 10 * msTicks then d else chipReset (sessionClose d 4) 5
  | none => d

/-- CONFIRM_MS has passed without confirmation (R480, R481). -/
def confirmTimeoutOp (d : Dev) : Dev :=
  match d.boot.confirm with
  | some t => if halted d ∨ d.now < t then d else chipReset (setBoot d fun b => { b with late := true }) 3
  | none => d

/-- 10 ms after an UPD_ACTIVATE with MODE 1 (R489). -/
def activationOp (d : Dev) : Dev :=
  match d.boot.actAt with
  | some t => if halted d ∨ d.now < t + 10 * msTicks then d else chipReset d 4
  | none => d

/-! ### The boot procedure (R479, R482, R490) -/

/-- The root secret is drawn where a transition to LC_PROV asks for it (R351); false: the entropy source fails. -/
def rootDraw (d : Dev) : Bool × Dev :=
  if !d.car.rootDue then (true, d)
  else if d.car.trngStop then (false, d)
  else
    let (r, d1) := draw d 32
    (true, wb { d1 with car := { d1.car with root := some r, rootDue := false } } .carapace 0x80 3 true)

/-- Chrysalis with its cause: 1 FORCED, 2 NO_IMAGE, 3 ENTROPY (R490). -/
def chrysalisEnter (d : Dev) (c : Nat) : Dev :=
  let d1 := (List.range 15).foldl (fun d x => if x ≤ 1 then d else setDomCond d x (if x ≤ 3 ∨ x = 11 then 1 else 0)) d
  let d2 := setBoot (wf (wb d1 .upd 0x80 6 true) .upd 0x80 8 2 c) fun b => { b with due := false }
  let d3 := updRecord d2 9 0xFF 0xFF c []
  let d4 := bootRecord d3 8 (lastSeq d3)
  let d5 := if d4.time.stopped then timeRestore d4 else d4
  setPwr (wb (wb (wf d5 .pwr 0x88 0 3 0) .pwr 0x88 6 false) .pwr 0x88 21 false) fun x => { x with exit := none, check := [], checkAt := none }

/-- An image is handed over to (Table 18.5): the BOOT record, and what waited for a running core. -/
def handOver (d : Dev) (m : List Host.Cell) (s : Nat) (pending : Bool) : Dev :=
  let last := lastSeq d
  let d1 := bootRecord (imageRun d s (slotHdr m s) pending) d.boot.cause last
  if d1.car.tampRec then { tamperRecord d1 with car := { d1.car with tampRec := false } } else d1

/-- The rest of boot_select: the active slot, then the other. -/
def selectSlot (d : Dev) (m : List Host.Cell) (e : EccEvent) : List Nat → Dev
  | [] => chrysalisEnter d 2
  | s :: rest =>
    if slotSt d s ≠ 3 ∧ slotSt d s ≠ 2 then selectSlot d m e rest
    else if slotVerify d m e s then
      let d1 := if s ≠ d.boot.active then
          raise (setSlotSt (setBoot d fun b => { b with active := s }) s 3) .upd 1 else d
      handOver d1 m s false
    else selectSlot (setSlotSt d s 5) m e rest

/-- boot_select of R479, from the pending image on. -/
def selectImage (d : Dev) (m : List Host.Cell) (e : EccEvent) : Dev :=
  let both := [d.boot.active, 1 - d.boot.active]
  let clear (d : Dev) (p : Nat) : Dev := setBoot (setSlotSt d p 5) fun b => { b with pending := none }
  match d.boot.pending with
  | none => selectSlot d m e both
  | some p =>
    if d.boot.attempts = 3 then
      let d1 := clear d p
      selectSlot (updRecord (cnt (raise d1 .upd 0) .upd 0x118 1) 8 p 0xFF 0 (slotHdr m p)) m e both
    else
      let d1 := setBoot d fun b => { b with attempts := b.attempts + 1 }
      if slotVerify d1 m e p then handOver d1 m p true else selectSlot (clear d1 p) m e both

/-- LC_SCRAP: the ROM halts, with nothing on but itself (Table 13.1, log 207). -/
def scrapHalt (d : Dev) : Dev :=
  setBoot ((List.range 15).foldl (fun d x => if x ≤ 3 then d else setDomCond d x 0) d) fun b => { b with due := false }

/-- The ROM boots (R479, R482): fuses, root secret, device slots, mode, image. -/
def bootSelectOp (m : List Host.Cell) (d : Dev) (e : EccEvent) : Dev :=
  if !d.boot.due ∨ !d.boot.outer ∨ halted d ∨ !domUp d 2 then d
  else
    let d0 := mramRead (setScarab (digestStart d d.now) fun x => { x with testAt := locNow d }) e
    let (ok, d1) := rootDraw (lcApply d0)
    let d2 := deriveDevice d1
    let d3 := restoreWrapped d2
    let lc := lcOf d3
    let trioOn := d.boot.trio && (lc == 0 || lc == 1 || lc == 4)
    let d4 := wb (wf (wb d3 (.scarab 0) 0x80 9 d.boot.trio) (.scarab 0) 0x80 0 2 trioOn.toNat) (.scarab 0) 0x80 8 true
    let d5 := if d4.boot.late then setBoot (raise d4 .upd 3) fun b => { b with late := false } else d4
    if lc = 5 then scrapHalt d5
    else
      let d6 := setBoot d5 fun b => { b with boots := (b.boots + 1) % 2 ^ 32 }
      if !ok then chrysalisEnter d6 3
      else if d.boot.sel = 2 then chrysalisEnter d6 1
      else if d.boot.sel = 1 then setBoot (wf d6 .upd 0x80 10 2 1) fun b => { b with due := false }
      else selectImage d6 m e

/-- The SRAM memories are zeroed at the boot after a life-cycle transition (Table 13.5); the MRAM keeps its images. -/
def wipeSram (m : List Host.Cell) : List Host.Cell := m.filter fun e => decide (0x80000000 ≤ e.1)

end Sys2Proof.Machine
end

