-- ==== Sys2Proof/Machine/RegRead.lean ====
section
/-! DEFINITION. What a read of the register space returns (R9, R41, R43, R52, R70, R72), the values that blocks compute where they
are read, frozen pages (R47), secret registers (R70, R365), and the reads that have an effect: drain apertures (R198). -/

namespace Sys2Proof.Machine

/-! ### Values that a block computes where they are read -/

/-- QUAY page 1: the selected shaper and queue cell, and the shapers in bucket mode (Table 6.10, R138). -/
def quay1View (d : Dev) (n off : Nat) : Option W64 :=
  let pg := quayPage n 1
  let s := shaper d n (rf d pg 0x80 0 11)
  let i := rf d pg 0xa0 0 9
  let c := qcell d n i
  let svc := (portsOfQuay n).zipIdx.flatMap fun pj => (List.range 8).filterMap fun t =>
    let w := hier d n (512 + pj.2 * 8 + t) 2
    if bit w 63 && decide (fld w 0 9 ≤ i ∧ i < fld w 0 9 + fld w 9 10) then some (svcKey pj.1 t) else none
  let v := match svc with | k :: _ => kvD (quay d n).vtime k 0 | [] => 0
  if off = 0x88 then some (mkWord [(0, s.bucket.toNat), (1, s.slot.isSome.toNat), (2, (s.elig && bit (hier d n i 1) 63).toNat)])
  else if off = 0x90 then some (BitVec.ofNat 64 (s.net / 65536))
  else if off = 0x98 then some (mkWord [(0, ofSigned 32 (s.ct / 65536)), (32, ofSigned 32 (s.pt / 65536))])
  else if off = 0xa8 then some (mkWord [(0, c.copies.foldl (fun a x => a + x.cells) 0), (18, c.copies.length)])
  else if off = 0xb0 then some (mkWord [(0, c.tag % 2 ^ 32), (32, v % 2 ^ 32)])
  else if off = 0xb8 then some (BitVec.ofNat 64 ((quay d n).shapers.filter fun e => e.2.bucket).length)
  else none

/-- GCL_STAT (Table 6.9): whether a list runs or waits, the gates at the transmit reference point now and the entry in force. -/
def gclStat (d : Dev) (p : Nat) (w : W64) : W64 :=
  let (gs, _, k) := gatesNow d p 0
  let g := gatesOf d p
  setFld (setFld (setBit (setBit w 0 g.oper.isSome) 1 g.pend.isSome) 8 8 gs) 16 11 k

/-- QUAY page 0: BUF_STAT and the selected filter (Table 4.20, R138). -/
def quay0View (d : Dev) (n off : Nat) : Option W64 :=
  let f := filter d (1024 * n + rf d (quayPage n 0) 0xb8 0 10)
  if off = 0xa0 then some (mkWord [(0, rsvUsed d n), (18, sharedUsed d n), (36, sharedFree d)])
  else if off = 0xc0 then some (BitVec.ofNat 64 f.blocked.toNat)
  else if off = 0xc8 then some (BitVec.ofNat 64 f.hits)
  else if off = 0xd0 then some (BitVec.ofNat 64 f.pass)
  else if off = 0xd8 then some (BitVec.ofNat 64 f.sdu)
  else if off = 0xe0 then some (BitVec.ofNat 64 f.red)
  else none

/-- CARAPACE: fused identity and the selected slot (Table 13.19). -/
def carView (d : Dev) (off : Nat) : Option W64 :=
  let s := slotOf d (rf d .carapace 0xb0 0 8)
  if off = 0x88 then some serialWord
  else if off = 0x90 then some (bytesWord (deviceId d))
  else if off = 0x98 then some (bytesWord ((deviceId d).drop 8))
  else if off = 0xb8 then some s.attr
  else if off = 0xc0 then
    some (mkWord [(0, (ktypeOf s.attr == 0).toNat), (1, (bit s.attr 24).toNat), (2, s.cached.toNat), (16, s.refused), (32, s.uses)])
  else none

/-- The computed registers of a page; none where the register reads as it is stored. -/
def computed (mem : List Host.Cell) (d : Dev) (pg : Page) (off : Nat) : Option W64 :=
  match pg with
  | .quay n i =>
      if i.val = 0 then quay0View d n.val off
      else if i.val = 1 then
        if n.val = 3 ∧ off = 0x420 then some (gclStat d 26 (rd d pg off)) else quay1View d n.val off
      else none
  | .port p i =>
      if i.val = 0 ∧ p.val < 26 ∧ off = 0x220 then some (gclStat d p.val (rd d pg off))
      else if i.val = 1 ∧ off = 0xa8 ∧ warmPort p.val then some (setBit (rd d pg off) 0 (portSt d p.val).record.isSome)
      else none
  | .bwt i => if i.val = 0 ∧ off = 0xc0 then some (BitVec.ofNat 64 (min 65535 (flowEntries d.tbl).length)) else none
  | .time i =>
      if i.val ≠ 0 then none
      else if off = 0x80 then some (BitVec.ofNat 64 (tSec (locNow d)))
      else if off = 0x88 then some (tNsWord (locNow d))
      else if 0x130 ≤ off ∧ off < 0x230 ∧ (off - 0x130) % 0x40 = 0 then some (timeStat d ((off - 0x130) / 0x40))
      else none
  | .ferry => if off = 0xb8 then some (ferryStat d) else none
  | .can k => if off = 0xc0 then some (canStat d k.val) else none
  | .lin l => if off = 0xa8 then some (linStat d l.val) else none
  | .xwe => xweView d off
  | .fcn i =>
      if i.val ≠ 0 then none
      else if off = 0x88 then some (fcnStat d)
      else if off = 0x90 then some (faultnReg d) else none
  | .buoy i =>
      if i.val ≠ 0 then none
      else if 0x300 ≤ off ∧ off < 0x400 ∧ off % 8 = 0 then some (nmStat d ((off - 0x300) / 8))
      else if 0x2d8 ≤ off ∧ off ≤ 0x2e8 ∧ off % 8 = 0 then some (BitVec.ofNat 64 (srcCounter d ((off - 0x2d8) / 8)))
      else none
  | .carapace => carView d off
  | .manifest => manReg d off
  | .pair i => if i.val ≠ 0 then none else if off = 0xc0 then some (pairStat d) else if off = 0xc8 then some (pairHealth d) else none
  | .upd => updReg mem d off
  | _ => none

/-- A register as its page shows it while it is not frozen, shadow copies of rws fields. -/
def liveValue (mem : List Host.Cell) (d : Dev) (pg : Page) (off : Nat) : W64 :=
  if off = 0 then pgId pg
  else if off = 0x8 then pgCap d pg
  else if off = 0x18 then pgStat d pg
  else if off = 0x30 then irqPend d pg
  else (computed mem d pg off).getD (rd d pg off)

/-! ### Frozen pages (R47) -/

/-- The bits of a register that a frozen page holds: counters and ro fields. -/
def frozenBits (pg : Page) (off : Nat) : W64 :=
  match pg.rowAt off with
  | some r => r.bits fun k => k == .ro || k == .ctr
  | none => 0

/-- The selector windows of R138, which show what their selectors name; of a frozen page as it was at the freeze (R47). -/
def selectorView (pg : Page) (off : Nat) : Bool :=
  match pg with
  | .quay _ i => (i.val == 0 && decide (0xc0 ≤ off ∧ off ≤ 0xe0)) || (i.val == 1 && decide (0x88 ≤ off ∧ off ≤ 0xb0))
  | .xwe => decide (0x98 ≤ off ∧ off ≤ 0xc8)
  | .buoy i => i.val == 0 && decide (0x2d8 ≤ off ∧ off ≤ 0x2e8)
  | .carapace => decide (0xb8 ≤ off ∧ off ≤ 0xc0)
  | _ => false

/-- The registers of a page that a freeze holds, and their values now. -/
def frozenRegs (mem : List Host.Cell) (d : Dev) (pg : Page) : Store :=
  let offs := (headerRows ++ pg.ownRows).flatMap fun r => (List.range r.count).map fun k => r.off + k * r.stride
  offs.foldl (fun s off =>
    if frozenBits pg off = 0 ∨ selectorView pg off then s
    else stPut regReset s (pg.base + off) (liveValue mem d pg off)) []

/-- What the selectors of a page can name, as it is now. -/
def selectedNow (d : Dev) (pg : Page) : Selected :=
  match pg with
  | .quay n i => if i.val = 0 then { filters := d.filters } else if i.val = 1 then { quay := quay d n.val } else {}
  | .xwe => { sigs := d.xwe.sigs, cmps := d.xwe.cmps }
  | .buoy i => if i.val = 0 then { srcs := d.buoy.src } else {}
  | .carapace => { slots := d.car.slots }
  | _ => {}

/-- A device whose selected parts of a page are those of a freeze. -/
def withSelected (d : Dev) (pg : Page) (x : Selected) : Dev :=
  match pg with
  | .quay n i => if i.val = 0 then { d with filters := x.filters } else if i.val = 1 then setQuay d n.val x.quay else d
  | .xwe => { d with xwe := { d.xwe with sigs := x.sigs, cmps := x.cmps } }
  | .buoy i => if i.val = 0 then { d with buoy := { d.buoy with src := x.srcs } } else d
  | .carapace => { d with car := { d.car with slots := x.slots } }
  | _ => d

/-- FREEZE takes a snapshot of what a page shows of its counters and ro fields; cleared, the page shows its state again. -/
def freezeOp (mem : List Host.Cell) (d : Dev) (pg : Page) (on : Bool) : Dev :=
  let b := pg.base
  let d1 := wb d pg 0x10 2 on
  if !on then { d1 with frz := kvDel d1.frz b, frzSel := kvDel d1.frzSel b }
  else if (kvGet d1.frz b).isSome then d1
  else { d1 with frz := kvPut d1.frz b (frozenRegs mem d1 pg),
                 frzSel := if selectedNow d1 pg = {} then d1.frzSel else kvPut d1.frzSel b (selectedNow d1 pg) }

/-- A register below +0x800, or of a page without an active view, as a master reads it. -/
def shownValue (mem : List Host.Cell) (d : Dev) (pg : Page) (off : Nat) : W64 :=
  let v := liveValue mem d pg off
  match frozenPage d pg with
  | some sn =>
    if selectorView pg off then
      let m := frozenBits pg off
      (v &&& ~~~m) ||| (liveValue mem (withSelected d pg (kvD d.frzSel pg.base {})) pg off &&& m)
    else let m := frozenBits pg off; (v &&& ~~~m) ||| (stGet regReset sn (pg.base + off) &&& m)
  | none => v

/-- The register at an offset of a page (R52): at +0x800 and above of a page with HAS_SHADOW the active view. A wo register and a
reserved offset read 0. -/
def regValue (mem : List Host.Cell) (d : Dev) (pg : Page) (off : Nat) : W64 :=
  let view := pg.hasShadow && decide (0x800 ≤ off)
  let o := if view then off - 0x800 else off
  match pg.rowAt o with
  | none => 0
  | some r =>
    let v := shownValue mem d pg o &&& ~~~(r.bits (· == .wo))
    if view then let m := shadowBits pg o; (v &&& ~~~m) ||| (acHeld d.act d pg o &&& m) else v

/-! ### Table windows -/

/-- A word of a table window as a master reads it: token state of meters, tables. -/
def winValue (d : Dev) (a : Nat) : W64 :=
  if 0x02800000 ≤ a ∧ a < 0x02810000 then
    let m := (a - 0x02800000) / 32
    let s : Meter := kvD d.meters m {}
    let w := (a - 0x02800000) / 8 % 4
    if w = 0 then mkWord [(0, s.ct / 65536), (32, s.et / 65536)]
    else if w = 1 then mkWord [(0, s.last % 2 ^ 63), (63, s.red.toNat)]
    else trd d a
  else trd d a

/-! ### A read -/

/-- The half of a word that a 32-bit read returns, the whole for a 64-bit read (R9). -/
def halfOf (v : W64) (addr width : Nat) : W64 :=
  if width = 3 then v else BitVec.ofNat 64 (fld v (if addr / 4 % 2 = 1 then 32 else 0) 32)

/-- Whether a register is secret (R70), and not for a master: CAR_DATA for every master, CAR_OUT for all but the Scarab (R365). -/
def secretFor (m : Master) (pg : Page) (off : Nat) : Bool :=
  pg == .carapace && (decide (0x140 ≤ off ∧ off < 0x180) || (decide (0x180 ≤ off ∧ off < 0x1e0) && m != .scarab))

/-- A read with an effect: a drain aperture of a page. None where the offset is in none. -/
def drainRead (d : Dev) (pg : Page) (off addr width : Nat) : Option (W64 × Dev) :=
  match pg with
  | .quay n i => if i.val = 2 ∧ 0x800 ≤ off then some (ringDrain d n.val addr width) else none
  | .port p i => if i.val = 2 ∧ 0x800 ≤ off then some (tsqDrain d p.val addr width) else none
  | .time i => if i.val = 1 ∧ 0x800 ≤ off then some (tcapDrain d ((off - 0x800) / 0x100) addr width) else none
  | .fcn i => if i.val = 3 ∧ 0x800 ≤ off then some (fcnLogRead d addr width) else none
  | .mbox i => if i.val ≠ 0 ∧ 0xc00 ≤ off then some (mboxRespRead d (i.val - 1) addr width) else none
  | _ => none

/-- What follows a read: a read of XWE_TAP_STAT restarts its high-water mark; the value of BUOY_NM_STAT may have used a free value. -/
def afterRead (d : Dev) (pg : Page) (off : Nat) : Dev :=
  match pg with
  | .xwe => if off / 8 * 8 = 0x88 then setXwe d { d.xwe with high := d.xwe.fifo.length } else d
  | .buoy i => if i.val = 0 ∧ 0x300 ≤ off % 0x800 ∧ off % 0x800 < 0x400 then { d with frees := d.frees + 1 } else d
  | _ => d

/-- A read of a page: the shell answers for a domain that is off (R72). -/
def pageRead (mem : List Host.Cell) (d : Dev) (m : Master) (pg : Page) (addr width : Nat) : W64 × Dev :=
  let off := addr % 0x1000
  let o8 := off / 8 * 8
  if domOff d pg.domain then (halfOf (if o8 = 0 then pgId pg else if o8 = 8 then pgCap d pg else 0) addr width, d)
  else if secretFor m pg o8 then (0, if ownerAllows d m pg then d else accessErr d (masterCode m) 8 false width addr)
  else match drainRead d pg off addr width with
  | some r => r
  | none => (halfOf (regValue mem d pg o8) addr width, afterRead d pg off)

/-- BAR2 of the PCIe host (Table 12.2): the model places it above the register space (log 22). -/
def bar2Base : Nat := 0x04000000
def inBar2 (addr : Nat) : Bool := decide (bar2Base ≤ addr ∧ addr < bar2Base + 0x4000)

/-- A word of BAR2 as the host reads it: doorbells and reserved offsets read 0. -/
def bar2Value (d : Dev) (o : Nat) : W64 :=
  if 0x1000 ≤ o ∧ o < 0x1400 then msixWord d (o - 0x1000)
  else if o = 0x2000 then (List.range 64).foldl (fun w i => setBit w i (d.host.pba.contains i)) 0
  else 0

/-- A read of 2^width bytes by a master: the value, and what it changes (R9, R41). -/
def readOp (mem : List Host.Cell) (d : Dev) (m : Master) (addr width : Nat) : W64 × Dev :=
  if width < 2 ∨ addr % 2 ^ width ≠ 0 then (0, accessErr d (masterCode m) 1 false width addr)
  else if m = .host ∧ inBar2 addr then (halfOf (bar2Value d (addr / 8 * 8 - bar2Base)) addr width, d)
  else if 0x01000000 ≤ addr then
    match winHit addr with
    | none => (0, accessErr d (masterCode m) 2 false width addr)
    | some _ =>
      let d1 := quayTouch d (winPage addr)
      if domOff d1 (winPage addr).domain then (0, d1) else (halfOf (winValue d1 (addr / 8 * 8)) addr width, d1)
  else match pageOf addr with
  | none => (0, accessErr d (masterCode m) 2 false width addr)
  | some pg => pageRead mem (quayTouch d pg) m pg addr width

/-- A read whose value leaves the device to its master. -/
def busRead (mem : List Host.Cell) (d : Dev) (m : Master) (addr width : Nat) : Dev :=
  let (v, d1) := readOp mem d m addr width
  emit d1 (.readData v)

end Sys2Proof.Machine
end

