-- ==== Sys2Proof/Machine/Switch.lean ====
section
/-! DEFINITION. Commits as a whole (R54 to R58): what a commit of each page refuses, the switch of one page or of the pages of a Tide
(R65), what each block does at a switch, the end of a refill, and the generations kept for frames in flight (R68). -/

namespace Sys2Proof.Machine

/-! ### Whether a shadow holds valid values (R54) -/

/-- Bits of a word under which a service node reads: BASE, COUNT, SUB_SEL (Table 6.1). -/
def svcBits (w : W64) : Nat × Nat × Nat := (fld w 0 9, fld w 9 10, fld w 19 2)

/-- Whether the shadow of QUAY n page 0 holds valid values (R119, R122, R128, R139). -/
def quay0ShadowValid (d : Dev) (n : Nat) : Bool :=
  let stream (i : Nat) : Bool :=
    let a := 0x02000000 + n * 0x8000 + i * 32
    let w0 := trd d a
    let w2 := trd d (a + 16)
    !bit w0 63 || (decide (fld w0 60 3 ≤ 3) && !(bit w2 58 && bit w2 59))
  let meter (i : Nat) : Bool :=
    let w := trd d (0x02400000 + n * 0x4000 + i * 32)
    decide (fld w 0 32 ≤ 25000000 ∧ fld w 32 32 ≤ 25000000)
  let port (j : Nat) : Bool :=
    let w := rd d (quayPage n 0) (0x100 + j * 8)
    decide (1 ≤ fld w 0 12 ∧ fld w 0 12 ≤ 4094) && fld w 16 2 != 3
  let rsv := (List.range 4).foldl (fun a k => a + rf d (quayPage k 0) 0x90 0 18) 0
  let tpid := rf d (quayPage n 0) 0x80 0 16
  (List.range 1024).all stream && (List.range 512).all meter && (List.range (portsOfQuay n).length).all port
    && tpid != 0x8100 && tpid != 0x88a8 && decide (rsv ≤ 114688 - d.retired1.length)

/-- Whether a shaper entry of the shadow of a quay obeys Table 6.4, where it is valid. -/
def shaperValid (d : Dev) (n i : Nat) : Bool :=
  let a := hierSh d n i 0
  let b := hierSh d n i 1
  !bit b 63 || (decide (1 ≤ fld a 0 32 ∧ fld a 0 32 ≤ fld a 32 32 ∧ fld a 32 32 ≤ 25000000)
    && decide (64 ≤ fld b 0 24) && decide (64 ≤ fld b 24 24))

/-- Whether a hierarchy element names a valid shaper, where it names one. -/
def namesShaper (d : Dev) (n : Nat) (w : W64) (lo en : Nat) : Bool := !bit w en || bit (hierSh d n (fld w lo 11) 1) 63

/-- Whether the shadow of QUAY n page 1 holds valid values (R174). -/
def quay1ShadowValid (d : Dev) (n : Nat) : Bool :=
  let w (i : Nat) : W64 := hierSh d n i 2
  let slots := (portsOfQuay n).length
  let live := (List.range 128).filter fun s => bit (w (512 + s)) 63
  let range (s : Nat) : Nat × Nat := let (b, c, _) := svcBits (w (512 + s)); (b, b + c)
  let node (s : Nat) : Bool :=
    let (b, c, sub) := svcBits (w (512 + s))
    c != 0 && decide (b + c ≤ 512) && sub != 3 && decide (s / 8 < slots)
      && (List.range c).all (fun k => bit (w (b + k)) 63)
      && live.all (fun u => u == s || decide ((range u).2 ≤ b ∨ b + c ≤ (range u).1))
  let port (j : Nat) : Bool := (!bit (w (640 + j)) 63 || decide (j < slots)) && namesShaper d n (w (640 + j)) 0 11
  let cell (i : Nat) : Bool := (!bit (w i) 63 || fld (w i) 0 16 != 0) && namesShaper d n (w i) 16 27
  live.all node && (List.range 128).all (fun s => namesShaper d n (w (512 + s)) 21 32) && (List.range 16).all port && (List.range 512).all cell && (List.range 2048).all (shaperValid d n)
    && (n != 3 || gateShadowValid d 26)

/-- Whether every shadow field of a page holds a valid value, as a commit by this master asks (R54, R168). -/
def shadowValid (d : Dev) (m : Master) : Page → Bool
  | .bwt _ => bwtShadowValid d && (m == .scarab || !sealedDiffers d)
  | .quay n i => if i.val = 0 then quay0ShadowValid d n.val else quay1ShadowValid d n.val
  | .port p i =>
      if 26 ≤ p.val then true
      else if i.val = 0 then macShadowValid d p.val
      else if i.val = 1 then phyShadowValid d p.val else secShadowValid d p.val
  | .can k => canShadowValid d k.val
  | .ferry => ferryShadowValid d
  | .xwe => xweShadowValid d
  | .buoy _ => buoyShadowValid d
  | _ => true

/-- A write of CFG_COMMIT (R54): pages 1 to 3 of the Buoy refuse it (R300); who commits BWT page 0 is remembered (R167); an
accepted FERRY commit repeats searches (R245). -/
def commitOp (d : Dev) (m : Master) (pg : Page) (v : W64) : Dev :=
  match pg with
  | .buoy i => if i.val = 0 then commitReq d m pg v (shadowValid d m pg) else commitReject d pg 3
  | _ =>
    let d1 := commitReq d m pg v (shadowValid d m pg)
    if rb d pg 0x18 4 || !rb d1 pg 0x18 4 then d1
    else if pg = .bwt 0 then { d1 with commitBy := kvPut d1.commitBy pg.base (masterCode m) }
    else if pg = .ferry then ferryResearch d1 else d1

/-! ### The switch (R55, R57, R65) -/

/-- The BWT_GEN record of a switch (R167, Table 13.17). -/
def bwtGenRecord (d : Dev) : Dev :=
  let who := kvD d.commitBy (Page.bwt 0).base 0
  let body := leBytes 4 (genOf d (.bwt 0)) ++ leBytes 4 (af d (.bwt 0) 0x68 0 32) ++ leBytes 1 who
    ++ leBytes 1 (rf d (.bwt 0) 0x58 32 1) ++ leBytes 1 (rf d (.bwt 0) 0x58 33 3)
  manPush d 9 1 body

/-- A service whose BASE, COUNT or SUB_SEL a switch changes begins a new generation, and a cell that loses VALID keeps its weight
(R175). -/
def hierSwitch (old : Store) (d : Dev) (n : Nat) : Dev :=
  let o (i : Nat) : W64 := tIn old (0x03600000 + n * 0x10000 + i * 32 + 16)
  let gens := (portsOfQuay n).zipIdx.foldl (fun l pj => (List.range 8).foldl (fun l t =>
    let i := 512 + pj.2 * 8 + t
    if svcBits (o i) = svcBits (hier d n i 2) then l
    else kvPut l (svcKey pj.1 t) (kvD l (svcKey pj.1 t) 0 + 1)) l) (quay d n).svcGen
  let cells := (quay d n).qcells.map fun e =>
    (e.1, if bit (o e.1) 63 && !bit (hier d n e.1 2) 63 then { e.2 with weight := fld (o e.1) 0 16 } else e.2)
  setQuay d n { quay d n with svcGen := gens, qcells := cells }

/-- A switch that changes FERRY_CTRL.TS_DOMAIN: what it named before is kept for frames whose SOF lies before the switch (R228). -/
def tsDomSwitch (old d : Dev) : Dev :=
  let dm := af old .ferry 0x80 1 3
  if dm = af d .ferry 0x80 1 3 then d
  else
    let l := d.ferry.tsDoms.filter fun e => decide (d.now < e.1 + pastTicks)
    { d with ferry := { d.ferry with tsDoms := l ++ [(d.now, dm)] } }

/-- The switch time of a gate group in the domain of its new list: the Tide time where the list follows the slot's domain. -/
def gateAt (d : Dev) (p : Nat) (tide : Option (Nat × Nat)) : Nat :=
  let dm := (adminList d p).dom
  match tide with
  | some (tt, x) => if x = dm then tt else timeOf d dm
  | none => timeOf d dm

/-- What a block does before a switch of a page: shapers and credits are brought up to date with the old parameters (R189, R194). -/
def beforeSwitch (d : Dev) (pg : Page) : Dev :=
  match pg with
  | .quay n i => if i.val = 1 then shapersAtSwitch d n.val else d
  | .port p i => if i.val = 0 then cbsSync d p.val else d
  | _ => d

/-- What a block does after a switch of a page, the device before it being `old`. -/
def afterSwitch (old : Dev) (tide : Option (Nat × Nat)) (d : Dev) (pg : Page) : Dev :=
  match pg with
  | .bwt _ => bwtGenRecord d
  | .quay n i =>
      if i.val = 1 then
        let d1 := hierSwitch old.tbl d n.val
        if n.val = 3 then gateSwitch d1 26 (gateAt d1 26 tide) else d1
      else d
  | .port p i =>
      if i.val = 0 ∧ p.val < 26 then
        let d1 := gateSwitch d p.val (gateAt d p.val tide)
        if ac old pg 0xa8 = ac d pg 0xa8 then d1 else verifyStart d1 p.val
      else if i.val = 1 ∧ portType p.val = .s ∧ ab old pg 0xd8 0 ≠ ab d pg 0xd8 0 then plcaBegin d p.val
      else d
  | .can k => canSwitch old d k.val
  | .ferry => ferrySwitch old.tbl (linSchedSwitch old.tbl (tsDomSwitch old d))
  | .xwe => xweTicksAnew (setXwe d { d.xwe with ep := d.epoch })
  | .buoy _ => buoySwitch d
  | _ => d

/-- Pages switch together, at once or for a Tide with this time and domain: one new configuration (R68). -/
def fireSwitch (d : Dev) (pgs : List Page) (tide : Option (Nat × Nat)) : Dev :=
  let d1 := pgs.foldl beforeSwitch d
  let d2 := pgs.foldl switchPage { d1 with epoch := d1.epoch + 1, retired := kvPut d1.retired d1.epoch (keptAct d1, d1.tbl) }
  pgs.foldl (afterSwitch d1 tide) d2

/-- The switch point of an accepted immediate commit is reached (R57). -/
def commitSwitchOp (d : Dev) (pg : Page) : Dev :=
  match kvGet d.commitAt pg.base with
  | some a => if switchDue pg a ≤ d.now then fireSwitch d [pg] none else d
  | none => d

/-- Whether a page's block, or the quay that holds it, is in reset. -/
def inReset (d : Dev) (pg : Page) : Bool :=
  (kvGet d.srst (blockBase pg)).isSome || (match pg.quayOf with | some n => (quay d n.val).isoAt.isSome | none => false)

/-- The refill of a page ends (R55, R56), not while its block or quay is in reset (R58); of the XWE, for software only once no tap of an older generation waits (R260). -/
def mirrorRefillEndOp (d : Dev) (pg : Page) : Dev :=
  match kvGet d.refillAt pg.base with
  | some t =>
    if d.now < t ∨ inReset d pg then d
    else if pg = .xwe ∧ ¬ d.xwe.fifo.all (fun tp => d.xwe.ep ≤ tp.epoch) then setXwe d { d.xwe with refDone := true }
    else refillEnd d pg
  | none => d

/-- An armed slot's time is reached: every joined page switches (R65). -/
def tideFireOp (d : Dev) (n : Nat) : Dev :=
  let (tt, dm) := slotTime d n
  if slotState d n ≠ 2 ∨ timeOf d dm < tt then d
  else
    let pgs := joinedPages d n
    let o := 0x410 + n * 0x20
    let d1 := fireSwitch d pgs (some (tt, dm))
    let d2 := pgs.foldl (fun d pg => irq { d with tideRef := kvPut d.tideRef pg.base n } pg 61) d1
    wf (wf d2 .chip o 2 3 3) .chip o 32 16 pgs.length

/-! ### Generations of frames in flight (R68) -/

/-- The numbers of the configurations that something in the device still refers to. -/
def usedEpochs (d : Dev) : List Nat :=
  let work (w : EdgeWork) : List Nat := w.epoch.toList
  let copies := d.quays.flatMap fun q => q.2.qcells.flatMap fun c => c.2.copies.map (·.info.epoch)
  let pres := d.quays.flatMap fun q => (q.2.ready ++ q.2.pipe.map (·.2)).flatMap fun h => match h.pres with
    | some p => (match p.work with | some w => work w | none => [p.epoch])
    | none => []
  let rx := d.ports.flatMap fun p => p.2.rx.map (·.epoch)
  let ferry := d.ferry.ready.flatMap work ++ d.ferry.carriers.flatten.flatMap work
    ++ d.ferry.back.flatMap (fun v => v.epoch :: work v.work) ++ d.ferry.windows.map (·.2.epoch) ++ d.ferryIn.map (·.info.epoch)
  (d.xwe.fifo ++ d.tapQ).map (·.epoch) ++ copies ++ (d.tx ++ d.susp).map (·.2.copy.info.epoch) ++ pres ++ rx ++ ferry

/-- Older configurations that nothing refers to are forgotten. -/
def pruneRetired (d : Dev) : Dev :=
  if d.retired = [] then d
  else let used := usedEpochs d; { d with retired := d.retired.filter fun e => used.contains e.1 }

end Sys2Proof.Machine
end

