-- ==== Sys2Proof/Machine/RegWrite.lean ====
section
/-! DEFINITION. What an accepted 64-bit write does: to the page header, to each block's registers (R513 unless the block's chapter
gives the register an action), to a table window (R43, R514), to BAR2 (Table 12.2). -/

namespace Sys2Proof.Machine

/-! ### Enabling and disabling (R46, R76, R77, R225, R253) -/

/-- Whether the owning chapter refuses the enabling of a page as a whole (R48, R76, R225). -/
def enableRefused (d : Dev) : Page → Bool
  | .port p i => i.val == 0 && decide (p.val < 26) && !macModeOk d p.val
  | .can k => !canEnableOk d k.val
  | _ => false

/-- ENABLE is set: a PHY begins to bring its link up (R79). -/
def enablePage (d : Dev) (pg : Page) : Dev :=
  if enabled d pg then d
  else match pg with
  | .port p i => if i.val = 1 ∧ p.val < 26 then phyStart (enableOp d pg) p.val else enableOp d pg
  | .xwe => xweTicksAnew (enableOp d pg)
  | _ => enableOp d pg

/-- Whether the unit of work of a page's block is still in progress (R46): a frame in transmission or reception, a flush of the flow
table, a frame in the hands of the Ferry, a CAR_CMD. A burst of the Lighter and a CAN or LIN frame are one command each. -/
def workLeft (d : Dev) (pg : Page) : Bool :=
  match pg with
  | .port p i =>
      decide (i.val ≤ 1) && ((kvGet d.tx p.val).isSome || (kvGet d.susp p.val).isSome || (portSt d p.val).rx.any (·.tailed.isNone))
  | .bwt i => i.val == 0 && d.flush.isSome
  | .ferry => d.ferry.back != [] || [0, 1, 2, 3].any fun n => ((quay d n).ready ++ (quay d n).pipe.map (·.2)).any (·.pres.isSome)
  | .carapace => d.car.cmd.isSome
  | _ => false

/-- The port of a PORT page. -/
def pagePort : Page → Nat
  | .port p _ => p.val
  | _ => 0

/-- Whether a page is that of a disabled PHY whose link is still up, until the frame in progress ends (R46). -/
def phyHolds (d : Dev) : Page → Bool
  | .port p i => i.val == 1 && decide (p.val < 26) && !enabled d (phyPage p.val) && linkIsUp d p.val
  | _ => false

/-- ENABLE is cleared: a PHY loses its link, once a frame in progress has ended (R46); a MAC whose link is down frees the copies that
waited for it (R77). -/
def disablePage (d : Dev) (pg : Page) : Dev :=
  if !enabled d pg then d
  else match pg with
  | .port p i =>
      let d1 := disableOp d pg
      if i.val = 1 ∧ p.val < 26 then (if workLeft d pg then d1 else linkDown d1 p.val)
      else if i.val = 0 ∧ p.val < 26 ∧ !linkIsUp d p.val then flushPort d1 p.val
      else d1
  | _ => disableOp d pg

/-- A disabled block has ended its unit of work (R46): a PHY loses its link then (R77), and port 28 becomes unreachable with the FERRY
page (R253). -/
def quiescePage (d : Dev) (pg : Page) : Dev :=
  if enabled d pg || workLeft d pg then d
  else if phyHolds d pg then quiescedOp (linkDown d (pagePort pg)) pg
  else if pg = .ferry ∨ pg = macPage 28 then ferryOff (quiescedOp d pg) else quiescedOp d pg

/-- PG_CTRL (Table 2.6): a refused ENABLE refuses the whole write (R48). -/
def pgCtrlWrite (mem : List Host.Cell) (d : Dev) (pg : Page) (v : W64) : Dev :=
  if bit v 0 && !enabled d pg && enableRefused d pg then invalidValue d pg
  else
    let old := rd d pg 0x10
    let d1 := writeFields d pg 0x10 (mergeFld (mergeFld v old 0 1) old 2 1)
    let d2 := if bit v 2 = bit old 2 then d1 else freezeOp mem d1 pg (bit v 2)
    let d3 := if bit v 0 then enablePage d2 pg else disablePage d2 pg
    if bit v 1 then softResetOp d3 pg else d3

/-- IRQ_RAW bits that stand while their condition lasts are raised again where a write cleared them: SAMP_WATER (R198). -/
def irqLevels (d : Dev) (pg : Page) : Dev :=
  match pg with
  | .quay n i => if i.val = 2 then sampWater d n.val else d
  | _ => d

/-- A write of the page header (Tables 2.3 to 2.9). -/
def headerWrite (mem : List Host.Cell) (d : Dev) (m : Master) (pg : Page) (off : Nat) (v : W64) : Dev :=
  if off = 0x8 then pgCapWrite d pg v
  else if off = 0x10 then pgCtrlWrite mem d pg v
  else if off = 0x20 then irqLevels (irqRawClear d pg v) pg
  else if off = 0x28 then irqEnWrite d pg v
  else if off = 0x38 then irqForceOp d pg v
  else if off = 0x48 then errForceOp d m pg v
  else if off = 0x58 then commitOp d m pg v
  else if off = 0x60 then (if bit v 0 then pageLockOp d m pg else d)
  else writeFields d pg off v

/-! ### Blocks -/

/-- CHIP: Tide slots (R62 to R64). -/
def chipWrite (d : Dev) (off : Nat) (v : W64) : Dev :=
  if 0x400 ≤ off ∧ off < 0x500 then
    let n := (off - 0x400) / 0x20
    let r := (off - 0x400) % 0x20
    if r = 0 then tideTimeOp d n false v
    else if r = 8 then tideTimeOp d n true v
    else if r = 0x10 then tideCtrlOp d n v
    else writeFields d .chip off v
  else writeFields d .chip off v

/-- PWR_CTRL: a MAX_STATE of 5 to 7 is ignored (Table 11.11). -/
def pwrWrite (d : Dev) (off : Nat) (v : W64) : Dev :=
  if off = 0x80 ∧ 5 ≤ fld v 0 3 then invalidValue (writeFields d .pwr off (mergeFld v (rd d .pwr off) 0 3)) .pwr
  else writeFields d .pwr off v

/-- FCN: FCN_FAULTN, the self-test, FCN_SRC_s. A self-test asked for by a plain register write has a free outcome (log 55). -/
def fcnWrite (d : Dev) (i : Fin 4) (off : Nat) (v : W64) : Dev :=
  if i.val = 0 ∧ off = 0x90 then faultnOp d v
  else if i.val = 0 ∧ off = 0xa8 then
    if bit v 0 then let (x, d1) := freeNat d; fcnSelftestOp d1 (x % 2 == 1) else d
  else if (i.val = 1 ∨ i.val = 2) ∧ 0x800 ≤ off then fcnSrcWriteOp d ((i.val - 1) * 256 + (off - 0x800) / 8) v
  else writeFields d (.fcn i) off v

/-- A counter of a filter cleared: what it held beyond `shown` stays. -/
def sfClear (f shown : Filter) (k : Nat) : Filter :=
  if k = 0 then { f with hits := f.hits - shown.hits } else if k = 1 then { f with pass := f.pass - shown.pass }
  else if k = 2 then { f with sdu := f.sdu - shown.sdu } else { f with red := f.red - shown.red }

/-- A counter of the filter that QUAY_SF_SEL names, cleared by a write of 0 (R11, R138); of a frozen page what is shown is cleared, and
what was counted since stays (R47). -/
def sfCounterWrite (d : Dev) (n k : Nat) (v : W64) : Dev :=
  if v ≠ 0 then d
  else
    let i := 1024 * n + rf d (quayPage n 0) 0xb8 0 10
    let f := filter d i
    match kvGet d.frzSel (quayPage n 0).base with
    | none => setFilter d i (sfClear f f k)
    | some x =>
      let sn : Filter := kvD x.filters i {}
      setFilter { d with frzSel := kvPut d.frzSel (quayPage n 0).base { x with filters := kvPut x.filters i (sfClear sn sn k) } } i (sfClear f sn k)

/-- QUAY: the selected filter; sampling that begins, and a watermark that the ring has reached already (R196, R198). -/
def quayWrite (d : Dev) (n : Fin 4) (i : Fin 3) (off : Nat) (v : W64) : Dev :=
  let pg : Page := .quay n i
  if i.val = 0 ∧ off = 0xc0 then sfClearOp d n.val v
  else if i.val = 0 ∧ 0xc8 ≤ off ∧ off ≤ 0xe0 then sfCounterWrite d n.val ((off - 0xc8) / 8) v
  else if i.val = 2 ∧ off = 0x80 then
    let d1 := writeFields d pg off v
    let begun := rb d1 pg off 0 && !rb d pg off 0
    sampWater (if begun then setQuay d1 n.val { quay d1 n.val with sampAt := locNow d1 } else d1) n.val
  else writeFields d pg off v

/-- PORT: a write of MAC_MODE invalidates the warm record (R81); SQI_MIN, warm relink, cable test and TC10 commands (Table 3.9). -/
def portWrite (d : Dev) (p : Fin 29) (i : Fin 4) (off : Nat) (v : W64) : Dev :=
  let pg : Page := .port p i
  let d1 := writeFields d pg off v
  if 26 ≤ p.val then d1
  else if i.val = 0 ∧ off = 0x88 then (if disabled d pg ∧ warmPort p.val then setRecord d1 p.val none else d1)
  else if i.val = 1 then
    if off = 0x98 then (if fld v 4 3 ≠ 0 then wf d pg 0x98 4 3 7 else d)
    else if off = 0xa0 ∧ warmPort p.val then
      let d2 := if bit v 1 then warmSaveOp d1 p.val else d1
      if bit v 2 then warmFlushOp d2 p.val else d2
    else if off = 0xb0 then (if bit v 0 then diagStartOp d p.val else d)
    else if off = 0xc0 then
      let d2 := if bit v 0 then tc10ReqOp d1 p.val else d1
      if bit v 2 then tc10WurOp d2 p.val else d2
    else d1
  else d1

/-- BWT: flow commands (R158), diagnostic sessions (R165). A write that changes OPEN opens or closes its session, with the record
of R165 (log 56). -/
def bwtWrite (d : Dev) (i : Fin 2) (off : Nat) (v : W64) : Dev :=
  let pg : Page := .bwt i
  if i.val = 0 then (if off = 0xb8 then flowCmdOp d v else writeFields d pg off v)
  else if 0x100 ≤ off ∧ off < 0x160 then
    let s := (off - 0x100) / 0x18
    let o := 0x110 + s * 0x18
    let d1 := writeFields (diagKeep d s) pg off v
    let now := rb d1 pg o 0
    let d2 := if rb d pg o 0 = now then d1
      else irq (diagRecord d1 (if now then 1 else 2) 0 s (rf d1 pg o 32 32) (rd d1 pg (o - 0x10)) (rd d1 pg (o - 8))) (.bwt 0) 3
    if off = o ∧ bit v 1 then diagCloseOp d2 s else d2
  else writeFields d pg off v

/-- TIME: domains, snapshot, outputs and captures (chapter 7). -/
def timeWrite (d : Dev) (i : Fin 2) (off : Nat) (v : W64) : Dev :=
  let pg : Page := .time i
  if i.val = 0 then
    if off = 0x90 then snapOp d v
    else if 0x100 ≤ off ∧ off < 0x200 then
      let n := (off - 0x100) / 0x40
      let r := (off - 0x100) % 0x40
      if r = 0 then timeCtrlOp d n v else if r = 8 then rateOp d n v else if r = 0x28 then timeCmdOp d n v
      else writeFields d pg off v
    else writeFields d pg off v
  else if 0x80 ≤ off ∧ off < 0x200 ∧ (off - 0x80) % 0x30 = 0 then toutCtrlOp d ((off - 0x80) / 0x30) v
  else if 0x200 ≤ off ∧ off < 0x2c0 ∧ (off - 0x200) % 0x18 = 0 then tcapCtrlOp d ((off - 0x200) / 0x18) v
  else writeFields d pg off v

/-- BUOY: the keeper's KICK and RELEASE (R297, R298), counters of the selected source. -/
def buoyWrite (d : Dev) (m : Master) (i : Fin 4) (off : Nat) (v : W64) : Dev :=
  let pg : Page := .buoy i
  if i.val = 0 ∧ off = 0x280 then
    let d1 := writeFields d pg off v
    let d1 := if !rb d pg off 0 ∧ rb d1 pg off 0 then keeperRestart d1 else d1
    let d2 := if bit v 1 then keeperKickOp d1 m else d1
    if bit v 2 then keeperReleaseOp d2 m else d2
  else if i.val = 0 ∧ 0x2d8 ≤ off ∧ off ≤ 0x2e8 then srcClear d ((off - 0x2d8) / 8) v
  else writeFields d pg off v

/-- LIGHTER: the eight channels of a page (Tables 12.16, 12.17). -/
def lighterWrite (d : Dev) (m : Master) (i : Fin 5) (off : Nat) (v : W64) : Dev :=
  if i.val = 0 ∨ off < 0x100 ∨ 0x900 ≤ off then writeFields d (.lighter i) off v
  else
    let c := (i.val - 1) * 8 + (off - 0x100) / 0x100
    let o := off % 0x100
    if o = 0x20 then ltCmdOp d c v
    else if 0x40 ≤ o ∧ o ≤ 0x58 then ltShadowWrite d c o v
    else if o = 0x60 then (if bit v 0 then ltArmOp d c (masterCode m) else d)
    else writeFields d (.lighter i) off v

/-- Rings of port H on HOST page 1 and of port C on SCARAB page 1 (Tables 12.13, 12.14); `q0`: 0 or 16, `n` queue pairs. -/
def ringWrite (d : Dev) (pg : Page) (q0 n off : Nat) (v : W64) : Dev :=
  if 0x100 ≤ off ∧ off < 0x100 + n * 0x40 then
    let q := q0 + (off - 0x100) / 0x40
    let r := (off - 0x100) % 0x40
    if r = 0 then hqBaseOp d q false v
    else if r = 0x20 then hqBaseOp d q true v
    else if r = 8 then hqCfgOp d q false v
    else if r = 0x28 then hqCfgOp d q true v
    else writeFields d pg off v
  else writeFields d pg off v

/-- SCARAB: the self-test and the mode request (R398, R401), port C's rings and doorbells (R328). -/
def scarabWrite (d : Dev) (i : Fin 2) (off : Nat) (v : W64) : Dev :=
  if i.val = 0 then
    if off = 0x88 then
      let d1 := writeFields d (.scarab i) off v
      if bit v 8 then let (x, d2) := freeNat d1; selftestOp d2 (x % 2 == 1) else d1
    else if off = 0x90 then (if bit v 0 then modeReqOp d else d)
    else writeFields d (.scarab i) off v
  else if 0x800 ≤ off ∧ off < 0x880 then doorbellOp d (16 + (off - 0x800) / 0x10) (off % 0x10 == 8) v
  else ringWrite d (.scarab i) 16 8 off v

/-- MBOX: a channel's request buffer, RING and ACK (R335, R336). -/
def mboxWrite (d : Dev) (m : Master) (i : Fin 5) (off : Nat) (v : W64) : Dev :=
  if i.val = 0 then writeFields d (.mbox i) off v
  else if off = 0x80 then
    let d1 := if bit v 0 then mboxRingOp d m (i.val - 1) else d
    if bit v 1 then mboxAckOp d1 (i.val - 1) else d1
  else if 0x800 ≤ off ∧ off < 0xc00 then mboxReqOp d (i.val - 1) v
  else writeFields d (.mbox i) off v

/-- The enables of CAR_TAMP_EN (Table 13.7): bits 0 to 4 and 8 to 11. -/
def tampBits : W64 := maskOf 0 5 ||| maskOf 8 4

/-- CAR_TAMP_EN (R353): w1s with a lockable polarity in LC_PROV and LC_FIELD, and in LC_SCRAP (log 57). -/
def tampEnWrite (d : Dev) (v : W64) : Dev :=
  let lc := lcOf d
  if lc = 0 ∨ lc = 1 ∨ lc = 4 then wr d .carapace 0xa0 (v &&& (tampBits ||| maskOf 16 4))
  else
    let old := rd d .carapace 0xa0
    let same := fld v 16 4 == fld old 16 4
    let d1 := wr d .carapace 0xa0 (mergeFld (old ||| (v &&& tampBits)) (if locked d .carapace then old else v) 16 4)
    if locked d .carapace && !same then conflict d1 .carapace 8 else d1

/-- CARAPACE: tamper enables, CAR_DATA, CAR_CMD (R361). -/
def carWrite (d : Dev) (m : Master) (off : Nat) (v : W64) : Dev :=
  if off = 0xa0 then tampEnWrite d v
  else if off = 0x100 then
    if bit v 12 then carGo d (masterCode m) (fld v 0 4) (fld v 4 8) else writeFields d .carapace off v
  else if 0x140 ≤ off ∧ off < 0x180 then wr d .carapace off v
  else writeFields d .carapace off v

/-- The offline test begins (R464): forwarding stops, what the quays hold is lost. -/
def offlineStart (d : Dev) : Dev :=
  if holding d ∨ d.pair.offline then d
  else
    let d1 := [0, 1, 2, 3].foldl (fun d n => pagesStop (quayForget (quayCut d n) n) (quayPages n)) d
    setPair d1 fun p => { p with offline := true }

/-- The offline test ends (R464): the quays run again. -/
def offlineEnd (d : Dev) : Dev :=
  if d.pair.offline then
    [0, 1, 2, 3].foldl (fun d n => pagesStart d (quayPages n)) (setPair d fun p => { p with offline := false })
  else d

/-- PAIR: EN is refused without the strap and in TRIO mode (R400, R447); READY, KICK, OFFLINE_TEST. -/
def pairWrite (d : Dev) (i : Fin 2) (off : Nat) (v : W64) : Dev :=
  if i.val = 0 ∧ off = 0x80 then
    if bit v 0 && (!d.pair.strapEn || trio d) then invalidValue d (.pair i)
    else
      let d1 := writeFields d (.pair i) off v
      if bit v 1 then pairReadyWritten d1 else d1
  else if i.val = 0 ∧ off = 0x90 then (if bit v 0 then pairKickOp d else d)
  else if i.val = 0 ∧ off = 0x98 then (if bit v 0 then offlineStart d else d)
  else writeFields d (.pair i) off v

/-- An accepted 64-bit write of a page's register (R513). -/
def regWrite (mem : List Host.Cell) (d : Dev) (m : Master) (pg : Page) (off : Nat) (v : W64) : Dev :=
  if off < 0x80 then headerWrite mem d m pg off v
  else match pg with
  | .chip => chipWrite d off v
  | .pwr => pwrWrite d off v
  | .fcn i => fcnWrite d i off v
  | .quay n i => quayWrite d n i off v
  | .port p i => portWrite d p i off v
  | .bwt i => bwtWrite d i off v
  | .time i => timeWrite d i off v
  | .can k => if off = 0xb8 then (if bit v 0 then canRecoverOp d k.val else d) else writeFields d pg off v
  | .lin l =>
      if off = 0x90 then
        let d1 := if bit v 0 then linGotoSleepOp d l.val else d
        if bit v 1 then linWakeOp d1 l.val else d1
      else writeFields d pg off v
  | .buoy i => buoyWrite d m i off v
  | .lighter i => lighterWrite d m i off v
  | .host i => if i.val = 1 then ringWrite d pg 0 16 off v else writeFields d pg off v
  | .mbox i => mboxWrite d m i off v
  | .carapace => carWrite d m off v
  | .manifest =>
      if off = 0xe0 then
        let d1 := if bit v 0 then manSubGo d else d
        if bit v 1 then manSubSeal d1 else d1
      else writeFields d pg off v
  | .scarab i => scarabWrite d i off v
  | .pair i => pairWrite d i off v
  | .upd => if off = 0xb8 then (if bit v 0 then updConfirmOp d else d) else writeFields d pg off v
  | .dbg =>
      if off = 0x90 then
        let d1 := writeFields d pg off v
        if bit v 0 then dbgCtrlCloseOp d1 else d1
      else writeFields d pg off v
  | .clk => writeFields d pg off v
  | .ferry => writeFields d pg off v
  | .xwe => writeFields d pg off v

/-! ### Table windows (R10, R11, R43, R514) -/

/-- Bits that a write of a word of a table may set, by the table's layout, and whether the word is a counter (R11). `a` is an address
of a table, in its shadow half where it has two generations. -/
def winLayout (a : Nat) : W64 × Bool :=
  let k := (a - 0x01000000) / 0x400000
  let o := (a - 0x01000000) % 0x400000
  let all : W64 := maskOf 0 64
  let v63 := maskOf 63 1
  let w2 := o / 8 % 2
  let w4 := o / 8 % 4
  let w8 := o / 8 % 8
  let w16 := o / 8 % 16
  if k = 0 then
    if w8 = 0 then (maskOf 14 50, false) else if w8 < 5 then (all, false)
    else if w8 = 5 then (all &&& ~~~(maskOf 54 2), false) else if w8 = 6 then (maskOf 0 44, false) else (all, true)
  else if k = 1 then
    if w2 = 0 then (all &&& ~~~(maskOf 62 1), false) else (maskOf 0 7 ||| maskOf 8 11 ||| maskOf 19 2, false)
  else if k = 2 then
    if w16 < 10 then (all, false) else if w16 = 10 then (maskOf 0 8 ||| maskOf 12 23 ||| v63, false)
    else if w16 = 11 then (maskOf 0 5 ||| maskOf 8 27, false) else if w16 = 12 then (maskOf 0 32, false) else (0, false)
  else if k = 3 then
    if o < 0x10000 then (if w2 = 0 then (maskOf 0 29 ||| v63, false) else (maskOf 0 29 ||| maskOf 32 7, false))
    else if o < 0x14000 then (all &&& ~~~(maskOf 22 2 ||| maskOf 54 2), false)
    else if o < 0x14200 then (maskOf 0 7 ||| v63, false) else (0, false)
  else if k = 4 then
    if w4 < 2 then (all, false) else if w4 = 2 then (maskOf 0 34 ||| maskOf 48 13, false) else (maskOf 0 27, false)
  else if k = 5 then
    if w4 < 2 then (all, false) else if w4 = 2 then (maskOf 0 5, false) else (0, false)
  else if k = 6 then
    if o < 0x10000 then (if 2 ≤ w4 then (all, true) else (0, false))
    else if w8 = 0 then (maskOf 0 27 ||| v63, false) else if w8 = 1 then (all, false)
    else if w8 = 2 then (maskOf 0 16 ||| maskOf 32 32, false) else (all, true)
  else if k = 7 then
    if w16 = 0 then (maskOf 43 21, false) else if w16 < 3 then (all, false) else if w16 = 3 then (maskOf 0 32, false)
    else if w16 = 4 then (all, false) else if w16 = 5 then (maskOf 32 32, false) else if w16 < 12 then (all, true) else (0, false)
  else if k = 8 then (if w2 = 0 then (maskOf 0 10, false) else (maskOf 0 32, false))
  else if k = 9 then
    let i := o % 0x10000 / 32
    if w4 = 0 then (all, false) else if w4 = 1 then (maskOf 0 54 ||| v63, false)
    else if w4 = 2 then
      (if i < 512 then maskOf 0 28 ||| v63 else if i < 640 then maskOf 0 33 ||| v63
       else if i < 656 then maskOf 0 12 ||| v63 else 0, false)
    else (if 640 ≤ i ∧ i < 656 then maskOf 0 24 else 0, false)
  else if k = 10 then
    if o < 0x4000 then (maskOf 0 29 ||| v63, false)
    else if o < 0x4100 then (if w2 = 0 then (maskOf 0 23 ||| v63, false) else (0, false))
    else if 0x8000 ≤ o ∧ o < 0xc000 then (all, false)
    else if 0x10000 ≤ o ∧ o < 0x20000 then (if w4 = 2 then (maskOf 0 48, false) else (all, true))
    else if 0x20000 ≤ o ∧ o < 0x28000 then (all, true)
    else if 0x30000 ≤ o ∧ o < 0x40000 then (all, false) else (0, false)
  else if o < 0x4000 then
    (if w4 = 0 then maskOf 0 45 ||| v63 else if w4 = 1 then maskOf 0 32 else maskOf 0 40, false)
  else if o < 0x5000 then
    (if w8 < 2 then all else if w8 = 2 then maskOf 0 23 ||| maskOf 24 13 else 0, false)
  else if o < 0x6000 then (if w4 = 0 then all else if w4 = 1 then maskOf 0 19 ||| v63 else 0, false)
  else if o < 0x8000 then (if w2 = 0 then maskOf 0 12 ||| maskOf 16 16 ||| maskOf 62 2 else 0, false)
  else
    (if w4 = 0 then maskOf 0 27 ||| maskOf 32 14 ||| v63 else if w4 = 2 then maskOf 0 16 ||| maskOf 32 32 else all, false)

/-- The state of a meter (Table 4.11): a write can only clear MARK_ALL_RED, and YELLOW and RED by R11. -/
def meterWrite (d : Dev) (a : Nat) (v : W64) : Dev :=
  let m := (a - 0x02800000) / 32
  if (a - 0x02800000) / 8 % 4 = 1 ∧ !bit v 63 then
    { d with meters := kvPut d.meters m { kvD d.meters m {} with red := false } }
  else d

/-- An accepted write of a word of a table window: sealed entries belong to the Scarab (R166), shadow tables are frozen from the
acceptance of a commit to the end of its refill (R55). -/
def winWrite (d : Dev) (m : Master) (a : Nat) (v : W64) : Dev :=
  let pg := winPage a
  let k := (a - 0x01000000) / 0x400000
  let mask := (winLayout a).1
  let counter := (winLayout a).2
  if sealedAddr d a && m != .scarab then accessErr d (masterCode m) 3 true 3 a
  else if (winLen k).2 && shadowFrozen d pg then conflict d pg 5
  else if counter then (if v = 0 then twr d a 0 else d)
  else if 0x02800000 ≤ a ∧ a < 0x02810000 then meterWrite d a v
  else twr d a (v &&& mask)

/-! ### The bus -/

/-- A write to BAR2 (R319, Table 12.2), which the model places at 0x0400_0000 of the host's addresses (log 22): doorbells and the MSI-X
table; the pending bits are read-only, the rest is reserved. -/
def bar2Write (d : Dev) (addr width : Nat) (v : W64) : Dev :=
  let o := addr - bar2Base
  if d.fcn.safe then d
  else if width ≠ 3 ∨ addr % 8 ≠ 0 then accessErr d (masterCode .host) 1 true width addr
  else if o < 0x100 then doorbellOp d (o / 0x10) (o % 0x10 == 8) v
  else if 0x1000 ≤ o ∧ o < 0x1400 then msixWrite d (o - 0x1000) v
  else d

/-- A write of 2^width bytes by a master (R9, R41, R69, R72, R427, R514): a page of a gated quay is restored first (R306). -/
def busWrite (mem : List Host.Cell) (d : Dev) (m : Master) (addr width : Nat) (v : W64) : Dev :=
  if m = .host ∧ inBar2 addr then bar2Write d addr width v else
  let pg? := if 0x01000000 ≤ addr then (winHit addr).map fun _ => winPage addr else pageOf addr
  let d1 := match pg? with
    | some pg => if d.fcn.safe then d else quayTouch d pg
    | none => d
  guarded d1 m addr width fun d =>
    if 0x01000000 ≤ addr then winWrite d m addr v
    else match pg? with
    | some pg => regWrite mem d m pg (addr % 0x1000) v
    | none => d

/-- A 64-bit write of the register at an offset of a page. -/
def pageWrite (mem : List Host.Cell) (d : Dev) (m : Master) (pg : Page) (off : Nat) (v : W64) : Dev :=
  busWrite mem d m (pg.base + off) 3 v

end Sys2Proof.Machine
end

