-- ==== Sys2Proof/Machine/External.lean ====
section
/-! DEFINITION. What reaches the register space from outside a processor: bursts of the Lighter (R342 to R345), SPI (R331, R332), in-band
management (R333, R334), the debug-module interface (R434, R443, R444), and completion timeouts of PCIe (R320). -/

namespace Sys2Proof.Machine

/-- How many access errors the command has met so far. -/
def errsOf (d : Dev) : Nat := (d.evq.filter fun e => e.src == 69).length

/-- The master of a code (Table 2.12). -/
def masterOf (code : Nat) : Master :=
  if code = 0 then .scarab else if code = 1 then .app else if code = 2 then .host else if code = 3 then .spi
  else if code = 4 then .inband else if code = 5 then .lighter else .debug

/-! ### Bursts of the Lighter -/

/-- Errors that an access of the Lighter met carry its own code (Table 2.12), whatever rights it ran with. -/
def asLighter (d0 d1 : Dev) : Dev :=
  if rd d0 .chip 0x110 = 0 ∧ rd d1 .chip 0x110 ≠ 0 then wf d1 .chip 0x108 0 3 5 else d1

/-- The octets of a memory target that exists (Table 14.4): base address and size. -/
def ltMem (t : Nat) : Nat × Nat := if t = 1 then (0x10000000, 0x180000) else (0x20000000, 0x200000)

/-- Word k of a range that stays at its address or not. -/
def ltAt (a k : Nat) (fixed : Bool) : Nat := if fixed then a else a + 8 * k

/-- Whether octets of a memory target can be reached: inside the memory, its domain up. -/
def ltMemOk (d : Dev) (a n : Nat) (fixed : Bool) : Bool :=
  domUp d (ltDomain a) && decide (a % 2 ^ 60 + (if fixed then 8 else n) ≤ (ltMem (a / 2 ^ 60)).2)

/-- An error of a host target (R320). -/
def ltHostErr (d : Dev) : Dev := irq (cnt d (.host 0) 0x98 1) (.host 0) 1

/-- The words that a burst reads from registers, in address order. -/
def ltReadRegs (mem : List Host.Cell) (m : Master) (a : Nat) (fixed : Bool) : Nat → Nat → Dev → List Byte × Dev
  | 0, _, d => ([], d)
  | n + 1, k, d =>
    let (v, d1) := readOp mem d m (ltAt a k fixed) 3
    let (l, d2) := ltReadRegs mem m a fixed n (k + 1) d1
    (wordBytes v ++ l, d2)

/-- What a burst of n octets reads; none: it fails. -/
def ltFetch (mem : List Host.Cell) (d : Dev) (m : Master) (a n : Nat) (fixed : Bool) (hostData : Option (List Byte)) :
    Option (List Byte) × Dev :=
  let t := a / 2 ^ 60
  let o := a % 2 ^ 60
  if t = 0 then
    let (l, d1) := ltReadRegs mem m o fixed (n / 8) 0 d
    (if errsOf d1 = errsOf d then some l else none, asLighter d d1)
  else if t = 3 then
    let d1 := emit d (.hostRead o (if fixed then 8 else n))
    match hostData with
    | some l => (some (if fixed then (List.replicate (n / 8) (fitLen 8 l)).flatten else fitLen n l), d1)
    | none => (none, ltHostErr d1)
  else if !ltMemOk d a n fixed then (none, d)
  else
    let at0 := (ltMem t).1 + o
    (some (if fixed then (List.replicate (n / 8) (memRead mem at0 8)).flatten else memRead mem at0 n), d)

/-- Words written to registers, up to the first that meets an access error: the error of that word alone stays, with nothing written. -/
def ltWriteRegs (mem : List Host.Cell) (d0 : Dev) (m : Master) (a : Nat) (fixed : Bool) : List Byte → Nat → Nat → Dev → Option Unit × Dev
  | _, 0, _, d => (some (), d)
  | l, n + 1, k, d =>
    let w := bytesWord (l.take 8)
    let d1 := busWrite mem d m (ltAt a k fixed) 3 w
    if errsOf d1 = errsOf d then ltWriteRegs mem d0 m a fixed (l.drop 8) n (k + 1) d1
    else (none, busWrite mem d0 m (ltAt a k fixed) 3 w)

/-- What a burst writes; none: it fails (R345). -/
def ltStore (mem : List Host.Cell) (d : Dev) (m : Master) (a n : Nat) (fixed : Bool) (l : List Byte) : Option Unit × Dev :=
  let t := a / 2 ^ 60
  let o := a % 2 ^ 60
  let words := (List.range (n / 8)).map fun k => (ltAt o k fixed, slice l (8 * k) 8)
  if t = 0 then
    let (r, d1) := ltWriteRegs mem d m o fixed l (n / 8) 0 d
    (r, asLighter d d1)
  else if t = 3 then
    (some (), if fixed then words.foldl (fun d w => emit d (.hostWrite w.1 w.2)) d else emit d (.hostWrite o l))
  else if !ltMemOk d a n fixed then (none, d)
  else
    (some (), { d with memOut := d.memOut ++ (if fixed then words.map fun w => ((ltMem t).1 + w.1, w.2) else [((ltMem t).1 + o, l)]) })

/-- Host memory can be reached: Bus Master Enable, the endpoint's domain up (R320); otherwise the transfer waits. -/
def ltHostReady (d : Dev) (a : Nat) : Bool := a / 2 ^ 60 != 3 || (rb d (.host 0) 0x80 7 && domUp d 11)

/-- The channel that the round robin grants moves one burst (R342 to R345). -/
def lighterBurstOp (mem : List Host.Cell) (d : Dev) (c : Nat) (hostData : Option (List Byte)) : Dev :=
  let cfg := ltRd d c 0x18
  let src := (ltRd d c 0).toNat
  let dst := (ltRd d c 8).toNat
  if ltGrant d ≠ some c ∨ !ltHostReady d src ∨ !ltHostReady d dst then d
  else
    let n := ltBurstLen d c
    let m := masterOf (kvD d.host.ltMaster c 5)
    match ltFetch mem d m src n (bit cfg 14) hostData with
    | (none, d1) => ltEnd d1 c 0 3 cfg
    | (some l, d1) =>
      match ltStore mem d1 m dst n (bit cfg 15) l with
      | (none, d2) => ltEnd d2 c 0 3 cfg
      | (some _, d2) => ltMoved d2 c n

/-- A memory request times out (R320): its queue or its channel hears of it. -/
def pcieTimeoutOp (d : Dev) (r : PcieRequester) : Dev :=
  match r with
  | .txQueue q => txErrorOp d (QueueRef.idx q)
  | .rxQueue q => rxErrorOp d (QueueRef.idx q)
  | .lighter c =>
    if ltState d c.val = 1 ∧ (ltRd d c.val 0).toNat / 2 ^ 60 = 3 then ltEnd (ltHostErr d) c.val 0 3 (ltRd d c.val 0x18) else d

/-! ### SPI -/

/-- SPI is served: HOST_SPI_CTRL.EN (R331), with PD_PCIE ON (R504). -/
def spiOn (d : Dev) : Bool := rb d (.host 0) 0x88 0 && domCond d 11 == 1

/-- The words of an SPI read, each with its status (Table 12.8). -/
def spiReads (mem : List Host.Cell) : Nat → Nat → Dev → List Byte × Dev
  | 0, _, d => ([], d)
  | n + 1, a, d =>
    let (v, d1) := if spiOn d then readOp mem d .spi a 3 else (0, d)
    let st := if !spiOn d then 2 else if errsOf d1 = errsOf d then 0 else 1
    let (l, d2) := spiReads mem n (a + 8) d1
    (wordBytes v ++ leBytes 1 st ++ l, d2)

/-- The words of an SPI write, in order. -/
def spiWrites (mem : List Host.Cell) (l : List Byte) : Nat → Nat → Dev → Dev
  | 0, _, d => d
  | n + 1, a, d => spiWrites mem (l.drop 8) n (a + 8) (busWrite mem d .spi a 3 (bytesWord (l.take 8)))

/-- A transaction on SPI (R331, R332): the octets shifted in, and the words read. An opcode of neither kind has no effect. -/
def spiOp (mem : List Host.Cell) (d : Dev) (mosi : List Byte) (words : Nat) : Dev :=
  let op := octetAt mosi 0
  let a := beNat (slice mosi 1 4)
  if op = 0x0B ∧ 5 ≤ mosi.length then
    let (l, d1) := spiReads mem words a d
    emit d1 (.spi ([0, 0] ++ l))
  else if op = 0x02 ∧ spiOn d then
    let body := mosi.take (mosi.length - 1)
    if mosi.length < 6 ∨ mosi.length % 8 ≠ 6 ∨ crc8 body ≠ octetAt mosi (mosi.length - 1) then cnt d (.host 0) 0x90 1
    else spiWrites mem (body.drop 5) ((mosi.length - 6) / 8) a d
  else d

/-! ### In-band management -/

/-- The slot that MBOX_INB_CTRL.KEY_SLOT names. -/
def inbSlot (d : Dev) : Nat := rf d (.mbox 0) 0x88 8 8

/-- The key of in-band management: its slot holds an AES key with USE_VERIFY and USE_SIGN. -/
def inbKey (d : Dev) : Option (List Byte) :=
  if slotUsable d (inbSlot d) 3 [1, 2] && slotUsable d (inbSlot d) 2 [1, 2] then some (slotValue (slotOf d (inbSlot d))) else none

/-- The tag over the octets from VERSION to the end of DATA, under the IV that SEQ gives (R333). -/
def inbTag (key l : List Byte) : List Byte := gmac key (List.replicate 4 0 ++ slice l 4 8) l

/-- An answer (Table 12.9): OP + 0x80, STATUS, the current EPOCH with the counter of the request, ADDR, DATA. -/
def inbAnswer (d : Dev) (hdr : List Byte) (status : Nat) (data : List Byte) : Dev :=
  match inbKey d with
  | none => d
  | some key =>
    let l := [1, BitVec.ofNat 8 (octetAt hdr 1 + 0x80)] ++ beBytes 2 status ++ beBytes 4 d.host.inbEpoch ++ slice hdr 8 4 ++ slice hdr 12 8 ++ data
    emit d (.inband (l ++ inbTag key l))

/-- Words read for an OP 1 request; none after an access error. -/
def inbReads (mem : List Host.Cell) : Nat → Nat → Dev → Option (List Byte) × Dev
  | 0, _, d => (some [], d)
  | n + 1, a, d =>
    let (v, d1) := readOp mem d .inband a 3
    if errsOf d1 ≠ errsOf d then (none, d1)
    else
      let (l, d2) := inbReads mem n (a + 8) d1
      (l.map (beBytes 8 v.toNat ++ ·), d2)

/-- Words written for an OP 2 request, up to the first access error. -/
def inbWrites (mem : List Host.Cell) (l : List Byte) : Nat → Nat → Dev → Bool × Dev
  | 0, _, d => (true, d)
  | n + 1, a, d =>
    let d1 := busWrite mem d .inband a 3 (bytesWord ((l.take 8).reverse))
    if errsOf d1 ≠ errsOf d then (false, d1) else inbWrites mem (l.drop 8) n (a + 8) d1

/-- Octets appended to the request buffer of channel 2, eight at a time (R335). -/
def inbPost (l : List Byte) : Nat → Dev → Dev
  | 0, d => d
  | n + 1, d => inbPost (l.drop 8) n (mboxReqOp d 2 (bytesWord (fitLen 8 l)))

/-- An accepted request is served (Table 12.9). -/
def inbServe (mem : List Host.Cell) (d : Dev) (l data : List Byte) : Dev :=
  let op := octetAt l 1
  let n := beNat (slice l 2 2)
  let a := beNat (slice l 12 8)
  let hdr := l.take 20
  if !rb d (.mbox 0) 0x88 0 then inbAnswer d hdr 4 []
  else if op = 1 then
    match inbReads mem n a d with
    | (some w, d1) => inbAnswer d1 hdr 0 w
    | (none, d1) => inbAnswer d1 hdr 3 []
  else if op = 2 then
    let (ok, d1) := inbWrites mem data n a d
    inbAnswer d1 hdr (if ok then 0 else 3) []
  else if mboxState d 2 ≠ 0 then inbAnswer (mboxRingOp d .scarab 2) hdr 3 []
  else
    let d1 := mboxRingOp (inbPost data ((n + 7) / 8) d) .scarab 2
    { d1 with host := { d1.host with inbWait := some hdr } }

/-- A request from VERSION to TAG (R333, R334): rejected, answered with STATUS 2, or served (log 58). -/
def inbandOp (mem : List Host.Cell) (d : Dev) (l : List Byte) : Dev :=
  let op := octetAt l 1
  let n := beNat (slice l 2 2)
  let body := l.take (l.length - 16)
  let size := if op = 1 then 0 else if op = 2 then 8 * n else n
  let formed := decide (36 ≤ l.length ∧ octetAt l 0 = 1 ∧ 1 ≤ op ∧ op ≤ 3 ∧ 1 ≤ n ∧ (op = 3 ∨ n ≤ 64) ∧ l.length = 36 + size)
  let good := match inbKey d with
    | some key => formed && inbTag key body == l.drop (l.length - 16)
    | none => false
  let reject := cnt d (.host 0) 0xa0 1
  if !firmwareRuns d then d
  else if !good then reject
  else
    let ctr := beNat (slice l 8 4)
    let fresh : Bool := match d.host.inbLast with | some k => decide (k < ctr) | none => true
    if beNat (slice l 4 4) ≠ d.host.inbEpoch ∨ !fresh then inbAnswer reject (l.take 20) 2 []
    else inbServe mem { d with host := { d.host with inbLast := some ctr } } l (body.drop 20)

/-- The response to an OP 3 request is complete: the firmware takes it, acknowledges the channel and answers. -/
def inbSettle (d : Dev) : Dev :=
  match d.host.inbWait with
  | none => d
  | some hdr =>
    if mboxState d 2 ≠ 2 then d
    else
      let l := (mbox d 2).resp
      inbAnswer (mboxAckOp { d with host := { d.host with inbWait := none } } 2) hdr 0 l

/-! ### The debug-module interface -/

/-- A request on DMI while the device is awake: what the state permits (Table 16.1); what it does not permit is ignored and reported, an
empty answer. The content of core state and trace is not part of this model: free values (log 59). -/
def dmiNow (mem : List Host.Cell) (d : Dev) (r : DmiReq) : Dev :=
  let no := emit d (.tdo [])
  let level := dbgLevel d
  match r with
  | .trace => if level = 0 then no else let (x, d1) := freeNat d; emit d1 (.tdo (leBytes 8 x))
  | .readCore _ => if level = 0 then no else let (x, d1) := freeNat d; emit d1 (.tdo (leBytes 8 x))
  | .readReg a =>
    if level = 0 then no
    else
      let (v, d1) := readOp mem d .debug a 3
      emit d1 (.tdo (wordBytes v))
  | .writeReg a v => if level = 2 then busWrite mem d .debug a 3 v else no
  | .invasive core => if mayInvade d core.val then invasiveOp d core.val else no

/-- Whether the chip sleeps and an access of the debug port wakes it: P3 or P4 in LC_TEST (R444). -/
def dmiWakes (d : Dev) : Bool := decide (3 ≤ pwrState d) && !d.fcn.safe && lcOf d == 1

/-- An access of the debug port waits for the exit that it requests (R444). -/
def dmiWait (d : Dev) (r : Option DmiReq) : Dev :=
  setDbg (exitRequest d false (rf d .dbg 0x90 1 3)) fun x => { x with waits := x.waits ++ [r] }

/-- DMI (R434): LC_SCRAP serves BYPASS. -/
def dmiOp (mem : List Host.Cell) (d : Dev) (r : DmiReq) : Dev :=
  if scrap d ∨ tapOff d then bypassOp d
  else if dmiWakes d then dmiWait (tapLoad d 0) (some r)
  else dmiNow mem (tapLoad d 0) r

/-- DBG_CHAL (R436): asleep it answers 0xFE, or waits for the exit (R444). Without firmware nothing answers but the safe state's status. -/
def dbgChalOp (d : Dev) : Dev :=
  if scrap d ∨ tapOff d then bypassOp d
  else if dmiWakes d then dmiWait (tapLoad d 0) none
  else if tapAsleep d then emit (tapLoad d 0) (.tdo [0xFE])
  else if !firmwareRuns d then tapLoad d 0 else tapChallenge (tapLoad d 0)

/-- Accesses that waited are answered once the exit is done (R444). -/
def dmiSettle (mem : List Host.Cell) (d : Dev) : Dev :=
  if d.dbg.waits = [] ∨ 3 ≤ pwrState d ∨ d.fcn.safe then d
  else
    let d1 := setDbg d fun x => { x with waits := [] }
    d.dbg.waits.foldl (fun d r => match r with
      | some q => dmiNow mem d q
      | none => if firmwareRuns d then tapChallenge d else d) d1

end Sys2Proof.Machine
end

