-- ==== Sys2Proof/WellFormed.lean ====
section
/-! DEFINITION. Which commands can arrive at the device: each check names what an operand must satisfy. -/

namespace Sys2Proof

/-- Whether a page of Table 2.1 exists: ports 26 to 28 have page 0 only. -/
def Page.Exists : Page → Bool
  | .port p i => p.val < 26 || i.val == 0
  | _ => true

/-- The lengths that a DLC field can carry (Tables 8.2, 8.4 and the CAN XL length code). -/
def canLens (f : CanFrame) : Nat :=
  if f.xlf then f.dlc + 1
  else if f.dlc ≤ 8 then f.dlc
  else if !f.fdf then 8
  else if f.dlc = 9 then 12 else if f.dlc = 10 then 16 else if f.dlc = 11 then 20 else if f.dlc = 12 then 24
  else if f.dlc = 13 then 32 else if f.dlc = 14 then 48 else 64

/-- A CAN frame as it can lie on a bus: identifier and DLC in range, data as long as the DLC says. -/
def CanFrame.ok (f : CanFrame) : Bool :=
  decide (f.id < 2 ^ (if f.ide then 29 else 11)) && decide (f.dlc < (if f.xlf then 2048 else 16))
    && (f.rtr && f.data.length == 0 || !f.rtr && f.data.length == canLens f)
    && decide (f.sdt < 256 ∧ f.vcid < 256 ∧ f.af < 2 ^ 32 ∧ f.fv < 256)

/-- A LIN frame as it can lie on a bus. -/
def LinFrame.ok (f : LinFrame) : Bool := decide (f.fid < 64 ∧ 1 ≤ f.data.length ∧ f.data.length ≤ 8)

/-- A queue pair that exists (chapter 12): 16 of port H, 8 of port C. -/
def QueueRef.ok (q : QueueRef) : Bool := !q.portC || decide (q.q.val < 8)

/-- What the Buoy decodes is a CAN frame, or an error. -/
def Decoded.ok : Decoded → Bool
  | .valid f => f.ok
  | .error => true

/-- A requester that exists. -/
def PcieRequester.ok : PcieRequester → Bool
  | .txQueue q => q.ok
  | .rxQueue q => q.ok
  | .lighter _ => true

/-- Whether the operands of a command spell something that can arrive at the device. -/
def Instr.ok : Instr → Bool
  | .registerWrite _ _ _ w _ => decide (w ≤ 3)
  | .tableWindowWrite _ _ _ w _ => decide (w ≤ 3)
  | .registerRead _ _ _ w => decide (w ≤ 3)
  | .apertureDrainRead _ _ _ w => decide (w ≤ 3)
  | .errForce _ _ pg _ => pg.Exists
  | .irqForce _ _ pg _ => pg.Exists
  | .pageLock _ _ pg => pg.Exists
  | .blockEnable _ _ pg => pg.Exists
  | .blockDisable _ _ pg => pg.Exists
  | .blockQuiesced _ pg => pg.Exists
  | .blockSoftReset _ _ pg => pg.Exists
  | .softResetEnd _ pg => pg.Exists
  | .resetTimeout _ pg => pg.Exists
  | .freeze _ _ pg _ => pg.Exists
  | .commitImmediate _ _ pg _ => pg.Exists
  | .tideJoin _ _ pg _ _ => pg.Exists
  | .commitSwitch _ pg => pg.Exists
  | .mirrorRefillEnd _ pg => pg.Exists
  | .signaturePass _ pg => pg.Exists
  | .resetShadowClose _ pg => pg.Exists
  | .canFrameReceived _ _ f _ => f.ok
  | .buoyFrameDecoded _ _ r => r.ok
  | .linFrameReceived _ _ f _ _ => f.ok
  | .txDoorbell _ q _ => q.ok
  | .rxDoorbell _ q _ => q.ok
  | .pcieReadCompletion _ q _ => q.ok
  | .pcieCompletionTimeout _ r => r.ok
  | .coalesceTimeout _ q _ => q.ok
  | .hostQueueEnable _ _ q _ _ => q.ok
  | .claimRoundEnd _ bus => bus.length == 8
  | .headerWindowComplete _ _ f => decide (f.octets.length ≤ 16384)
  | .linkUp _ _ speed _ _ _ => decide (speed ≤ 6)
  | _ => true

/-- A command that can arrive at the device. -/
abbrev WellFormed (i : Instr) : Prop := i.ok = true

end Sys2Proof
end

