-- ==== Sys2Proof/Machine/Run.lean ====
section
/-! DEFINITION. How a command runs: time passes up to its instant, its own effect happens, and then what follows from it at once: taps,
events of the Fault Concentrator, records, pins of transceivers, clusters, power states, the pair; what it wrote to the memories lands. -/

namespace Sys2Proof.Machine

/-! ### Transceiver pins (R222, R223) -/

/-- The source that commands a pin and the level it commands: safe state, or the halt of LC_SCRAP at its levels (log 207), keeper's fail-safe, a sequence of the Buoy, the register. -/
def xcvrPin (d : Dev) (seq : Option Bool) (standby : Bool) : Nat × Bool :=
  if d.fcn.safe || scrap d then (3, false)
  else if rb d (.buoy 0) 0x288 2 then (2, false)
  else match seq with
  | some lv => (1, lv)
  | none => (0, !standby)

/-- The pin and SRC of a transceiver register, and XCVR_CHANGE where the page has that bit. -/
def xcvrPut (d : Dev) (pg : Page) (off : Nat) (seq : Option Bool) (irqBit : Option Nat) : Dev :=
  let (src, lv) := xcvrPin d seq (rb d pg off 0)
  if rb d pg off 8 = lv ∧ rf d pg off 9 2 = src then d
  else
    let d1 := wf (wb d pg off 8 lv) pg off 9 2 src
    match irqBit with
    | some b => if rf d pg off 9 2 ≠ src ∧ domUp d pg.domain then irq d1 pg b else d1
    | none => d1

/-- Every STB_N and SLP_N pin takes the level of its highest source. -/
def xcvrSettle (d : Dev) : Dev :=
  let d1 := (List.range 24).foldl (fun d k => xcvrPut d (canPg k) 0xb0 (can d k).seqLevel (some 4)) d
  (List.range 8).foldl (fun d l => xcvrPut d (linPg l) 0x98 (lin d l).seqLevel none) d1

/-! ### What follows a command at once -/

/-- Taps enter the FIFO of the XWE (R259). -/
def tapSettle (d : Dev) : Dev := d.tapQ.foldl tapEnter { d with tapQ := [] }

/-- What follows a command; `before`: the clusters before it. -/
def settle (before : List (Nat × Cluster)) (mem : List Host.Cell) (d : Dev) : Dev :=
  let d1 := fcnSettle 8 (tapSettle d)
  let d2 := dmiSettle mem (inbSettle d1)
  let d3 := pairSettle (pwrSettle (buoySettle before d2))
  let d4 := fcnSettle 8 (manSettle (fcnSettle 8 (xcvrSettle d3)))
  pruneRetired (manSettle d4)

/-! ### Decisions at their decision points (R105) -/

/-- The immediate commits that are due by an instant, each with the instant of its switch, the earliest first (R57). -/
def dueCommits (d : Dev) (t : Instant) : List (Instant × Page) :=
  if d.commitAt = [] then []
  else
    let l := allPages.filterMap fun pg => match kvGet d.commitAt pg.base with
      | some a => if pg != .buoy 0 && decide (switchDue pg a ≤ t) then some (switchDue pg a, pg) else none
      | none => none
    l.foldr (fun x acc => acc.filter (fun y => y.1 < x.1) ++ x :: acc.filter fun y => !decide (y.1 < x.1)) []

/-- The device at an instant, with every switch behind it that acts on a frame decided then: immediate commits (R57) and Tides (R65). -/
def switchedAt (d : Dev) (t : Instant) : Dev :=
  let d1 := (dueCommits d t).foldl (fun d x => commitSwitchOp (moveTo d x.1) x.2) d
  (List.range 8).foldl tideFireOp (moveTo d1 t)

/-- The header in the pipelines that is decided next: the earliest entry, in ascending quay order within a cycle (R124, R135). -/
def pipeNext (d : Dev) : Option (Nat × Instant × ReadyHdr) :=
  [0, 1, 2, 3].foldl (fun m n => match (quay d n).pipe.head?, m with
    | some (e, h), some (_, e0, _) => if e < e0 then some (n, e, h) else m
    | some (e, h), none => some (n, e, h)
    | none, _ => m) none

/-- The decision of a header that entered quay n at e. -/
def decideAt (d : Dev) (n : Nat) (e : Instant) (h : ReadyHdr) : Dev :=
  let d1 := switchedAt d (e + 19)
  let q := quay d1 n
  let d2 := setQuay d1 n { q with pipe := q.pipe.filter (·.2.fid != h.fid) }
  match h.pres with
  | some p => decidedFerry d2 e h p
  | none => decidedEth d2 n e h

/-- The decisions whose decision points come by an instant, in order; at most k of them. -/
def decideDue (t : Instant) : Nat → Dev → Dev
  | 0, d => d
  | k + 1, d => match pipeNext d with
    | some (n, e, h) => if e + 19 ≤ t then decideDue t k (decideAt d n e h) else d
    | none => d

/-- Every decision that is due by an instant; their taps enter the FIFO in the order of the decision points (R259). -/
def decided (d : Dev) (t : Instant) : Dev :=
  tapSettle (decideDue t (([0, 1, 2, 3].map fun n => (quay d n).pipe.length).sum) d)

/-- The device at the instant of a command: time has passed, what left at the last command is gone, the steps of an exit or edge check
that have come are done (R312, R314), the frames whose decision points have come are decided, and those whose timestamp points have
passed are stamped (R215). -/
def devAt (d : Dev) (t : Instant) : Dev := stampsDue (moveTo (decided (powerDue t 8 { d with out := [], memOut := [] }) t) t)

/-! ### Commands -/

/-- The state after a command at instant `t` whose own effect left the device `d`: what follows at once has happened, and what was
written to the memories has landed after `w`, the command's own effect on them. -/
def landedM (t : Instant) (s : State) (w : Dev → List Host.Cell → List Host.Cell) (d : Dev) : State :=
  let d1 := settle (devAt s.dev t).buoy.cl s.mem d
  { s with dev := { d1 with memOut := [] }, mem := memWrites (w d1 s.mem) d1.memOut }

/-- The state after a command that reaches the memories only by what its effect writes. -/
def landed (t : Instant) (s : State) (d : Dev) : State := landedM t s (fun _ m => m) d

/-- A command at an instant: `f` is its effect on the device, `w` what it does to the memories beside `f`'s writes. -/
def runM (t : Instant) (f : List Host.Cell → Dev → Dev) (w : Dev → Dev → List Host.Cell → List Host.Cell) (s : State) : State :=
  landedM t s (w (devAt s.dev t)) (f s.mem (devAt s.dev t))

/-- A command that reaches the memories only by what its effect writes. -/
def run (t : Instant) (f : List Host.Cell → Dev → Dev) (s : State) : State := landed t s (f s.mem (devAt s.dev t))

/-- A command that can always arrive: its next state. -/
def cmd (t : Instant) (f : List Host.Cell → Dev → Dev) (s : State) : Host.Outcome State Fault Refusal := .next (run t f s)

/-- A command with operands that may spell nothing that can arrive at the device: then only time passes (log 165). -/
def cmdIf (ok : Bool) (t : Instant) (f : List Host.Cell → Dev → Dev) (s : State) : Host.Outcome State Fault Refusal :=
  .next (run t (fun mem d => if ok then f mem d else d) s)

/-- A command with an effect of its own on the memories. -/
def cmdM (t : Instant) (f : List Host.Cell → Dev → Dev) (w : Dev → Dev → List Host.Cell → List Host.Cell) (s : State) :
    Host.Outcome State Fault Refusal := .next (runM t f w s)

/-! ### Register accesses that commands stand for -/

/-- A write by a master; a host's access in P3 requests an exit (R316). -/
def masterWrite (mem : List Host.Cell) (d : Dev) (m : Master) (addr width : Nat) (v : W64) : Dev :=
  busWrite mem (if m = .host then hostAccessOp d else d) m addr width v

/-- A read by a master. -/
def masterRead (mem : List Host.Cell) (d : Dev) (m : Master) (addr width : Nat) : Dev :=
  busRead mem (if m = .host then hostAccessOp d else d) m addr width

/-- A 64-bit write of a register of a page. -/
def regPut (mem : List Host.Cell) (d : Dev) (m : Master) (pg : Page) (off : Nat) (v : W64) : Dev :=
  masterWrite mem d m (pg.base + off) 3 v

/-- The fields of a register that keep their value when software writes back what it read: rw, rws, rwd and rwl. -/
def keepBits (pg : Page) (off : Nat) : W64 :=
  match pg.rowAt off with
  | some r => r.bits fun k => k == .rw || k == .rws || k == .rwd || k == .rwl
  | none => 0

/-- Some bits of a register are written as 1 or 0, its other writable fields as they are. -/
def regBits (mem : List Host.Cell) (d : Dev) (m : Master) (pg : Page) (off : Nat) (set clear : W64) : Dev :=
  regPut mem d m pg off (((rd d pg off &&& keepBits pg off) ||| set) &&& ~~~clear)

/-- A doorbell (R321): of port H in BAR2, of port C on SCARAB page 1. -/
def doorbell (mem : List Host.Cell) (d : Dev) (q : QueueRef) (rx : Bool) (v : W64) : Dev :=
  if q.portC then regPut mem d .scarab (.scarab 1) (0x800 + q.q.val * 0x10 + (if rx then 8 else 0)) v
  else masterWrite mem d .host (bar2Base + q.q.val * 0x10 + (if rx then 8 else 0)) 3 v

/-! ### Sorts of port (R177, R240, R324) -/

/-- The next selection of a port: an Ethernet port, port H or C, or port 28. `op`: the transmit opportunity that begins (R87). -/
def selectOp (d : Dev) (p : Nat) (e : EccEvent) (op : Option Nat) : Dev :=
  if p < 26 then selectTurn d p e op else if p < 28 then selectHost d p e else selectFerry d e

/-- A quay admits its next ready header to its pipeline (R102), of a port or of the Ferry; a frame whose decision point has passed is
decided at once. -/
def entryOp (d : Dev) (n : Nat) : Dev :=
  if !canEnter d n then d
  else match nextReady (quay d n) with
  | none => d
  | some h => decided (if h.pres.isSome then entryFerry d h else admitHeader d n (entryCycle d n h) h) d.now

end Sys2Proof.Machine
end

