-- ==== Sys2Proof/Machine/ExecDebug.lean ====
section
/-! DEFINITION. Commands of debug, the redundant pair, boot and update, and resets of the chip (chapters 16 to 19). -/

namespace Sys2Proof.Machine

/-- DBG_CHALLENGE (R436): the message staged on the channel is started. -/
def execDbgChallenge (t : Instant) (ch : Fin 4) (s : State) : Host.Outcome State Fault Refusal :=
  cmd t (fun _ d => dbgChallengeOp d ch.val) s

/-- DBG_UNLOCK (R437): the message staged on the channel is started. -/
def execDbgUnlock (t : Instant) (ch : Fin 4) (s : State) : Host.Outcome State Fault Refusal :=
  cmd t (fun _ d => dbgUnlockOp d ch.val) s

/-- EXTEST (R435): the TAP instruction EXTEST with the boundary-scan register. -/
def execExtest (t : Instant) (bsr : List Bool) (s : State) : Host.Outcome State Fault Refusal :=
  cmd t (fun _ d => extestOp d bsr) s

/-- IDCODE (R435): the TAP instruction IDCODE. -/
def execIdcode (t : Instant) (s : State) : Host.Outcome State Fault Refusal :=
  cmd t (fun _ d => idcodeOp d) s

/-- SAMPLE_PRELOAD (R435): the TAP instruction SAMPLE/PRELOAD. -/
def execSamplePreload (t : Instant) (bsr : List Bool) (s : State) : Host.Outcome State Fault Refusal :=
  cmd t (fun _ d => sampleOp d bsr) s

/-- CLAMP (R435): the TAP instruction CLAMP. -/
def execClamp (t : Instant) (s : State) : Host.Outcome State Fault Refusal :=
  cmd t (fun _ d => clampOp d) s

/-- DBG_CHAL (R436): the TAP instruction DBG_CHAL. -/
def execDbgChal (t : Instant) (s : State) : Host.Outcome State Fault Refusal :=
  cmd t (fun _ d => dbgChalOp d) s

/-- DBG_TOKEN (R437): the TAP instruction DBG_TOKEN with a token. -/
def execDbgToken (t : Instant) (octets : List Byte) (s : State) : Host.Outcome State Fault Refusal :=
  cmd t (fun _ d => tapTokenOp d octets) s

/-- DBG_CLOSE (R438): the TAP instruction DBG_CLOSE. -/
def execDbgClose (t : Instant) (s : State) : Host.Outcome State Fault Refusal :=
  cmd t (fun _ d => tapCloseOp d) s

/-- DMI (R434): the TAP instruction DMI. -/
def execDmi (t : Instant) (r : DmiReq) (s : State) : Host.Outcome State Fault Refusal :=
  cmd t (fun mem d => dmiOp mem d r) s

/-- BYPASS (R435): the TAP instruction BYPASS. -/
def execBypass (t : Instant) (s : State) : Host.Outcome State Fault Refusal :=
  cmd t (fun _ d => bypassOp d) s

/-- DBG_CTRL_CLOSE (R438): DBG_CTRL.CLOSE written. -/
def execDbgCtrlClose (t : Instant) (m : Master) (s : State) : Host.Outcome State Fault Refusal :=
  cmd t (fun mem d => regBits mem d m .dbg 0x90 1 0) s

/-- DBG_SESSION_EXPIRY (R438): a millisecond tick of local time. -/
def execDbgSessionExpiry (t : Instant) (s : State) : Host.Outcome State Fault Refusal :=
  cmd t (fun _ d => sessionExpiryOp d) s

/-- DBG_NONCE_EXPIRY (R436): 60 s have passed since the nonce was drawn. -/
def execDbgNonceExpiry (t : Instant) (s : State) : Host.Outcome State Fault Refusal :=
  cmd t (fun _ d => dbgNonceOp d) s

/-- DBG_LOCKOUT_END (R439): 60 s have passed since the lockout began. -/
def execDbgLockoutEnd (t : Instant) (s : State) : Host.Outcome State Fault Refusal :=
  cmd t (fun _ d => lockoutEndOp d) s

/-- CLAIM_ROUND_START (R450): a start bit begins a round. -/
def execClaimRoundStart (t : Instant) (s : State) : Host.Outcome State Fault Refusal :=
  cmd t (fun _ d => roundStartOp d) s

/-- CLAIM_ROUND_END (R451): the sampled levels of bits 1 to 8 (true: dominant). -/
def execClaimRoundEnd (t : Instant) (bus : List Bool) (s : State) : Host.Outcome State Fault Refusal :=
  cmdIf (bus.length == 8) t (fun _ d => roundEndOp d bus) s

/-- PAIR_KICK (R455): PAIR_KICK.KICK written. -/
def execPairKick (t : Instant) (m : Master) (s : State) : Host.Outcome State Fault Refusal :=
  cmd t (fun mem d => regPut mem d m (.pair 0) 0x90 1) s

/-- HEARTBEAT_SEND (R455): 20 µs have passed since the last heartbeat instant. -/
def execHeartbeatSend (t : Instant) (s : State) : Host.Outcome State Fault Refusal :=
  cmd t (fun _ d => hbSendOp d) s

/-- HEARTBEAT_RECEIVED (R456): a heartbeat payload arrives on a path. -/
def execHeartbeatReceived (t : Instant) (path : Fin 2) (octets : List Byte) (s : State) : Host.Outcome State Fault Refusal :=
  cmd t (fun _ d => hbRxOp d path.val octets) s

/-- HEARTBEAT_MISS (R456): a further 20 µs have passed on the path without an accepted heartbeat. -/
def execHeartbeatMiss (t : Instant) (path : Fin 2) (s : State) : Host.Outcome State Fault Refusal :=
  cmd t (fun _ d => hbMissOp d path.val) s

/-- DIGEST_INTERVAL_CLOSE (R462): 100 µs after the end of a digest interval; SYNC of the domain in both units. -/
def execDigestIntervalClose (t : Instant) (syncOk : Bool) (s : State) : Host.Outcome State Fault Refusal :=
  cmd t (fun _ d => digestCloseOp d syncOk) s

/-- ROT_BANK_ADVANCE (R463): 5 ms have passed in the rotation. -/
def execRotBankAdvance (t : Instant) (s : State) : Host.Outcome State Fault Refusal :=
  cmd t (fun _ d => rotAdvanceOp d) s

/-- ROT_BANK_TEST (R463): the withdrawn bank is free and has been tested; a failing cell. -/
def execRotBankTest (t : Instant) (failing : Option Nat) (s : State) : Host.Outcome State Fault Refusal :=
  cmd t (fun _ d => rotTestOp d failing) s

/-- OFFLINE_TEST (R464): PAIR_CMD.OFFLINE_TEST written. -/
def execOfflineTest (t : Instant) (m : Master) (s : State) : Host.Outcome State Fault Refusal :=
  cmd t (fun mem d => regPut mem d m (.pair 0) 0x98 1) s

/-- OFFLINE_TEST_END (R464): the offline test ends. -/
def execOfflineTestEnd (t : Instant) (s : State) : Host.Outcome State Fault Refusal :=
  cmd t (fun _ d => offlineEnd d) s

/-- PAIR_STATUS (R468): the message staged on the channel is started. -/
def execPairStatus (t : Instant) (ch : Fin 4) (s : State) : Host.Outcome State Fault Refusal :=
  cmd t (fun _ d => pairStatusOp d ch.val) s

/-- PAIR_YIELD (R468): the message staged on the channel is started. -/
def execPairYield (t : Instant) (ch : Fin 4) (s : State) : Host.Outcome State Fault Refusal :=
  cmd t (fun _ d => pairYieldOp d ch.val) s

/-- YIELD_CLAIM_RELEASE (R468): step 2 of Table 17.5. -/
def execYieldClaimRelease (t : Instant) (s : State) : Host.Outcome State Fault Refusal :=
  cmd t (fun _ d => yieldReleaseOp d) s

/-- PAIR_NONCE_EXPIRY (R468): 60 s have passed since the PAIR_STATUS nonce was drawn. -/
def execPairNonceExpiry (t : Instant) (s : State) : Host.Outcome State Fault Refusal :=
  cmd t (fun _ d => pairNonceOp d) s

/-- UPD_OPEN (R484): the message staged on the channel is started. -/
def execUpdOpen (t : Instant) (ch : Fin 4) (s : State) : Host.Outcome State Fault Refusal :=
  cmd t (fun _ d => updOpenOp d ch.val) s

/-- UPD_BLOCK (R487): the message staged on the channel is started; whether the block reads back as it was written. -/
def execUpdBlock (t : Instant) (x : BlockStart) (s : State) : Host.Outcome State Fault Refusal :=
  cmd t (fun _ d => updBlockOp d x.ch.val x.readOk) s

/-- UPD_FINISH (R488): the message staged on the channel is started; how the MRAM words of the body read (R37). -/
def execUpdFinish (t : Instant) (x : ReadStart) (s : State) : Host.Outcome State Fault Refusal :=
  cmd t (fun mem d => updFinishOp mem d x.ch.val x.ecc) s

/-- UPD_ACTIVATE (R489): the message staged on the channel is started; how the MRAM words of the header read (R37). -/
def execUpdActivate (t : Instant) (x : ReadStart) (s : State) : Host.Outcome State Fault Refusal :=
  cmd t (fun mem d => updActivateOp mem d x.ch.val x.ecc) s

/-- UPD_ABORT (R486): the message staged on the channel is started. -/
def execUpdAbort (t : Instant) (ch : Fin 4) (s : State) : Host.Outcome State Fault Refusal :=
  cmd t (fun _ d => updAbortOp d ch.val) s

/-- UPD_CONFIRM (R480): UPD_CONFIRM.GO written. -/
def execUpdConfirm (t : Instant) (m : Master) (s : State) : Host.Outcome State Fault Refusal :=
  cmd t (fun mem d => regPut mem d m .upd 0xb8 1) s

/-- CONFIRM_TIMEOUT (R480): CONFIRM_MS has passed since hand-over. -/
def execConfirmTimeout (t : Instant) (s : State) : Host.Outcome State Fault Refusal :=
  cmd t (fun _ d => confirmTimeoutOp d) s

/-- UPD_LOCK_TIMEOUT (R486): 5 s have passed without an accepted update command. -/
def execUpdLockTimeout (t : Instant) (s : State) : Host.Outcome State Fault Refusal :=
  cmd t (fun _ d => updTimeoutOp d) s

/-- ACTIVATION_RESET (R489): 10 ms after an UPD_ACTIVATE with MODE 1. -/
def execActivationReset (t : Instant) (s : State) : Host.Outcome State Fault Refusal :=
  cmd t (fun _ d => activationOp d) s

/-- BOOT_SELECT (R479): the ROM chooses an image; how the MRAM words that it reads read (R37). -/
def execBootSelect (x : BootStart) (s : State) : Host.Outcome State Fault Refusal :=
  cmdM x.at0 (fun mem d => bootSelectOp mem d x.ecc)
    (fun d0 d1 m => if d0.car.lcNext.isSome ∧ d1.car.lcNext.isNone then wipeSram m else m) s

/-- POWER_ON_RESET (R499): PORST_N or power-up. -/
def execPowerOnReset (t : Instant) (straps : Straps) (s : State) : Host.Outcome State Fault Refusal :=
  cmdM t (fun _ d => powerOnResetOp d straps)
    (fun d0 _ m => if d0.fcn.safe then m else wipeSram m) s

/-- RESET_N (R499): RESET_N low. -/
def execResetN (t : Instant) (s : State) : Host.Outcome State Fault Refusal :=
  cmd t (fun _ d => resetNOp d) s

/-- PCIE_PERST_N (R499): PCIE_PERST_N low. -/
def execPciePerstN (t : Instant) (s : State) : Host.Outcome State Fault Refusal :=
  cmd t (fun _ d => perstOp d) s

/-- POWER_UP_TIMEOUT (R496): 10.2 ms without all supplies in regulation. -/
def execPowerUpTimeout (t : Instant) (s : State) : Host.Outcome State Fault Refusal :=
  cmd t (fun _ d => powerUpTimeoutOp d) s

/-- SUPPLY_LOSS (R497): the switched supplies (false) or VDD_AON_IN (true) are lost; VBAT holds or not. -/
def execSupplyLoss (t : Instant) (aon : Bool) (vbatOk : Bool) (s : State) : Host.Outcome State Fault Refusal :=
  cmdM t (fun _ d => supplyLossOp d aon vbatOk)
    (fun _ _ m => wipeSram m) s

end Sys2Proof.Machine
end

