-- ==== Sys2Proof/Machine/ExecEdge.lean ====
section
/-! DEFINITION. Commands of the Ferry, the edge buses and the Cross-Witness Engine (chapters 8 and 9). -/

namespace Sys2Proof.Machine

/-- CAN_FRAME_RECEIVED (R228): a frame of another node ends its ACK delimiter. -/
def execCanFrameReceived (t : Instant) (k : Fin 24) (f : CanFrame) (sof : Instant) (s : State) : Host.Outcome State Fault Refusal :=
  cmdIf (f.ok) t (fun _ d => canRxOp d k.val f sof) s

/-- FERRY_START (R240): the Ferry takes its next ready work; how its message RAM reads (R227). -/
def execFerryStart (t : Instant) (e : EccEvent) (s : State) : Host.Outcome State Fault Refusal :=
  cmd t (fun _ d => ferryStartOp d e) s

/-- FERRY_VERDICT_RETURN (R243): the oldest DECIDE or CARRY presentation has its verdicts. -/
def execFerryVerdictReturn (t : Instant) (s : State) : Host.Outcome State Fault Refusal :=
  cmd t (fun _ d => verdictReturnOp d) s

/-- AGG_WINDOW_CLOSE (R250): a closing condition of the stream's window holds. -/
def execAggWindowClose (t : Instant) (i : Fin 64) (s : State) : Host.Outcome State Fault Refusal :=
  cmd t (fun _ d => aggCloseOp d i.val) s

/-- CARRIER_RECEIVED (R253): Quay 3 hands the head copy of port 28 to the Ferry. -/
def execCarrierReceived (t : Instant) (s : State) : Host.Outcome State Fault Refusal :=
  cmd t (fun _ d => carrierReceivedOp d) s

/-- CAN_LATE_ERROR (R248): an error in the first six bits of the end-of-frame field; the channels on which a copy of the frame is being transmitted. -/
def execCanLateError (t : Instant) (k : Fin 24) (onBus : List (Fin 24)) (s : State) : Host.Outcome State Fault Refusal :=
  cmd t (fun _ d => lateErrorOp d k.val onBus) s

/-- CAN_ARBITRATION_LOST (R229): the frame in transmission loses arbitration. -/
def execCanArbitrationLost (t : Instant) (_k : Fin 24) (s : State) : Host.Outcome State Fault Refusal :=
  cmd t (fun _ d => d) s

/-- CAN_TX_COMPLETE (R229): the frame in transmission since `x.sof` is complete and acknowledged; how its blocks in the message RAM read (R227). -/
def execCanTxComplete (t : Instant) (k : Fin 24) (x : CanSent) (s : State) : Host.Outcome State Fault Refusal :=
  cmd t (fun _ d => canTxCompleteOp d k.val x.sof x.ecc) s

/-- CAN_BUS_ERROR (R230): a bus error, seen as transmitter or as receiver. -/
def execCanBusError (t : Instant) (k : Fin 24) (e : CanErr) (transmitter : Bool) (s : State) : Host.Outcome State Fault Refusal :=
  cmd t (fun _ d => canBusErrorOp d k.val e transmitter) s

/-- CAN_TX_AGE_EXPIRY (R229): a pending frame reaches TX_MAX_AGE_MS; the start of the transmission in progress, if any. -/
def execCanTxAgeExpiry (t : Instant) (k : Fin 24) (sof : Option Instant) (s : State) : Host.Outcome State Fault Refusal :=
  cmd t (fun _ d => canAgeOp d k.val sof) s

/-- CAN_RECOVER (R230): CAN_CMD.RECOVER written. -/
def execCanRecover (t : Instant) (m : Master) (k : Fin 24) (s : State) : Host.Outcome State Fault Refusal :=
  cmd t (fun mem d => regPut mem d m (.can k) 0xb8 1) s

/-- BUS_OFF_RECOVERY (R230): 128 occurrences of 11 recessive bits have been seen. -/
def execBusOffRecovery (t : Instant) (k : Fin 24) (s : State) : Host.Outcome State Fault Refusal :=
  cmd t (fun _ d => busOffRecoveryOp d k.val) s

/-- CAN_PROTOCOL_EXCEPTION (R231): a reserved bit or an unsupported format. -/
def execCanProtocolException (t : Instant) (k : Fin 24) (s : State) : Host.Outcome State Fault Refusal :=
  cmd t (fun _ d => protocolExceptionOp d k.val) s

/-- BUS_INTEGRATION_END (R231): bus integration is complete. -/
def execBusIntegrationEnd (t : Instant) (k : Fin 24) (s : State) : Host.Outcome State Fault Refusal :=
  cmd t (fun _ d => integrationEndOp d k.val) s

/-- CAN_XCVR_FAULT (R232): RXD stayed recessive for 16 dominant transmitted bits. -/
def execCanXcvrFault (t : Instant) (k : Fin 24) (s : State) : Host.Outcome State Fault Refusal :=
  cmd t (fun _ d => xcvrFaultOp d k.val) s

/-- LIN_SLOT_START (R236): the master's next slot begins. -/
def execLinSlotStart (t : Instant) (l : Fin 8) (s : State) : Host.Outcome State Fault Refusal :=
  cmd t (fun _ d => linSlotOp d l.val) s

/-- LIN_HEADER_RECEIVED (R235): a slave receives a header. -/
def execLinHeaderReceived (t : Instant) (l : Fin 8) (fid : Fin 64) (baud : Nat) (s : State) : Host.Outcome State Fault Refusal :=
  cmd t (fun _ d => linHeaderOp d l.val fid.val baud) s

/-- LIN_FRAME_RECEIVED (R238): a response of another node completes. -/
def execLinFrameReceived (t : Instant) (l : Fin 8) (f : LinFrame) (e : Option LinErr) (start : Instant) (s : State) : Host.Outcome State Fault Refusal :=
  cmdIf (f.ok) t (fun _ d => linRxOp d l.val f e start) s

/-- LIN_NO_RESPONSE (R238): 1.4 times the nominal length has passed. -/
def execLinNoResponse (t : Instant) (l : Fin 8) (s : State) : Host.Outcome State Fault Refusal :=
  cmd t (fun _ d => linNoRespOp d l.val) s

/-- LIN_GOTO_SLEEP (R239): LIN_CMD.GOTO_SLEEP written. -/
def execLinGotoSleep (t : Instant) (m : Master) (l : Fin 8) (s : State) : Host.Outcome State Fault Refusal :=
  cmd t (fun mem d => regPut mem d m (.lin l) 0x90 1) s

/-- LIN_WAKE (R239): LIN_CMD.WAKE written. -/
def execLinWake (t : Instant) (m : Master) (l : Fin 8) (s : State) : Host.Outcome State Fault Refusal :=
  cmd t (fun mem d => regPut mem d m (.lin l) 0x90 2) s

/-- LIN_RESUME (R239): RESUME_MS has passed after a wake. -/
def execLinResume (t : Instant) (l : Fin 8) (s : State) : Host.Outcome State Fault Refusal :=
  cmd t (fun _ d => linResumeOp d l.val) s

/-- LIN_WAKE_RX (R239): a wake pulse is received with PD_EDGE on. -/
def execLinWakeRx (t : Instant) (l : Fin 8) (s : State) : Host.Outcome State Fault Refusal :=
  cmd t (fun _ d => linWakeRxOp d l.val) s

/-- LIN_BUS_STUCK (R239): the RX line was dominant for 20 ms. -/
def execLinBusStuck (t : Instant) (l : Fin 8) (s : State) : Host.Outcome State Fault Refusal :=
  cmd t (fun _ d => linStuckOp d l.val) s

/-- FERRY_STALL (R240): ready work has waited more than 10 µs. -/
def execFerryStall (t : Instant) (s : State) : Host.Outcome State Fault Refusal :=
  cmd t (fun _ d => ferryStallOp d) s

/-- XWE_TAP_PROCESS (R260): the XWE takes its next tap. -/
def execXweTapProcess (t : Instant) (s : State) : Host.Outcome State Fault Refusal :=
  cmd t (fun _ d => xweTapOp d) s

/-- XWE_TICK (R267): a multiple of TICK_MS in the time of a domain (4: local time). -/
def execXweTick (t : Instant) (dom : Fin 5) (s : State) : Host.Outcome State Fault Refusal :=
  cmd t (fun _ d => xweTickOp d dom.val) s

end Sys2Proof.Machine
end

