-- ==== Sys2Proof/Machine/ExecForwarding.lean ====
section
/-! DEFINITION. Commands of the pipeline, Breakwater and the egress side (chapters 4 to 6). -/

namespace Sys2Proof.Machine

/-- PIPELINE_ENTRY (R102): the quay admits its next ready header. -/
def execPipelineEntry (t : Instant) (q : Fin 4) (s : State) : Host.Outcome State Fault Refusal :=
  cmd t (fun _ d => entryOp d q.val) s

/-- AGING_SWEEP (R115): the MAC/VLAN aging sweep. -/
def execAgingSweep (t : Instant) (s : State) : Host.Outcome State Fault Refusal :=
  cmd t (fun _ d => agingOp d) s

/-- SF_BLOCKED_CLEAR (R120): QUAY_SF_STATE written. -/
def execSfBlockedClear (t : Instant) (m : Master) (q : Fin 4) (v : W64) (s : State) : Host.Outcome State Fault Refusal :=
  cmd t (fun mem d => regPut mem d m (.quay q 0) 0xc0 v) s

/-- FRER_RESET (R125): RESET_MS has passed without a passed frame. -/
def execFrerReset (t : Instant) (fn : Fin 1024) (s : State) : Host.Outcome State Fault Refusal :=
  cmd t (fun _ d => frerResetOp d fn.val) s

/-- FLOW_SWEEP (R156): the flow sweep visits the table. -/
def execFlowSweep (t : Instant) (s : State) : Host.Outcome State Fault Refusal :=
  cmd t (fun _ d => flowSweepOp d) s

/-- FLOW_DELETE (R158): BWT_FLOW_CMD written with OP 1. -/
def execFlowDelete (t : Instant) (m : Master) (v : W64) (s : State) : Host.Outcome State Fault Refusal :=
  cmd t (fun mem d => regPut mem d m (.bwt 0) 0xb8 (setFld v 0 3 1)) s

/-- FLOW_FLUSH_ALL (R158): BWT_FLOW_CMD written with OP 2. -/
def execFlowFlushAll (t : Instant) (m : Master) (v : W64) (s : State) : Host.Outcome State Fault Refusal :=
  cmd t (fun mem d => regPut mem d m (.bwt 0) 0xb8 (setFld v 0 3 2)) s

/-- FLOW_FLUSH_ZONE (R158): BWT_FLOW_CMD written with OP 3. -/
def execFlowFlushZone (t : Instant) (m : Master) (v : W64) (s : State) : Host.Outcome State Fault Refusal :=
  cmd t (fun mem d => regPut mem d m (.bwt 0) 0xb8 (setFld v 0 3 3)) s

/-- FLOW_FLUSH_RULE (R158): BWT_FLOW_CMD written with OP 4. -/
def execFlowFlushRule (t : Instant) (m : Master) (v : W64) (s : State) : Host.Outcome State Fault Refusal :=
  cmd t (fun mem d => regPut mem d m (.bwt 0) 0xb8 (setFld v 0 3 4)) s

/-- FLOW_FLUSH_END (R158): the flush reaches the last bucket. -/
def execFlowFlushEnd (t : Instant) (s : State) : Host.Outcome State Fault Refusal :=
  cmd t (fun _ d => flushEndOp d) s

/-- DIAG_TOKEN (R164): the message staged on the channel is started. -/
def execDiagToken (t : Instant) (ch : Fin 4) (s : State) : Host.Outcome State Fault Refusal :=
  cmd t (fun _ d => diagTokenOp d ch.val) s

/-- DIAG_CLOSE (R165): the message staged on the channel is started. -/
def execDiagClose (t : Instant) (ch : Fin 4) (s : State) : Host.Outcome State Fault Refusal :=
  cmd t (fun _ d => mboxDiagCloseOp d ch.val) s

/-- BWT_DIAG_CLOSE (R165): BWT_DIAG_s_CTRL.CLOSE written. -/
def execBwtDiagClose (t : Instant) (m : Master) (i : Fin 4) (s : State) : Host.Outcome State Fault Refusal :=
  cmd t (fun mem d => regBits mem d m (.bwt 1) (0x110 + i.val * 0x18) 2 0) s

/-- DIAG_SESSION_EXPIRY (R165): a millisecond tick of local time. -/
def execDiagSessionExpiry (t : Instant) (i : Fin 4) (s : State) : Host.Outcome State Fault Refusal :=
  cmd t (fun _ d => diagExpireOp d i.val) s

/-- PORT_SELECTION (R177): the port's transmitter can accept the next frame; how the buffer cells of the selected copy read (R16, R18); of an S port, the PLCA transmit opportunity that begins, where one does (R87). -/
def execPortSelection (t : Instant) (p : Fin 29) (x : Selection) (s : State) : Host.Outcome State Fault Refusal :=
  cmd t (fun _ d => selectOp d p.val x.ecc x.op) s

/-- TRANSMIT_END (R176): the frame in transmission has left; how the rest of its buffer cells read (R16, R18). -/
def execTransmitEnd (t : Instant) (p : Fin 29) (e : EccEvent) (s : State) : Host.Outcome State Fault Refusal :=
  cmd t (fun _ d => endTx d p.val e) s

/-- GATE_EVENT (R182): an entry of the operational gate list takes effect. -/
def execGateEvent (t : Instant) (p : Fin 27) (s : State) : Host.Outcome State Fault Refusal :=
  cmd t (fun _ d => gateEventOp d p.val) s

/-- GCL_CONFIG_CHANGE (R186): the configuration change time is reached. -/
def execGclConfigChange (t : Instant) (p : Fin 27) (s : State) : Host.Outcome State Fault Refusal :=
  cmd t (fun _ d => gateConfigOp d p.val) s

/-- SHAPER_SLOT_RELEASE (R192): a fine slot of the wheel is reached. -/
def execShaperSlotRelease (t : Instant) (q : Fin 4) (s : State) : Host.Outcome State Fault Refusal :=
  cmd t (fun _ d => slotReleaseOp d q.val) s

/-- COARSE_SLOT_MOVE (R192): the last fine slot before a coarse interval. -/
def execCoarseSlotMove (t : Instant) (q : Fin 4) (s : State) : Host.Outcome State Fault Refusal :=
  cmd t (fun _ d => coarseMoveOp d q.val) s

/-- SHAPER_BUCKET_EVAL (R193): the bucket-mode shapers are re-evaluated. -/
def execShaperBucketEval (t : Instant) (q : Fin 4) (s : State) : Host.Outcome State Fault Refusal :=
  cmd t (fun _ d => bucketEvalOp d q.val) s

/-- SAMPLING_PASS (R196): a multiple of PERIOD_US is reached. -/
def execSamplingPass (t : Instant) (q : Fin 4) (s : State) : Host.Outcome State Fault Refusal :=
  cmd t (fun _ d => samplingOp d q.val) s

/-- CBS_CREDIT_RECOVERED (R189): the credit of the class rises to 0. -/
def execCbsCreditRecovered (t : Instant) (p : Fin 26) (tc : Fin 8) (s : State) : Host.Outcome State Fault Refusal :=
  cmd t (fun _ d => cbsOne d p.val tc.val) s

end Sys2Proof.Machine
end

