-- ==== Sys2Proof/Machine/ExecHost.lean ====
section
/-! DEFINITION. Commands of the host port, SPI, in-band management, the mailbox channels and the Lighter (chapter 12). -/

namespace Sys2Proof.Machine

/-- TX_DOORBELL (R321): the TX doorbell of a queue pair written. -/
def execTxDoorbell (t : Instant) (q : QueueRef) (v : W64) (s : State) : Host.Outcome State Fault Refusal :=
  cmdIf (q.ok) t (fun mem d => doorbell mem d q false v) s

/-- RX_DOORBELL (R321): the RX doorbell of a queue pair written. -/
def execRxDoorbell (t : Instant) (q : QueueRef) (v : W64) (s : State) : Host.Outcome State Fault Refusal :=
  cmdIf (q.ok) t (fun mem d => doorbell mem d q true v) s

/-- PCIE_READ_COMPLETION (R320): a read completion for the queue pair. -/
def execPcieReadCompletion (t : Instant) (q : QueueRef) (c : Completion) (s : State) : Host.Outcome State Fault Refusal :=
  cmdIf (q.ok) t (fun _ d => completionOp d (QueueRef.idx q) c) s

/-- PCIE_COMPLETION_TIMEOUT (R320): a memory request times out. -/
def execPcieCompletionTimeout (t : Instant) (r : PcieRequester) (s : State) : Host.Outcome State Fault Refusal :=
  cmdIf (r.ok) t (fun _ d => pcieTimeoutOp d r) s

/-- COALESCE_TIMEOUT (R328): COAL_US has passed. -/
def execCoalesceTimeout (t : Instant) (q : QueueRef) (isRx : Bool) (s : State) : Host.Outcome State Fault Refusal :=
  cmdIf (q.ok) t (fun _ d => coalesceOp d (QueueRef.idx q) isRx) s

/-- HOST_QUEUE_ENABLE (R322): a queue CFG register written with EN = 1. -/
def execHostQueueEnable (t : Instant) (m : Master) (q : QueueRef) (isRx : Bool) (v : W64) (s : State) : Host.Outcome State Fault Refusal :=
  cmdIf (q.ok) t
    (fun mem d => regPut mem d m (if q.portC then .scarab 1 else .host 1) (0x108 + q.q.val * 0x40 + (if isRx then 0x20 else 0)) (setBit v 4 true)) s

/-- PCIE_LINK_CHANGE (R318): the PCIe link changes state. -/
def execPcieLinkChange (t : Instant) (k : PcieLink) (s : State) : Host.Outcome State Fault Refusal :=
  cmd t (fun _ d => pcieLinkOp d k) s

/-- SPI_TRANSACTION (R332): the octets shifted in between the edges of SPI_CS_N, and the words read. -/
def execSpiTransaction (t : Instant) (mosi : List Byte) (words : Nat) (s : State) : Host.Outcome State Fault Refusal :=
  cmd t (fun mem d => spiOp mem d mosi words) s

/-- INBAND_REQUEST (R334): an in-band frame, from VERSION to TAG. -/
def execInbandRequest (t : Instant) (octets : List Byte) (s : State) : Host.Outcome State Fault Refusal :=
  cmd t (fun mem d => inbandOp mem d octets) s

/-- MBOX_REQ_WRITE (R335): a 64-bit write in the request aperture. -/
def execMboxReqWrite (t : Instant) (m : Master) (ch : Fin 4) (v : W64) (s : State) : Host.Outcome State Fault Refusal :=
  cmd t (fun mem d => regPut mem d m (mboxPg ch.val) 0x800 v) s

/-- MBOX_RING (R336): MBOX_CH_CTRL.RING written. -/
def execMboxRing (t : Instant) (m : Master) (ch : Fin 4) (s : State) : Host.Outcome State Fault Refusal :=
  cmd t (fun mem d => regPut mem d m (mboxPg ch.val) 0x80 1) s

/-- MBOX_ACK (R336): MBOX_CH_CTRL.ACK written. -/
def execMboxAck (t : Instant) (m : Master) (ch : Fin 4) (s : State) : Host.Outcome State Fault Refusal :=
  cmd t (fun mem d => regPut mem d m (mboxPg ch.val) 0x80 2) s

/-- VERSION (R337): the message staged on the channel is started. -/
def execVersion (t : Instant) (ch : Fin 4) (s : State) : Host.Outcome State Fault Refusal :=
  cmd t (fun _ d => versionOp d ch.val) s

/-- LIGHTER_ARM (R340): LT_SH_ARM.ARM written. -/
def execLighterArm (t : Instant) (m : Master) (c : Fin 32) (s : State) : Host.Outcome State Fault Refusal :=
  cmd t (fun mem d => regPut mem d m (ltPg c.val) (ltOff c.val 0x60) 1) s

/-- LIGHTER_HANDOVER (R341): an armed shadow set meets the idle active set. -/
def execLighterHandover (t : Instant) (c : Fin 32) (s : State) : Host.Outcome State Fault Refusal :=
  cmd t (fun _ d => ltHandoverOp d c.val) s

/-- LIGHTER_BURST (R342): the channel is granted one burst; the octets a host source answers (none: an error completion). -/
def execLighterBurst (t : Instant) (c : Fin 32) (hostData : Option (List Byte)) (s : State) : Host.Outcome State Fault Refusal :=
  cmd t (fun mem d => lighterBurstOp mem d c.val hostData) s

/-- LIGHTER_STOP (R344): LT_CMD.STOP written. -/
def execLighterStop (t : Instant) (m : Master) (c : Fin 32) (s : State) : Host.Outcome State Fault Refusal :=
  cmd t (fun mem d => regPut mem d m (ltPg c.val) (ltOff c.val 0x20) 2) s

/-- LIGHTER_RESUME (R344): LT_CMD.RESUME written. -/
def execLighterResume (t : Instant) (m : Master) (c : Fin 32) (s : State) : Host.Outcome State Fault Refusal :=
  cmd t (fun mem d => regPut mem d m (ltPg c.val) (ltOff c.val 0x20) 4) s

/-- LIGHTER_ABORT_NOW (R344): LT_CMD.ABORT_NOW written. -/
def execLighterAbortNow (t : Instant) (m : Master) (c : Fin 32) (s : State) : Host.Outcome State Fault Refusal :=
  cmd t (fun mem d => regPut mem d m (ltPg c.val) (ltOff c.val 0x20) 1) s

end Sys2Proof.Machine
end

