-- ==== Sys2Proof/Machine/ExecPages.lean ====
section
/-! DEFINITION. Commands on pages, commits, Tide slots, resets, scrub and clock monitors (chapters 1, 2 and 15). -/

namespace Sys2Proof.Machine

/-- REGISTER_WRITE (R513): a write of 2^width bytes by master m. -/
def execRegisterWrite (t : Instant) (m : Master) (addr : Nat) (width : Nat) (v : W64) (s : State) : Host.Outcome State Fault Refusal :=
  cmdIf (decide (width ≤ 3)) t (fun mem d => masterWrite mem d m addr width v) s

/-- TABLE_WINDOW_WRITE (R514): a write of 2^width bytes to a table window. -/
def execTableWindowWrite (t : Instant) (m : Master) (addr : Nat) (width : Nat) (v : W64) (s : State) : Host.Outcome State Fault Refusal :=
  cmdIf (decide (width ≤ 3)) t (fun mem d => masterWrite mem d m addr width v) s

/-- ERR_FORCE (R50): a write of ERR_FORCE of the page. -/
def execErrForce (t : Instant) (m : Master) (pg : Page) (v : W64) (s : State) : Host.Outcome State Fault Refusal :=
  cmdIf (pg.Exists) t (fun mem d => regPut mem d m pg 0x48 v) s

/-- IRQ_FORCE (R49): a write of IRQ_FORCE of the page. -/
def execIrqForce (t : Instant) (m : Master) (pg : Page) (v : W64) (s : State) : Host.Outcome State Fault Refusal :=
  cmdIf (pg.Exists) t (fun mem d => regPut mem d m pg 0x38 v) s

/-- PAGE_LOCK (R71): a write of PG_LOCK.LOCK = 1. -/
def execPageLock (t : Instant) (m : Master) (pg : Page) (s : State) : Host.Outcome State Fault Refusal :=
  cmdIf (pg.Exists) t (fun mem d => regPut mem d m pg 0x60 1) s

/-- BLOCK_ENABLE (R46): a write of PG_CTRL.ENABLE = 1. -/
def execBlockEnable (t : Instant) (m : Master) (pg : Page) (s : State) : Host.Outcome State Fault Refusal :=
  cmdIf (pg.Exists) t (fun mem d => regBits mem d m pg 0x10 1 0) s

/-- BLOCK_DISABLE (R46): a write of PG_CTRL.ENABLE = 0. -/
def execBlockDisable (t : Instant) (m : Master) (pg : Page) (s : State) : Host.Outcome State Fault Refusal :=
  cmdIf (pg.Exists) t (fun mem d => regBits mem d m pg 0x10 0 1) s

/-- BLOCK_QUIESCED (R46): the disabled block has ended its unit of work. -/
def execBlockQuiesced (t : Instant) (pg : Page) (s : State) : Host.Outcome State Fault Refusal :=
  cmdIf (pg.Exists) t (fun _ d => quiescePage d pg) s

/-- BLOCK_SOFT_RESET (R20): PG_CTRL.SRST written by a master, or a request of the FCN (none). -/
def execBlockSoftReset (t : Instant) (m : Option Master) (pg : Page) (s : State) : Host.Outcome State Fault Refusal :=
  cmdIf (pg.Exists) t (fun mem d => match m with | some m => regBits mem d m pg 0x10 2 0 | none => softResetOp d pg) s

/-- SOFT_RESET_END (R20): the soft reset of the page's block ends. -/
def execSoftResetEnd (t : Instant) (pg : Page) (s : State) : Host.Outcome State Fault Refusal :=
  cmdIf (pg.Exists) t (fun _ d => softResetEndOp d pg) s

/-- RESET_TIMEOUT (R21): 100 µs have passed since the start of a soft reset. -/
def execResetTimeout (t : Instant) (pg : Page) (s : State) : Host.Outcome State Fault Refusal :=
  cmdIf (pg.Exists) t (fun _ d => resetTimeoutOp d pg) s

/-- FREEZE (R47): a write of PG_CTRL.FREEZE. -/
def execFreeze (t : Instant) (m : Master) (pg : Page) (on : Bool) (s : State) : Host.Outcome State Fault Refusal :=
  cmdIf (pg.Exists) t (fun mem d => regBits mem d m pg 0x10 (if on then 4 else 0) (if on then 0 else 4)) s

/-- COMMIT_IMMEDIATE (R54): CFG_COMMIT written with MODE = 0. -/
def execCommitImmediate (t : Instant) (m : Master) (pg : Page) (gen : BitVec 32) (s : State) : Host.Outcome State Fault Refusal :=
  cmdIf (pg.Exists) t (fun mem d => regPut mem d m pg 0x58 (mkWord [(0, gen.toNat)])) s

/-- TIDE_JOIN (R62): CFG_COMMIT written with MODE = 1. -/
def execTideJoin (t : Instant) (m : Master) (pg : Page) (gen : BitVec 32) (slot : Fin 8) (s : State) : Host.Outcome State Fault Refusal :=
  cmdIf (pg.Exists) t (fun mem d => regPut mem d m pg 0x58 (mkWord [(0, gen.toNat), (32, 1), (33, slot.val)])) s

/-- COMMIT_SWITCH (R57): the switch point of an accepted immediate commit. -/
def execCommitSwitch (t : Instant) (pg : Page) (s : State) : Host.Outcome State Fault Refusal :=
  cmdIf (pg.Exists) t (fun _ d => commitSwitchOp d pg) s

/-- MIRROR_REFILL_END (R55): the refill of the page's shadow copies ends. -/
def execMirrorRefillEnd (t : Instant) (pg : Page) (s : State) : Host.Outcome State Fault Refusal :=
  cmdIf (pg.Exists) t (fun _ d => mirrorRefillEndOp d pg) s

/-- SIGNATURE_PASS (R61): a CRC pass of the page ends. -/
def execSignaturePass (t : Instant) (pg : Page) (s : State) : Host.Outcome State Fault Refusal :=
  cmdIf (pg.Exists) t (fun _ d => sigPassOp d pg) s

/-- TIDE_TIME_WRITE (R62): CHIP_TIDE_n_SEC or CHIP_TIDE_n_NS written. -/
def execTideTimeWrite (t : Instant) (m : Master) (slot : Fin 8) (isNs : Bool) (v : W64) (s : State) : Host.Outcome State Fault Refusal :=
  cmd t (fun mem d => regPut mem d m .chip (0x400 + slot.val * 0x20 + (if isNs then 8 else 0)) v) s

/-- TIDE_ARM (R63): CHIP_TIDE_n_CTRL written with ARM = 1. -/
def execTideArm (t : Instant) (m : Master) (slot : Fin 8) (v : W64) (s : State) : Host.Outcome State Fault Refusal :=
  cmd t (fun mem d => regPut mem d m .chip (0x410 + slot.val * 0x20) (setBit v 0 true)) s

/-- TIDE_CANCEL (R64): CHIP_TIDE_n_CTRL written with CANCEL = 1. -/
def execTideCancel (t : Instant) (m : Master) (slot : Fin 8) (v : W64) (s : State) : Host.Outcome State Fault Refusal :=
  cmd t (fun mem d => regPut mem d m .chip (0x410 + slot.val * 0x20) (setBit v 1 true)) s

/-- TIDE_FIRE (R65): the slot's domain has reached the Tide time. -/
def execTideFire (t : Instant) (slot : Fin 8) (s : State) : Host.Outcome State Fault Refusal :=
  cmd t (fun _ d => tideFireOp d slot.val) s

/-- SCRUB_ACCESS (R19): the scrub reads a word of an SRAM region of Table 1.6. -/
def execScrubAccess (t : Instant) (region : Fin 15) (word : Nat) (e : EccEvent) (s : State) : Host.Outcome State Fault Refusal :=
  cmd t (fun _ d => scrubOp d region.val word e) s

/-- FREE_CELL_TEST (R416): a free buffer cell of the quay's share is tested. -/
def execFreeCellTest (t : Instant) (q : Fin 4) (cell : Nat) (ok : Bool) (s : State) : Host.Outcome State Fault Refusal :=
  cmd t (fun _ d => freeCellOp d q.val cell ok) s

/-- QUAY_RESET (R24): a reset of the quay is requested by a master or by the FCN (none). -/
def execQuayReset (t : Instant) (m : Option Master) (q : Fin 4) (s : State) : Host.Outcome State Fault Refusal :=
  cmd t (fun mem d => match m with | some m => regBits mem d m (.quay q 0) 0x10 2 0 | none => quayResetOp d q.val) s

/-- QUAY_DRAIN_END (R24): the isolate-and-drain of the quay ends (Table 1.3, steps 4 to 6). -/
def execQuayDrainEnd (t : Instant) (q : Fin 4) (s : State) : Host.Outcome State Fault Refusal :=
  cmd t (fun _ d => quayDrainOp d q.val) s

/-- CLOCK_MONITOR_WINDOW (R34): the count of a clock over 64 cycles of CLK_BUOY, in the order of sources 8 to 14. -/
def execClockMonitorWindow (t : Instant) (clock : Fin 7) (count : Nat) (s : State) : Host.Outcome State Fault Refusal :=
  cmd t (fun _ d => clockWindowOp d clock.val count) s

/-- CLK_BUOY_MONITOR (R34): what the reverse monitor saw of CLK_BUOY: a stop, a deviation in parts per million. -/
def execClkBuoyMonitor (t : Instant) (stopped : Bool) (ppm : Nat) (s : State) : Host.Outcome State Fault Refusal :=
  cmd t (fun _ d => buoyMonitorOp d stopped ppm) s

/-- REGISTER_READ (R41): a read of 2^width bytes. -/
def execRegisterRead (t : Instant) (m : Master) (addr : Nat) (width : Nat) (s : State) : Host.Outcome State Fault Refusal :=
  cmdIf (decide (width ≤ 3)) t (fun mem d => masterRead mem d m addr width) s

/-- APERTURE_DRAIN_READ (R198): a read of 2^width bytes in a drain aperture. -/
def execApertureDrainRead (t : Instant) (m : Master) (addr : Nat) (width : Nat) (s : State) : Host.Outcome State Fault Refusal :=
  cmdIf (decide (width ≤ 3)) t (fun mem d => masterRead mem d m addr width) s

end Sys2Proof.Machine
end

