-- ==== Sys2Proof/Machine/ExecPorts.lean ====
section
/-! DEFINITION. Commands of ports and their media (chapter 3). -/

namespace Sys2Proof.Machine

/-- HEADER_WINDOW_COMPLETE (R101): the header window of a frame on port p is complete, or the frame is presented. -/
def execHeaderWindowComplete (t : Instant) (p : Fin 29) (f : EthFrame) (s : State) : Host.Outcome State Fault Refusal :=
  cmdIf (decide (f.octets.length ≤ 16384)) t (fun _ d => headerOp d p.val f) s

/-- FRAME_TAIL (R130): the last octet of the frame in reception on port p has arrived. -/
def execFrameTail (t : Instant) (p : Fin 26) (fcsOk : Bool) (s : State) : Host.Outcome State Fault Refusal :=
  cmd t (fun _ d => tailOp d p.val fcsOk) s

/-- PAUSE_RECEIVED (R73): a PAUSE frame with this pause time. -/
def execPauseReceived (t : Instant) (p : Fin 26) (quanta : Nat) (s : State) : Host.Outcome State Fault Refusal :=
  cmd t (fun _ d => pauseOp d p.val quanta) s

/-- PAUSE_EXPIRY (R176): the pause time runs out. -/
def execPauseExpiry (t : Instant) (p : Fin 26) (s : State) : Host.Outcome State Fault Refusal :=
  cmd t (fun _ d => pauseExpiryOp d p.val) s

/-- LINK_LOSS (R77): the port reports link loss; of a B port, whether the partner signals a remote fault (Table 3.5). -/
def execLinkLoss (t : Instant) (x : LostLink) (s : State) : Host.Outcome State Fault Refusal :=
  cmd t (fun _ d => linkLossOp d x.port.val x.remote) s

/-- LINK_UP (R79): the link is up at a speed coded as MAC_MODE.SPEED, with the PHY latency of that speed. -/
def execLinkUp (t : Instant) (p : Fin 26) (speed : Nat) (isMaster warm : Bool) (lat : W64) (s : State) : Host.Outcome State Fault Refusal :=
  cmdIf (decide (speed ≤ 6)) t (fun _ d => linkUpOp d p.val speed isMaster warm lat) s

/-- PHY_WARM_SAVE (R80): PHY_WARM_CTRL.SAVE written. -/
def execPhyWarmSave (t : Instant) (m : Master) (p : Fin 26) (s : State) : Host.Outcome State Fault Refusal :=
  cmd t (fun mem d => regBits mem d m (phyPage p.val) 0xa0 2 0) s

/-- PHY_WARM_FLUSH (R81): PHY_WARM_CTRL.FLUSH written. -/
def execPhyWarmFlush (t : Instant) (m : Master) (p : Fin 26) (s : State) : Host.Outcome State Fault Refusal :=
  cmd t (fun mem d => regBits mem d m (phyPage p.val) 0xa0 4 0) s

/-- WARM_FB_PARTNER (R82): the partner cold-trains during a warm attempt. -/
def execWarmFbPartner (t : Instant) (p : Fin 26) (s : State) : Host.Outcome State Fault Refusal :=
  cmd t (fun _ d => warmFbPartnerOp d p.val) s

/-- FINGERPRINT_CHECK (R83): largest echo difference in 0.125 dB, SQI after load, timing offset in ppm. -/
def execFingerprintCheck (t : Instant) (p : Fin 26) (echoDiff sqi ppm : Nat) (s : State) : Host.Outcome State Fault Refusal :=
  cmd t (fun _ d => fingerprintOp d p.val echoDiff sqi ppm) s

/-- WARM_TIMEOUT (R84): PHY_WARM_CTRL.TIMEOUT has passed in a warm attempt. -/
def execWarmTimeout (t : Instant) (p : Fin 26) (s : State) : Host.Outcome State Fault Refusal :=
  cmd t (fun _ d => warmTimeoutOp d p.val) s

/-- BLOCK_LOCK_TIMEOUT (R85): no block lock 0.3 ms after the relock of a B port. -/
def execBlockLockTimeout (t : Instant) (p : Fin 26) (s : State) : Host.Outcome State Fault Refusal :=
  cmd t (fun _ d => blockLockOp d p.val) s

/-- PLCA_BEACON (R88): a valid beacon of another node is received. -/
def execPlcaBeacon (t : Instant) (p : Fin 26) (s : State) : Host.Outcome State Fault Refusal :=
  cmd t (fun _ d => beaconOp d p.val) s

/-- PLCA_BEACON_LOSS (R88): no beacon for 4,000 bit times. -/
def execPlcaBeaconLoss (t : Instant) (p : Fin 26) (s : State) : Host.Outcome State Fault Refusal :=
  cmd t (fun _ d => beaconLossOp d p.val) s

/-- PLCA_COLLISION (R87): a physical collision on the segment. -/
def execPlcaCollision (t : Instant) (p : Fin 26) (late : Bool) (s : State) : Host.Outcome State Fault Refusal :=
  cmd t (fun _ d => collisionOp d p.val late) s

/-- NOISE_EVENT (R91): a noise event on the segment. -/
def execNoiseEvent (t : Instant) (p : Fin 26) (k : NoiseKind) (s : State) : Host.Outcome State Fault Refusal :=
  cmd t (fun _ d => noiseOp d p.val k) s

/-- JABBER_RX (R91): a received transmission longer than 2 ms. -/
def execJabberRx (t : Instant) (p : Fin 26) (s : State) : Host.Outcome State Fault Refusal :=
  cmd t (fun _ d => jabberRxOp d p.val) s

/-- JABBER_TX (R91): 2 ms of continuous transmission by the port. -/
def execJabberTx (t : Instant) (p : Fin 26) (s : State) : Host.Outcome State Fault Refusal :=
  cmd t (fun _ d => jabberTxOp d p.val) s

/-- LPI_ENTRY (R93): the idle time before LPI has passed. -/
def execLpiEntry (t : Instant) (p : Fin 26) (s : State) : Host.Outcome State Fault Refusal :=
  cmd t (fun _ d => lpiEntryOp d p.val) s

/-- LPI_WAKE (R93): the wake time TW has passed. -/
def execLpiWake (t : Instant) (p : Fin 26) (s : State) : Host.Outcome State Fault Refusal :=
  cmd t (fun _ d => lpiWakeOp d p.val) s

/-- LPI_GATE_WAKE (R94): a gate opening is due TW from now. -/
def execLpiGateWake (t : Instant) (p : Fin 26) (s : State) : Host.Outcome State Fault Refusal :=
  cmd t (fun _ d => lpiGateWakeOp d p.val) s

/-- RX_LPI_CHANGE (R304): the link partner enters or leaves LPI. -/
def execRxLpiChange (t : Instant) (p : Fin 26) (on : Bool) (s : State) : Host.Outcome State Fault Refusal :=
  cmd t (fun _ d => rxLpiOp d p.val on) s

/-- TC10_SLEEP_REQ (R95): PHY_TC10_CTRL.SLEEP_REQ written. -/
def execTc10SleepReq (t : Instant) (m : Master) (p : Fin 26) (s : State) : Host.Outcome State Fault Refusal :=
  cmd t (fun mem d => regBits mem d m (phyPage p.val) 0xc0 1 0) s

/-- TC10_SLEEP_ACK (R95): the partner acknowledges. -/
def execTc10SleepAck (t : Instant) (p : Fin 26) (s : State) : Host.Outcome State Fault Refusal :=
  cmd t (fun _ d => tc10AckOp d p.val) s

/-- TC10_SLEEP_REJECT (R95): the partner rejects. -/
def execTc10SleepReject (t : Instant) (p : Fin 26) (s : State) : Host.Outcome State Fault Refusal :=
  cmd t (fun _ d => tc10RejectOp d p.val) s

/-- TC10_SLEEP_TIMEOUT (R95): 16 ms without an answer. -/
def execTc10SleepTimeout (t : Instant) (p : Fin 26) (s : State) : Host.Outcome State Fault Refusal :=
  cmd t (fun _ d => tc10TimeoutOp d p.val) s

/-- TC10_PARTNER_SLEEP_REQUEST (R96): the partner requests sleep. -/
def execTc10PartnerSleepRequest (t : Instant) (p : Fin 26) (s : State) : Host.Outcome State Fault Refusal :=
  cmd t (fun _ d => tc10PartnerOp d p.val) s

/-- TC10_WUR (R97): PHY_TC10_CTRL.WUR written. -/
def execTc10Wur (t : Instant) (m : Master) (p : Fin 26) (s : State) : Host.Outcome State Fault Refusal :=
  cmd t (fun mem d => regBits mem d m (phyPage p.val) 0xc0 4 0) s

/-- PHY_DIAG_START (R99): PHY_DIAG_CTRL.START written. -/
def execPhyDiagStart (t : Instant) (m : Master) (p : Fin 26) (s : State) : Host.Outcome State Fault Refusal :=
  cmd t (fun mem d => regBits mem d m (phyPage p.val) 0xb0 1 0) s

/-- DIAG_DONE (R99): the cable test ends. -/
def execDiagDone (t : Instant) (p : Fin 26) (r : DiagOutcome) (distance loss : Nat) (s : State) : Host.Outcome State Fault Refusal :=
  cmd t (fun _ d => diagDoneOp d p.val r distance loss) s

/-- SQI_UPDATE (R99): the 1 ms SQI measurement. -/
def execSqiUpdate (t : Instant) (p : Fin 26) (sqi : Nat) (s : State) : Host.Outcome State Fault Refusal :=
  cmd t (fun _ d => sqiOp d p.val sqi) s

/-- MERGE_VERIFY (R132): the 802.3br verification ends. -/
def execMergeVerify (t : Instant) (p : Fin 26) (ok : Bool) (s : State) : Host.Outcome State Fault Refusal :=
  cmd t (fun _ d => mergeVerifyOp d p.val ok) s

end Sys2Proof.Machine
end

