-- ==== Sys2Proof/Machine/ExecPower.lean ====
section
/-! DEFINITION. Commands of the Buoy and of the power states (chapters 10 and 11). -/

namespace Sys2Proof.Machine

/-- CAN_WUP (R276): RXD was dominant for this many microseconds. -/
def execCanWup (t : Instant) (k : Fin 24) (us : Nat) (s : State) : Host.Outcome State Fault Refusal :=
  cmd t (fun _ d => canWupOp d k.val us) s

/-- BUOY_FRAME_DECODED (R277): the decoder ends a frame at its CRC delimiter. -/
def execBuoyFrameDecoded (t : Instant) (k : Fin 24) (r : Decoded) (s : State) : Host.Outcome State Fault Refusal :=
  cmdIf (r.ok) t (fun _ d => frameDecodedOp d k.val r) s

/-- LIN_WAKE_PULSE (R280): a dominant phase of this length ends. -/
def execLinWakePulse (t : Instant) (l : Fin 8) (us : Nat) (s : State) : Host.Outcome State Fault Refusal :=
  cmd t (fun _ d => linPulseOp d l.val us) s

/-- PHY_WAKE_DETECT (R281): the wake detector of the port sees wake-up signalling or energy. -/
def execPhyWakeDetect (t : Instant) (p : Fin 26) (s : State) : Host.Outcome State Fault Refusal :=
  cmd t (fun _ d => phyWakeOp d p.val) s

/-- WAKE_PIN_EVENT (R282): the pin has held the active or the opposite condition for DEBOUNCE_US. -/
def execWakePinEvent (t : Instant) (n : Fin 8) (active : Bool) (s : State) : Host.Outcome State Fault Refusal :=
  cmd t (fun _ d => wakePinOp d n.val active) s

/-- KEEP_ALIVE (R288): a keep-alive indication of the cluster. -/
def execKeepAlive (t : Instant) (n : Fin 32) (s : State) : Host.Outcome State Fault Refusal :=
  cmd t (fun _ d => keepAliveIn d n.val) s

/-- NM_LOCAL_WRITE (R289): BUOY_NM_LOCAL written. -/
def execNmLocalWrite (t : Instant) (m : Master) (v : W64) (s : State) : Host.Outcome State Fault Refusal :=
  cmd t (fun mem d => regPut mem d m (.buoy 0) 0x400 v) s

/-- NM_TIMEOUT (R289): NM_TIMEOUT_MS has passed. -/
def execNmTimeout (t : Instant) (n : Fin 32) (s : State) : Host.Outcome State Fault Refusal :=
  cmd t (fun _ d => nmTimeoutOp d n.val) s

/-- READY_SLEEP_EXPIRY (R289): READY_SLEEP_MS has passed. -/
def execReadySleepExpiry (t : Instant) (n : Fin 32) (s : State) : Host.Outcome State Fault Refusal :=
  cmd t (fun _ d => readySleepOp d n.val) s

/-- FALSE_WAKE_EXPIRY (R289): FALSE_WAKE_MS has passed. -/
def execFalseWakeExpiry (t : Instant) (n : Fin 32) (s : State) : Host.Outcome State Fault Refusal :=
  cmd t (fun _ d => falseWakeOp d n.val) s

/-- SLEEP_CONDITIONS_MET (R290): steps 2 and 3 of Table 10.4. -/
def execSleepConditionsMet (t : Instant) (n : Fin 32) (s : State) : Host.Outcome State Fault Refusal :=
  cmd t (fun _ d => sleepMetOp d n.val) s

/-- MODE_CHANGE_WINDOW_END (R295): XCVR_SETTLE_US has passed. -/
def execModeChangeWindowEnd (t : Instant) (n : Fin 32) (s : State) : Host.Outcome State Fault Refusal :=
  cmd t (fun _ d => windowEndOp d n.val) s

/-- KEEPER_KICK (R297): BUOY_KEEP_CTRL.KICK written. -/
def execKeeperKick (t : Instant) (m : Master) (s : State) : Host.Outcome State Fault Refusal :=
  cmd t (fun mem d => regBits mem d m (.buoy 0) 0x280 2 0) s

/-- KEEPER_RELEASE (R298): BUOY_KEEP_CTRL.RELEASE written. -/
def execKeeperRelease (t : Instant) (m : Master) (s : State) : Host.Outcome State Fault Refusal :=
  cmd t (fun mem d => regBits mem d m (.buoy 0) 0x280 4 0) s

/-- KEEPER_PERIOD (R297): a 100 ms keeper period ends. -/
def execKeeperPeriod (t : Instant) (s : State) : Host.Outcome State Fault Refusal :=
  cmd t (fun _ d => keeperPeriodOp d) s

/-- QUAY_CLOCK_GATE (R304): the quay has been P1-idle for 1 µs. -/
def execQuayClockGate (t : Instant) (q : Fin 4) (s : State) : Host.Outcome State Fault Refusal :=
  cmd t (fun _ d => quayClockGateOp d q.val) s

/-- QUAY_POWER_GATE (R305): the quay has been P2-idle for P2_IDLE_US. -/
def execQuayPowerGate (t : Instant) (q : Fin 4) (s : State) : Host.Outcome State Fault Refusal :=
  cmd t (fun _ d => quayPowerGateOp d q.val) s

/-- QUAY_RESTORE (R306): a trigger of R306. -/
def execQuayRestore (t : Instant) (q : Fin 4) (s : State) : Host.Outcome State Fault Refusal :=
  cmd t (fun _ d => quayRestoreOp d q.val) s

/-- QUAY_RESTORE_DONE (R306): the restoration time of Table 11.4 has passed. -/
def execQuayRestoreDone (t : Instant) (q : Fin 4) (s : State) : Host.Outcome State Fault Refusal :=
  cmd t (fun _ d => quayRestoreDoneOp d q.val) s

/-- DEEP_DELAY_EXPIRY (R309): deep_ok has held for DEEP_DELAY_MS. -/
def execDeepDelayExpiry (t : Instant) (s : State) : Host.Outcome State Fault Refusal :=
  cmd t (fun _ d => deepDelayOp d) s

/-- HOST_ACCESS_WAKE (R316): a host access in P3. -/
def execHostAccessWake (t : Instant) (_addr : Nat) (s : State) : Host.Outcome State Fault Refusal :=
  cmd t (fun _ d => hostAccessOp d) s

/-- POWER_STATE_REACHED (R310): the last step of an entry to P3 or P4. -/
def execPowerStateReached (t : Instant) (s : State) : Host.Outcome State Fault Refusal :=
  cmdM t (fun _ d => stateReachedOp d)
    (fun d0 d1 m => if 4 ≤ pwrState d1 ∧ pwrState d0 < 4 then wipeSram m else m) s

/-- EXIT_DONE (R312): the readiness points of an exit. -/
def execExitDone (t : Instant) (s : State) : Host.Outcome State Fault Refusal :=
  cmd t (fun _ d => exitDoneOp d) s

end Sys2Proof.Machine
end

