-- ==== Sys2Proof/Machine/ExecScarab.lean ====
section
/-! DEFINITION. Commands of the Scarab and the Fault Concentrator (chapters 14 and 15). -/

namespace Sys2Proof.Machine

/-- SCARAB_OUTPUT_MINORITY (R389): the aligned outputs of the three cores in a cycle in which they are not all equal. -/
def execScarabOutputMinority (t : Instant) (o0 o1 o2 : W64) (s : State) : Host.Outcome State Fault Refusal :=
  cmd t (fun _ d => voteOp d o0 o1 o2 1) s

/-- DIGEST_COMPARE (R391): the digests of the three cores. -/
def execDigestCompare (t : Instant) (d0 d1 d2 : W64) (s : State) : Host.Outcome State Fault Refusal :=
  cmd t (fun _ d => digestVoteOp d d0 d1 d2) s

/-- VOTER_MISMATCH (R390): the results of the two voters differ. -/
def execVoterMismatch (t : Instant) (s : State) : Host.Outcome State Fault Refusal :=
  cmd t (fun _ d => voterMismatchOp d) s

/-- VOTER_SELFTEST (R398): SELFTEST_MS has passed; the outcome of the test. -/
def execVoterSelftest (t : Instant) (ok : Bool) (s : State) : Host.Outcome State Fault Refusal :=
  cmd t (fun _ d => selftestDueOp d ok) s

/-- SCARAB_SELFTEST_NOW (R398): SCARAB_CTRL.SELFTEST_NOW written; the outcome of the test. -/
def execScarabSelftestNow (t : Instant) (m : Master) (ok : Bool) (s : State) : Host.Outcome State Fault Refusal :=
  cmd t (fun _ d => guardedAt (quayTouch d (.scarab 0)) m (.scarab 0) 0x88 fun d => selftestOp d ok) s

/-- SCARAB_MODE_REQ (R401): SCARAB_MODE_REQ.TRIO written. -/
def execScarabModeReq (t : Instant) (m : Master) (s : State) : Host.Outcome State Fault Refusal :=
  cmd t (fun mem d => regPut mem d m (.scarab 0) 0x90 1) s

/-- KCOREINFO_READ (R405): a read of the CSR kcoreinfo. -/
def execKcoreinfoRead (t : Instant) (core : Fin 3) (s : State) : Host.Outcome State Fault Refusal :=
  cmd t (fun _ d => kcoreinfoOp d core.val) s

/-- RESYNC_DONE (R394): cycle 2,000 of a resynchronisation. -/
def execResyncDone (t : Instant) (s : State) : Host.Outcome State Fault Refusal :=
  cmd t (fun _ d => resyncDoneOp d) s

/-- FAULT_EVENT (R414): the condition of an FCN source occurs. -/
def execFaultEvent (t : Instant) (src : Fin 512) (s : State) : Host.Outcome State Fault Refusal :=
  cmd t (fun _ d => faultEventOp d src.val) s

/-- SUPPLY_OUT_OF_WINDOW (R410): a supply stayed outside its window for more than 1 µs. -/
def execSupplyOutOfWindow (t : Instant) (r : Rail) (s : State) : Host.Outcome State Fault Refusal :=
  cmd t (fun _ d => railOp d r) s

/-- TJ_THRESHOLD (R409): Tj rises above 125 °C (false) or above 140 °C (true). -/
def execTjThreshold (t : Instant) (crit : Bool) (s : State) : Host.Outcome State Fault Refusal :=
  cmd t (fun _ d => tjOp d crit) s

/-- CHIP_RESET_ASSERT (R425): the seal is signed or 5 ms have passed. -/
def execChipResetAssert (t : Instant) (s : State) : Host.Outcome State Fault Refusal :=
  cmd t (fun _ d => chipResetAssertOp d) s

/-- RESET_SHADOW_CLOSE (R421): SHADOW_US after the end of a reset of the page's block or quay. -/
def execResetShadowClose (t : Instant) (pg : Page) (s : State) : Host.Outcome State Fault Refusal :=
  cmdIf (pg.Exists) t (fun _ d => closeShadowOp d pg) s

/-- FAULTN_MIN_END (R423): 808 cycles of CLK_BUOY of FAULT_N low have passed. -/
def execFaultnMinEnd (t : Instant) (s : State) : Host.Outcome State Fault Refusal :=
  cmd t (fun _ d => faultMinOp d) s

/-- FAULTN_RELEASE (R423): FCN_FAULTN written with RELEASE = 1. -/
def execFaultnRelease (t : Instant) (m : Master) (v : W64) (s : State) : Host.Outcome State Fault Refusal :=
  cmd t (fun mem d => regPut mem d m (.fcn 0) 0x90 (setBit v 0 true)) s

/-- FAULTN_ASSERT (R423): FCN_FAULTN written with ASSERT = 1. -/
def execFaultnAssert (t : Instant) (m : Master) (v : W64) (s : State) : Host.Outcome State Fault Refusal :=
  cmd t (fun mem d => regPut mem d m (.fcn 0) 0x90 (setBit v 1 true)) s

/-- FCN_SELFTEST (R430): 100 ms have passed; the outcome of the test. -/
def execFcnSelftest (t : Instant) (ok : Bool) (s : State) : Host.Outcome State Fault Refusal :=
  cmd t (fun _ d => if fcnSelftestDue d then fcnSelftestOp d ok else d) s

/-- FCN_SELFTEST_NOW (R430): FCN_SELFTEST.NOW written; the outcome of the test. -/
def execFcnSelftestNow (t : Instant) (m : Master) (ok : Bool) (s : State) : Host.Outcome State Fault Refusal :=
  cmd t (fun _ d => guardedAt d m (.fcn 0) 0xa8 fun d => fcnSelftestOp d ok) s

/-- FCN_SRC_WRITE (R412): FCN_SRC_s written. -/
def execFcnSrcWrite (t : Instant) (m : Master) (src : Fin 512) (v : W64) (s : State) : Host.Outcome State Fault Refusal :=
  cmd t (fun mem d => regPut mem d m (.fcn (if src.val < 256 then 1 else 2)) (0x800 + src.val % 256 * 8) v) s

end Sys2Proof.Machine
end

