-- ==== Sys2Proof/Machine/ExecSecurity.lean ====
section
/-! DEFINITION. Commands of Carapace, the life cycle, the TRNG, MACsec and the Manifest (chapter 13). -/

namespace Sys2Proof.Machine

/-- KEY_WRITE (R363): the message staged on the channel is started. -/
def execKeyWrite (t : Instant) (ch : Fin 4) (s : State) : Host.Outcome State Fault Refusal :=
  cmd t (fun _ d => mboxKeyWriteOp d ch.val) s

/-- KEY_GENERATE (R363): the message staged on the channel is started. -/
def execKeyGenerate (t : Instant) (ch : Fin 4) (s : State) : Host.Outcome State Fault Refusal :=
  cmd t (fun _ d => mboxKeyGenOp d ch.val) s

/-- KEY_ATTEST (R368): the message staged on the channel is started. -/
def execKeyAttest (t : Instant) (ch : Fin 4) (s : State) : Host.Outcome State Fault Refusal :=
  cmd t (fun _ d => keyAttestOp d ch.val) s

/-- DEV_ATTEST (R368): the message staged on the channel is started. -/
def execDevAttest (t : Instant) (ch : Fin 4) (s : State) : Host.Outcome State Fault Refusal :=
  cmd t (fun _ d => devAttestOp d ch.val) s

/-- MANIFEST_SEAL (R385): the message staged on the channel is started. -/
def execManifestSeal (t : Instant) (ch : Fin 4) (s : State) : Host.Outcome State Fault Refusal :=
  cmd t (fun _ d => manifestSealOp d ch.val) s

/-- MANIFEST_READ (R385): the message staged on the channel is started; how the MRAM words of the records read (R37). -/
def execManifestRead (t : Instant) (x : ReadStart) (s : State) : Host.Outcome State Fault Refusal :=
  cmd t (fun _ d => manifestReadOp d x.ch.val x.ecc) s

/-- LC_TRANSITION (R348): the message staged on the channel is started. -/
def execLcTransition (t : Instant) (ch : Fin 4) (s : State) : Host.Outcome State Fault Refusal :=
  cmd t (fun _ d => lcTransitionOp d ch.val) s

/-- LC_TRANSITION_RESET (R349): 10 ms after an accepted transition. -/
def execLcTransitionReset (t : Instant) (s : State) : Host.Outcome State Fault Refusal :=
  cmd t (fun _ d => lcResetOp d) s

/-- TAMPER_DETECT (R354): a tamper source of Table 13.7 is detected. -/
def execTamperDetect (t : Instant) (b : Fin 16) (s : State) : Host.Outcome State Fault Refusal :=
  cmd t (fun _ d => tamperDetectOp d b.val) s

/-- CAR_CMD_WRITE (R361): CAR_CMD written with OP 1 and GO. -/
def execCarCmdWrite (t : Instant) (m : Master) (slot : Fin 256) (s : State) : Host.Outcome State Fault Refusal :=
  cmd t (fun mem d => regPut mem d m .carapace 0x100 (mkWord [(0, 1), (4, slot.val), (12, 1)])) s

/-- CAR_CMD_GENERATE (R361): CAR_CMD written with OP 2 and GO. -/
def execCarCmdGenerate (t : Instant) (m : Master) (slot : Fin 256) (s : State) : Host.Outcome State Fault Refusal :=
  cmd t (fun mem d => regPut mem d m .carapace 0x100 (mkWord [(0, 2), (4, slot.val), (12, 1)])) s

/-- CAR_CMD_DESTROY (R361): CAR_CMD written with OP 3 and GO. -/
def execCarCmdDestroy (t : Instant) (m : Master) (slot : Fin 256) (s : State) : Host.Outcome State Fault Refusal :=
  cmd t (fun mem d => regPut mem d m .carapace 0x100 (mkWord [(0, 3), (4, slot.val), (12, 1)])) s

/-- CAR_CMD_WRAP_EXPORT (R361): CAR_CMD written with OP 4 and GO. -/
def execCarCmdWrapExport (t : Instant) (m : Master) (slot : Fin 256) (s : State) : Host.Outcome State Fault Refusal :=
  cmd t (fun mem d => regPut mem d m .carapace 0x100 (mkWord [(0, 4), (4, slot.val), (12, 1)])) s

/-- CAR_CMD_UNWRAP_IMPORT (R361): CAR_CMD written with OP 5 and GO. -/
def execCarCmdUnwrapImport (t : Instant) (m : Master) (slot : Fin 256) (s : State) : Host.Outcome State Fault Refusal :=
  cmd t (fun mem d => regPut mem d m .carapace 0x100 (mkWord [(0, 5), (4, slot.val), (12, 1)])) s

/-- CAR_CMD_DERIVE (R361): CAR_CMD written with OP 6 and GO. -/
def execCarCmdDerive (t : Instant) (m : Master) (slot : Fin 256) (s : State) : Host.Outcome State Fault Refusal :=
  cmd t (fun mem d => regPut mem d m .carapace 0x100 (mkWord [(0, 6), (4, slot.val), (12, 1)])) s

/-- CAR_CMD_DONE (R361): the command in progress completes. -/
def execCarCmdDone (t : Instant) (s : State) : Host.Outcome State Fault Refusal :=
  cmd t (fun _ d => carDone d) s

/-- SLOT_INTEGRITY_PASS (R360): the background pass, and the slot whose tag fails. -/
def execSlotIntegrityPass (t : Instant) (bad : Option (Fin 256)) (s : State) : Host.Outcome State Fault Refusal :=
  cmd t (fun _ d => match bad with | some s => slotBad d s.val | none => d) s

/-- TRNG_HEALTH_FAIL (R372): a health test fails. -/
def execTrngHealthFail (t : Instant) (s : State) : Host.Outcome State Fault Refusal :=
  cmd t (fun _ d => trngFailOp d) s

/-- TRNG_RECOVERY (R372): 1,024 consecutive samples have passed. -/
def execTrngRecovery (t : Instant) (s : State) : Host.Outcome State Fault Refusal :=
  cmd t (fun _ d => trngRecoverOp d) s

/-- DRBG_RESEED (R372): 2^20 requests have been served. -/
def execDrbgReseed (t : Instant) (s : State) : Host.Outcome State Fault Refusal :=
  cmd t (fun _ d => reseedOp d) s

/-- MACSEC_KEY_RECHECK (R377): 100 ms have passed since the last recheck. -/
def execMacsecKeyRecheck (t : Instant) (p : Fin 26) (s : State) : Host.Outcome State Fault Refusal :=
  cmd t (fun _ d => macsecRecheck d p.val) s

/-- MANIFEST_SUBMIT (R386): MAN_SUB_GO.GO written. -/
def execManifestSubmit (t : Instant) (m : Master) (s : State) : Host.Outcome State Fault Refusal :=
  cmd t (fun mem d => regPut mem d m .manifest 0xe0 1) s

/-- MANIFEST_SUB_SEAL (R384): MAN_SUB_GO.SEAL written. -/
def execManifestSubSeal (t : Instant) (m : Master) (s : State) : Host.Outcome State Fault Refusal :=
  cmd t (fun mem d => regPut mem d m .manifest 0xe0 2) s

/-- MANIFEST_RECORD_WRITE (R383): the oldest staged record is written to the journal, and verifies or not. -/
def execManifestRecordWrite (t : Instant) (ok : Bool) (s : State) : Host.Outcome State Fault Refusal :=
  cmd t (fun _ d => manWriteOp d ok) s

/-- SEAL_SIGNED (R384): the signature of a seal is complete. -/
def execSealSigned (t : Instant) (s : State) : Host.Outcome State Fault Refusal :=
  cmd t (fun _ d => sealSignedOp d) s

end Sys2Proof.Machine
end

