-- ==== Sys2Proof/Machine/ExecTime.lean ====
section
/-! DEFINITION. Commands of the time base (chapter 7). -/

namespace Sys2Proof.Machine

/-- RATE_WRITE (R201): TIME_D_d_RATE written. -/
def execRateWrite (t : Instant) (m : Master) (dom : Fin 4) (v : W64) (s : State) : Host.Outcome State Fault Refusal :=
  cmd t (fun mem d => regPut mem d m (.time 0) (0x108 + dom.val * 0x40) v) s

/-- DOMAIN_ENABLE (R202): TIME_D_d_CTRL written with ENABLE = 1. -/
def execDomainEnable (t : Instant) (m : Master) (dom : Fin 4) (v : W64) (s : State) : Host.Outcome State Fault Refusal :=
  cmd t (fun mem d => regPut mem d m (.time 0) (0x100 + dom.val * 0x40) (setBit v 0 true)) s

/-- DOMAIN_DISABLE (R202): TIME_D_d_CTRL written with ENABLE = 0. -/
def execDomainDisable (t : Instant) (m : Master) (dom : Fin 4) (v : W64) (s : State) : Host.Outcome State Fault Refusal :=
  cmd t (fun mem d => regPut mem d m (.time 0) (0x100 + dom.val * 0x40) (setBit v 0 false)) s

/-- SYNC_SET (R205): TIME_D_d_CTRL written with SYNC = 1. -/
def execSyncSet (t : Instant) (m : Master) (dom : Fin 4) (v : W64) (s : State) : Host.Outcome State Fault Refusal :=
  cmd t (fun mem d => regPut mem d m (.time 0) (0x100 + dom.val * 0x40) (setBit v 1 true)) s

/-- STEP_ABS (R203): TIME_D_d_CMD written with STEP_ABS = 1. -/
def execStepAbs (t : Instant) (m : Master) (dom : Fin 4) (v : W64) (s : State) : Host.Outcome State Fault Refusal :=
  cmd t (fun mem d => regPut mem d m (.time 0) (0x128 + dom.val * 0x40) (setBit v 0 true)) s

/-- STEP_REL (R203): TIME_D_d_CMD written with STEP_REL = 1. -/
def execStepRel (t : Instant) (m : Master) (dom : Fin 4) (v : W64) (s : State) : Host.Outcome State Fault Refusal :=
  cmd t (fun mem d => regPut mem d m (.time 0) (0x128 + dom.val * 0x40) (setBit v 1 true)) s

/-- TIME_STEP_APPLY (R203): the CLK_TS edge of the pending step. -/
def execTimeStepApply (t : Instant) (dom : Fin 4) (s : State) : Host.Outcome State Fault Refusal :=
  cmd t (fun _ d => stepApplyOp d dom.val) s

/-- SYNC_WATCHDOG (R205): SYNC_WD_MS has passed. -/
def execSyncWatchdog (t : Instant) (dom : Fin 4) (s : State) : Host.Outcome State Fault Refusal :=
  cmd t (fun _ d => syncWatchdogOp d dom.val) s

/-- TIME_SNAP (R206): TIME_SNAP written. -/
def execTimeSnap (t : Instant) (m : Master) (v : W64) (s : State) : Host.Outcome State Fault Refusal :=
  cmd t (fun mem d => regPut mem d m (.time 0) 0x90 v) s

/-- CTR_MISMATCH (R208): the duplicate counters differ. -/
def execCtrMismatch (t : Instant) (s : State) : Host.Outcome State Fault Refusal :=
  cmd t (fun _ d => ctrMismatchOp d) s

/-- TOUT_ARM (R210): TOUT_n_CTRL written with ARM = 1. -/
def execToutArm (t : Instant) (m : Master) (n : Fin 8) (v : W64) (s : State) : Host.Outcome State Fault Refusal :=
  cmd t (fun mem d => regPut mem d m (.time 1) (0x80 + n.val * 0x30) (setBit v 0 true)) s

/-- TOUT_STOP (R211): TOUT_n_CTRL written with STOP = 1. -/
def execToutStop (t : Instant) (m : Master) (n : Fin 8) (v : W64) (s : State) : Host.Outcome State Fault Refusal :=
  cmd t (fun mem d => regPut mem d m (.time 1) (0x80 + n.val * 0x30) (setBit v 1 true)) s

/-- TOUT_EDGE (R211): a programmed edge of the output is reached. -/
def execToutEdge (t : Instant) (n : Fin 8) (s : State) : Host.Outcome State Fault Refusal :=
  cmd t (fun _ d => toutEdgeOp d n.val) s

/-- TCAP_EDGE (R213): an edge at the capture input. -/
def execTcapEdge (t : Instant) (n : Fin 8) (rising : Bool) (s : State) : Host.Outcome State Fault Refusal :=
  cmd t (fun _ d => tcapEdgeOp d n.val rising) s

end Sys2Proof.Machine
end

