-- ==== Sys2Proof/Machine/Dispatch.lean ====
section
/-! DEFINITION. The dispatch of a command to its meaning, one arm per constructor of Instr. -/

namespace Sys2Proof.Machine

/-- The effect of a command on everything but the queue of waiting commands. -/
def exec (i : Instr) (s : State) : Host.Outcome State Fault Refusal :=
  match i with
  | .registerWrite t m addr width v => Sys2Proof.Machine.execRegisterWrite t m addr width v s
  | .tableWindowWrite t m addr width v => Sys2Proof.Machine.execTableWindowWrite t m addr width v s
  | .errForce t m pg v => Sys2Proof.Machine.execErrForce t m pg v s
  | .irqForce t m pg v => Sys2Proof.Machine.execIrqForce t m pg v s
  | .pageLock t m pg => Sys2Proof.Machine.execPageLock t m pg s
  | .blockEnable t m pg => Sys2Proof.Machine.execBlockEnable t m pg s
  | .blockDisable t m pg => Sys2Proof.Machine.execBlockDisable t m pg s
  | .blockQuiesced t pg => Sys2Proof.Machine.execBlockQuiesced t pg s
  | .blockSoftReset t m pg => Sys2Proof.Machine.execBlockSoftReset t m pg s
  | .softResetEnd t pg => Sys2Proof.Machine.execSoftResetEnd t pg s
  | .resetTimeout t pg => Sys2Proof.Machine.execResetTimeout t pg s
  | .freeze t m pg on => Sys2Proof.Machine.execFreeze t m pg on s
  | .commitImmediate t m pg gen => Sys2Proof.Machine.execCommitImmediate t m pg gen s
  | .tideJoin t m pg gen slot => Sys2Proof.Machine.execTideJoin t m pg gen slot s
  | .commitSwitch t pg => Sys2Proof.Machine.execCommitSwitch t pg s
  | .mirrorRefillEnd t pg => Sys2Proof.Machine.execMirrorRefillEnd t pg s
  | .signaturePass t pg => Sys2Proof.Machine.execSignaturePass t pg s
  | .tideTimeWrite t m slot isNs v => Sys2Proof.Machine.execTideTimeWrite t m slot isNs v s
  | .tideArm t m slot v => Sys2Proof.Machine.execTideArm t m slot v s
  | .tideCancel t m slot v => Sys2Proof.Machine.execTideCancel t m slot v s
  | .tideFire t slot => Sys2Proof.Machine.execTideFire t slot s
  | .scrubAccess t region word e => Sys2Proof.Machine.execScrubAccess t region word e s
  | .freeCellTest t q cell ok => Sys2Proof.Machine.execFreeCellTest t q cell ok s
  | .quayReset t m q => Sys2Proof.Machine.execQuayReset t m q s
  | .quayDrainEnd t q => Sys2Proof.Machine.execQuayDrainEnd t q s
  | .clockMonitorWindow t clock count => Sys2Proof.Machine.execClockMonitorWindow t clock count s
  | .clkBuoyMonitor t stopped ppm => Sys2Proof.Machine.execClkBuoyMonitor t stopped ppm s
  | .headerWindowComplete t p f => Sys2Proof.Machine.execHeaderWindowComplete t p f s
  | .pipelineEntry t q => Sys2Proof.Machine.execPipelineEntry t q s
  | .frameTail t p fcsOk => Sys2Proof.Machine.execFrameTail t p fcsOk s
  | .pauseReceived t p quanta => Sys2Proof.Machine.execPauseReceived t p quanta s
  | .linkLoss t x => Sys2Proof.Machine.execLinkLoss t x s
  | .linkUp t p speed isMaster warm lat => Sys2Proof.Machine.execLinkUp t p speed isMaster warm lat s
  | .phyWarmSave t m p => Sys2Proof.Machine.execPhyWarmSave t m p s
  | .phyWarmFlush t m p => Sys2Proof.Machine.execPhyWarmFlush t m p s
  | .warmFbPartner t p => Sys2Proof.Machine.execWarmFbPartner t p s
  | .fingerprintCheck t p echoDiff sqi ppm => Sys2Proof.Machine.execFingerprintCheck t p echoDiff sqi ppm s
  | .warmTimeout t p => Sys2Proof.Machine.execWarmTimeout t p s
  | .blockLockTimeout t p => Sys2Proof.Machine.execBlockLockTimeout t p s
  | .plcaBeacon t p => Sys2Proof.Machine.execPlcaBeacon t p s
  | .plcaBeaconLoss t p => Sys2Proof.Machine.execPlcaBeaconLoss t p s
  | .plcaCollision t p late => Sys2Proof.Machine.execPlcaCollision t p late s
  | .noiseEvent t p k => Sys2Proof.Machine.execNoiseEvent t p k s
  | .jabberRx t p => Sys2Proof.Machine.execJabberRx t p s
  | .jabberTx t p => Sys2Proof.Machine.execJabberTx t p s
  | .lpiEntry t p => Sys2Proof.Machine.execLpiEntry t p s
  | .lpiWake t p => Sys2Proof.Machine.execLpiWake t p s
  | .lpiGateWake t p => Sys2Proof.Machine.execLpiGateWake t p s
  | .tc10SleepReq t m p => Sys2Proof.Machine.execTc10SleepReq t m p s
  | .tc10SleepAck t p => Sys2Proof.Machine.execTc10SleepAck t p s
  | .tc10SleepReject t p => Sys2Proof.Machine.execTc10SleepReject t p s
  | .tc10SleepTimeout t p => Sys2Proof.Machine.execTc10SleepTimeout t p s
  | .tc10PartnerSleepRequest t p => Sys2Proof.Machine.execTc10PartnerSleepRequest t p s
  | .tc10Wur t m p => Sys2Proof.Machine.execTc10Wur t m p s
  | .phyDiagStart t m p => Sys2Proof.Machine.execPhyDiagStart t m p s
  | .diagDone t p r distance loss => Sys2Proof.Machine.execDiagDone t p r distance loss s
  | .sqiUpdate t p sqi => Sys2Proof.Machine.execSqiUpdate t p sqi s
  | .mergeVerify t p ok => Sys2Proof.Machine.execMergeVerify t p ok s
  | .agingSweep t => Sys2Proof.Machine.execAgingSweep t s
  | .sfBlockedClear t m q v => Sys2Proof.Machine.execSfBlockedClear t m q v s
  | .frerReset t fn => Sys2Proof.Machine.execFrerReset t fn s
  | .flowSweep t => Sys2Proof.Machine.execFlowSweep t s
  | .flowDelete t m v => Sys2Proof.Machine.execFlowDelete t m v s
  | .flowFlushAll t m v => Sys2Proof.Machine.execFlowFlushAll t m v s
  | .flowFlushZone t m v => Sys2Proof.Machine.execFlowFlushZone t m v s
  | .flowFlushRule t m v => Sys2Proof.Machine.execFlowFlushRule t m v s
  | .flowFlushEnd t => Sys2Proof.Machine.execFlowFlushEnd t s
  | .diagToken t ch => Sys2Proof.Machine.execDiagToken t ch s
  | .diagClose t ch => Sys2Proof.Machine.execDiagClose t ch s
  | .bwtDiagClose t m i1 => Sys2Proof.Machine.execBwtDiagClose t m i1 s
  | .diagSessionExpiry t i1 => Sys2Proof.Machine.execDiagSessionExpiry t i1 s
  | .portSelection t p x => Sys2Proof.Machine.execPortSelection t p x s
  | .transmitEnd t p e => Sys2Proof.Machine.execTransmitEnd t p e s
  | .gateEvent t p => Sys2Proof.Machine.execGateEvent t p s
  | .gclConfigChange t p => Sys2Proof.Machine.execGclConfigChange t p s
  | .shaperSlotRelease t q => Sys2Proof.Machine.execShaperSlotRelease t q s
  | .coarseSlotMove t q => Sys2Proof.Machine.execCoarseSlotMove t q s
  | .shaperBucketEval t q => Sys2Proof.Machine.execShaperBucketEval t q s
  | .samplingPass t q => Sys2Proof.Machine.execSamplingPass t q s
  | .apertureDrainRead t m addr width => Sys2Proof.Machine.execApertureDrainRead t m addr width s
  | .rateWrite t m d v => Sys2Proof.Machine.execRateWrite t m d v s
  | .domainEnable t m d v => Sys2Proof.Machine.execDomainEnable t m d v s
  | .domainDisable t m d v => Sys2Proof.Machine.execDomainDisable t m d v s
  | .syncSet t m d v => Sys2Proof.Machine.execSyncSet t m d v s
  | .stepAbs t m d v => Sys2Proof.Machine.execStepAbs t m d v s
  | .stepRel t m d v => Sys2Proof.Machine.execStepRel t m d v s
  | .timeStepApply t d => Sys2Proof.Machine.execTimeStepApply t d s
  | .syncWatchdog t d => Sys2Proof.Machine.execSyncWatchdog t d s
  | .timeSnap t m v => Sys2Proof.Machine.execTimeSnap t m v s
  | .ctrMismatch t => Sys2Proof.Machine.execCtrMismatch t s
  | .toutArm t m n v => Sys2Proof.Machine.execToutArm t m n v s
  | .toutStop t m n v => Sys2Proof.Machine.execToutStop t m n v s
  | .toutEdge t n => Sys2Proof.Machine.execToutEdge t n s
  | .tcapEdge t n rising => Sys2Proof.Machine.execTcapEdge t n rising s
  | .canFrameReceived t k f sof => Sys2Proof.Machine.execCanFrameReceived t k f sof s
  | .ferryStart t e => Sys2Proof.Machine.execFerryStart t e s
  | .ferryVerdictReturn t => Sys2Proof.Machine.execFerryVerdictReturn t s
  | .aggWindowClose t i1 => Sys2Proof.Machine.execAggWindowClose t i1 s
  | .carrierReceived t => Sys2Proof.Machine.execCarrierReceived t s
  | .canLateError t k onBus => Sys2Proof.Machine.execCanLateError t k onBus s
  | .canArbitrationLost t k => Sys2Proof.Machine.execCanArbitrationLost t k s
  | .canTxComplete t k x => Sys2Proof.Machine.execCanTxComplete t k x s
  | .canBusError t k e transmitter => Sys2Proof.Machine.execCanBusError t k e transmitter s
  | .canTxAgeExpiry t k sof => Sys2Proof.Machine.execCanTxAgeExpiry t k sof s
  | .canRecover t m k => Sys2Proof.Machine.execCanRecover t m k s
  | .busOffRecovery t k => Sys2Proof.Machine.execBusOffRecovery t k s
  | .canProtocolException t k => Sys2Proof.Machine.execCanProtocolException t k s
  | .busIntegrationEnd t k => Sys2Proof.Machine.execBusIntegrationEnd t k s
  | .canXcvrFault t k => Sys2Proof.Machine.execCanXcvrFault t k s
  | .linSlotStart t l => Sys2Proof.Machine.execLinSlotStart t l s
  | .linHeaderReceived t l fid baud => Sys2Proof.Machine.execLinHeaderReceived t l fid baud s
  | .linFrameReceived t l f e start => Sys2Proof.Machine.execLinFrameReceived t l f e start s
  | .linNoResponse t l => Sys2Proof.Machine.execLinNoResponse t l s
  | .linGotoSleep t m l => Sys2Proof.Machine.execLinGotoSleep t m l s
  | .linWake t m l => Sys2Proof.Machine.execLinWake t m l s
  | .linResume t l => Sys2Proof.Machine.execLinResume t l s
  | .linWakeRx t l => Sys2Proof.Machine.execLinWakeRx t l s
  | .linBusStuck t l => Sys2Proof.Machine.execLinBusStuck t l s
  | .ferryStall t => Sys2Proof.Machine.execFerryStall t s
  | .xweTapProcess t => Sys2Proof.Machine.execXweTapProcess t s
  | .xweTick t d => Sys2Proof.Machine.execXweTick t d s
  | .canWup t k us => Sys2Proof.Machine.execCanWup t k us s
  | .buoyFrameDecoded t k r => Sys2Proof.Machine.execBuoyFrameDecoded t k r s
  | .linWakePulse t l us => Sys2Proof.Machine.execLinWakePulse t l us s
  | .phyWakeDetect t p => Sys2Proof.Machine.execPhyWakeDetect t p s
  | .wakePinEvent t n active => Sys2Proof.Machine.execWakePinEvent t n active s
  | .keepAlive t n => Sys2Proof.Machine.execKeepAlive t n s
  | .nmLocalWrite t m v => Sys2Proof.Machine.execNmLocalWrite t m v s
  | .nmTimeout t n => Sys2Proof.Machine.execNmTimeout t n s
  | .readySleepExpiry t n => Sys2Proof.Machine.execReadySleepExpiry t n s
  | .falseWakeExpiry t n => Sys2Proof.Machine.execFalseWakeExpiry t n s
  | .sleepConditionsMet t n => Sys2Proof.Machine.execSleepConditionsMet t n s
  | .modeChangeWindowEnd t n => Sys2Proof.Machine.execModeChangeWindowEnd t n s
  | .keeperKick t m => Sys2Proof.Machine.execKeeperKick t m s
  | .keeperRelease t m => Sys2Proof.Machine.execKeeperRelease t m s
  | .keeperPeriod t => Sys2Proof.Machine.execKeeperPeriod t s
  | .quayClockGate t q => Sys2Proof.Machine.execQuayClockGate t q s
  | .quayPowerGate t q => Sys2Proof.Machine.execQuayPowerGate t q s
  | .quayRestore t q => Sys2Proof.Machine.execQuayRestore t q s
  | .quayRestoreDone t q => Sys2Proof.Machine.execQuayRestoreDone t q s
  | .deepDelayExpiry t => Sys2Proof.Machine.execDeepDelayExpiry t s
  | .hostAccessWake t addr => Sys2Proof.Machine.execHostAccessWake t addr s
  | .txDoorbell t q v => Sys2Proof.Machine.execTxDoorbell t q v s
  | .rxDoorbell t q v => Sys2Proof.Machine.execRxDoorbell t q v s
  | .pcieReadCompletion t q c => Sys2Proof.Machine.execPcieReadCompletion t q c s
  | .pcieCompletionTimeout t r => Sys2Proof.Machine.execPcieCompletionTimeout t r s
  | .coalesceTimeout t q isRx => Sys2Proof.Machine.execCoalesceTimeout t q isRx s
  | .hostQueueEnable t m q isRx v => Sys2Proof.Machine.execHostQueueEnable t m q isRx v s
  | .pcieLinkChange t k => Sys2Proof.Machine.execPcieLinkChange t k s
  | .spiTransaction t mosi words => Sys2Proof.Machine.execSpiTransaction t mosi words s
  | .inbandRequest t octets => Sys2Proof.Machine.execInbandRequest t octets s
  | .mboxReqWrite t m ch v => Sys2Proof.Machine.execMboxReqWrite t m ch v s
  | .mboxRing t m ch => Sys2Proof.Machine.execMboxRing t m ch s
  | .mboxAck t m ch => Sys2Proof.Machine.execMboxAck t m ch s
  | .version t ch => Sys2Proof.Machine.execVersion t ch s
  | .keyWrite t ch => Sys2Proof.Machine.execKeyWrite t ch s
  | .keyGenerate t ch => Sys2Proof.Machine.execKeyGenerate t ch s
  | .keyAttest t ch => Sys2Proof.Machine.execKeyAttest t ch s
  | .devAttest t ch => Sys2Proof.Machine.execDevAttest t ch s
  | .updOpen t ch => Sys2Proof.Machine.execUpdOpen t ch s
  | .updBlock t x => Sys2Proof.Machine.execUpdBlock t x s
  | .updFinish t x => Sys2Proof.Machine.execUpdFinish t x s
  | .updActivate t x => Sys2Proof.Machine.execUpdActivate t x s
  | .updAbort t ch => Sys2Proof.Machine.execUpdAbort t ch s
  | .dbgChallenge t ch => Sys2Proof.Machine.execDbgChallenge t ch s
  | .dbgUnlock t ch => Sys2Proof.Machine.execDbgUnlock t ch s
  | .pairStatus t ch => Sys2Proof.Machine.execPairStatus t ch s
  | .pairYield t ch => Sys2Proof.Machine.execPairYield t ch s
  | .manifestSeal t ch => Sys2Proof.Machine.execManifestSeal t ch s
  | .manifestRead t x => Sys2Proof.Machine.execManifestRead t x s
  | .lcTransition t ch => Sys2Proof.Machine.execLcTransition t ch s
  | .lcTransitionReset t => Sys2Proof.Machine.execLcTransitionReset t s
  | .lighterArm t m c => Sys2Proof.Machine.execLighterArm t m c s
  | .lighterHandover t c => Sys2Proof.Machine.execLighterHandover t c s
  | .lighterBurst t c hostData => Sys2Proof.Machine.execLighterBurst t c hostData s
  | .lighterStop t m c => Sys2Proof.Machine.execLighterStop t m c s
  | .lighterResume t m c => Sys2Proof.Machine.execLighterResume t m c s
  | .lighterAbortNow t m c => Sys2Proof.Machine.execLighterAbortNow t m c s
  | .tamperDetect t bit => Sys2Proof.Machine.execTamperDetect t bit s
  | .carCmdWrite t m slot => Sys2Proof.Machine.execCarCmdWrite t m slot s
  | .carCmdGenerate t m slot => Sys2Proof.Machine.execCarCmdGenerate t m slot s
  | .carCmdDestroy t m slot => Sys2Proof.Machine.execCarCmdDestroy t m slot s
  | .carCmdWrapExport t m slot => Sys2Proof.Machine.execCarCmdWrapExport t m slot s
  | .carCmdUnwrapImport t m slot => Sys2Proof.Machine.execCarCmdUnwrapImport t m slot s
  | .carCmdDerive t m slot => Sys2Proof.Machine.execCarCmdDerive t m slot s
  | .carCmdDone t => Sys2Proof.Machine.execCarCmdDone t s
  | .slotIntegrityPass t bad => Sys2Proof.Machine.execSlotIntegrityPass t bad s
  | .trngHealthFail t => Sys2Proof.Machine.execTrngHealthFail t s
  | .trngRecovery t => Sys2Proof.Machine.execTrngRecovery t s
  | .drbgReseed t => Sys2Proof.Machine.execDrbgReseed t s
  | .macsecKeyRecheck t p => Sys2Proof.Machine.execMacsecKeyRecheck t p s
  | .manifestSubmit t m => Sys2Proof.Machine.execManifestSubmit t m s
  | .manifestSubSeal t m => Sys2Proof.Machine.execManifestSubSeal t m s
  | .manifestRecordWrite t ok => Sys2Proof.Machine.execManifestRecordWrite t ok s
  | .sealSigned t => Sys2Proof.Machine.execSealSigned t s
  | .scarabOutputMinority t o0 o1 o2 => Sys2Proof.Machine.execScarabOutputMinority t o0 o1 o2 s
  | .digestCompare t d0 d1 d2 => Sys2Proof.Machine.execDigestCompare t d0 d1 d2 s
  | .voterMismatch t => Sys2Proof.Machine.execVoterMismatch t s
  | .voterSelftest t ok => Sys2Proof.Machine.execVoterSelftest t ok s
  | .scarabSelftestNow t m ok => Sys2Proof.Machine.execScarabSelftestNow t m ok s
  | .scarabModeReq t m => Sys2Proof.Machine.execScarabModeReq t m s
  | .kcoreinfoRead t core => Sys2Proof.Machine.execKcoreinfoRead t core s
  | .faultEvent t src => Sys2Proof.Machine.execFaultEvent t src s
  | .supplyOutOfWindow t r => Sys2Proof.Machine.execSupplyOutOfWindow t r s
  | .tjThreshold t crit => Sys2Proof.Machine.execTjThreshold t crit s
  | .chipResetAssert t => Sys2Proof.Machine.execChipResetAssert t s
  | .resetShadowClose t pg => Sys2Proof.Machine.execResetShadowClose t pg s
  | .faultnMinEnd t => Sys2Proof.Machine.execFaultnMinEnd t s
  | .faultnRelease t m v => Sys2Proof.Machine.execFaultnRelease t m v s
  | .faultnAssert t m v => Sys2Proof.Machine.execFaultnAssert t m v s
  | .fcnSelftest t ok => Sys2Proof.Machine.execFcnSelftest t ok s
  | .fcnSelftestNow t m ok => Sys2Proof.Machine.execFcnSelftestNow t m ok s
  | .fcnSrcWrite t m src v => Sys2Proof.Machine.execFcnSrcWrite t m src v s
  | .extest t bsr => Sys2Proof.Machine.execExtest t bsr s
  | .idcode t => Sys2Proof.Machine.execIdcode t s
  | .samplePreload t bsr => Sys2Proof.Machine.execSamplePreload t bsr s
  | .clamp t => Sys2Proof.Machine.execClamp t s
  | .dbgChal t => Sys2Proof.Machine.execDbgChal t s
  | .dbgToken t octets => Sys2Proof.Machine.execDbgToken t octets s
  | .dbgClose t => Sys2Proof.Machine.execDbgClose t s
  | .dmi t r => Sys2Proof.Machine.execDmi t r s
  | .bypass t => Sys2Proof.Machine.execBypass t s
  | .dbgCtrlClose t m => Sys2Proof.Machine.execDbgCtrlClose t m s
  | .dbgSessionExpiry t => Sys2Proof.Machine.execDbgSessionExpiry t s
  | .dbgNonceExpiry t => Sys2Proof.Machine.execDbgNonceExpiry t s
  | .dbgLockoutEnd t => Sys2Proof.Machine.execDbgLockoutEnd t s
  | .claimRoundStart t => Sys2Proof.Machine.execClaimRoundStart t s
  | .claimRoundEnd t bus => Sys2Proof.Machine.execClaimRoundEnd t bus s
  | .pairKick t m => Sys2Proof.Machine.execPairKick t m s
  | .heartbeatSend t => Sys2Proof.Machine.execHeartbeatSend t s
  | .heartbeatReceived t path octets => Sys2Proof.Machine.execHeartbeatReceived t path octets s
  | .heartbeatMiss t path => Sys2Proof.Machine.execHeartbeatMiss t path s
  | .digestIntervalClose t syncOk => Sys2Proof.Machine.execDigestIntervalClose t syncOk s
  | .rotBankAdvance t => Sys2Proof.Machine.execRotBankAdvance t s
  | .rotBankTest t failing => Sys2Proof.Machine.execRotBankTest t failing s
  | .offlineTest t m => Sys2Proof.Machine.execOfflineTest t m s
  | .offlineTestEnd t => Sys2Proof.Machine.execOfflineTestEnd t s
  | .yieldClaimRelease t => Sys2Proof.Machine.execYieldClaimRelease t s
  | .pairNonceExpiry t => Sys2Proof.Machine.execPairNonceExpiry t s
  | .bootSelect x => Sys2Proof.Machine.execBootSelect x s
  | .updConfirm t m => Sys2Proof.Machine.execUpdConfirm t m s
  | .confirmTimeout t => Sys2Proof.Machine.execConfirmTimeout t s
  | .updLockTimeout t => Sys2Proof.Machine.execUpdLockTimeout t s
  | .activationReset t => Sys2Proof.Machine.execActivationReset t s
  | .powerOnReset t straps => Sys2Proof.Machine.execPowerOnReset t straps s
  | .resetN t => Sys2Proof.Machine.execResetN t s
  | .pciePerstN t => Sys2Proof.Machine.execPciePerstN t s
  | .powerUpTimeout t => Sys2Proof.Machine.execPowerUpTimeout t s
  | .supplyLoss t aon vbatOk => Sys2Proof.Machine.execSupplyLoss t aon vbatOk s
  | .registerRead t m addr width => Sys2Proof.Machine.execRegisterRead t m addr width s
  | .resyncDone t => Sys2Proof.Machine.execResyncDone t s
  | .powerStateReached t => Sys2Proof.Machine.execPowerStateReached t s
  | .exitDone t => Sys2Proof.Machine.execExitDone t s
  | .pauseExpiry t p => Sys2Proof.Machine.execPauseExpiry t p s
  | .rxLpiChange t p on => Sys2Proof.Machine.execRxLpiChange t p on s
  | .cbsCreditRecovered t p tc => Sys2Proof.Machine.execCbsCreditRecovered t p tc s

end Sys2Proof.Machine
end

