-- ==== Sys2Proof/Safety.lean ====
section
/-! DEFINITION. The terms in which claims about the machine are made: invariants of a state, what it means that a command completes with
an effect, and when a register write is accepted. -/

namespace Sys2Proof.Safety

open Sys2Proof.Machine

/-- The memories keep their canonical form. -/
def MemOk (s : State) : Prop := Memory.wf s.mem

/-- The command `i` completes at instant `t`: the machine goes on in the state that follows from the device `d`, which the command's own
effect left. The queue is that of `s`, and the memories change by what `d` and what follows at once write, and by nothing else. -/
def Lands (t : Instant) (i : Instr) (s : State) (d : Dev) : Prop := exec i s = .next (landed t s d)

/-- The command `i` completes at instant `t` with an own effect that leaves a device of which `P` holds. -/
def LandsWith (t : Instant) (i : Instr) (s : State) (P : Dev → Prop) : Prop := ∃ d, Lands t i s d ∧ P d

/-- A 64-bit write of a register of the page by the master is accepted (R9, R69, R72, R427): the page exists, its domain is on, the
device is not in the safe state, the owner of the page allows the master; no power-state entry runs that a host access would wake. -/
structure Accepts (d : Dev) (m : Master) (pg : Page) : Prop where
  page  : pg.Exists = true
  live  : d.fcn.safe = false
  on    : domCond d pg.domain = 1
  owner : ownerAllows d m pg = true
  awake : m = .host → pwrState d < 3 ∧ d.pwr.entry = none

/-- The device with a register stored again as it was: what writing back its fields with a bit that only acts leaves. -/
def rewritten (d : Dev) (pg : Page) (off : Nat) : Dev := wr d pg off (rd d pg off)

/-- The message staged on a mailbox channel is command `code` with payload `p`, and the firmware starts it now (R336 to R338): an image
runs that serves the mailbox, it is the channel's turn, and no life-cycle transition is pending. -/
structure Served (d : Dev) (ch code : Nat) (p : List Byte) : Prop where
  staged : ∃ l, (mbox d ch).staged = some l ∧ leNat (l.take 2) = code ∧ leNat (slice l 8 4) = p.length ∧ slice l 32 p.length = p
    ∧ 32 + p.length ≤ l.length
  fits   : p.length ≤ 8160
  known  : mboxKnown.contains code = true ∧ romServes d = false
  runs   : firmwareRuns d = true
  turn   : mboxNext d = some ch
  steady : d.car.lcNext = none

/-- Whether MBOX_PRIV lets a channel use a class of commands (R337). -/
def privileged (d : Dev) (ch b : Nat) : Bool := rb d (.mbox 0) 0x80 (8 * ch + b)

/-- The device with the message of a channel started. -/
def opened (d : Dev) (ch : Nat) : Dev := setMbox d ch { mbox d ch with started := true }

/-- The place of a master in the order of writes that reach one page in one cycle of CLK_SYS (R59). -/
def turnOf : Master → Nat
  | .scarab => 0 | .app => 1 | .host => 2 | .spi => 3 | .inband => 4 | .lighter => 5 | .debug => 6

/-- The queue lists writes of different masters that reach one page in one cycle of CLK_SYS in the order of R59 (log 184). -/
def CycleOrdered : List Instr → Prop
  | .registerWrite t m a _ _ :: .registerWrite t' m' a' w' v' :: l =>
    (t / 2 = t' / 2 → a / 0x1000 = a' / 0x1000 → turnOf m ≤ turnOf m') ∧ CycleOrdered (.registerWrite t' m' a' w' v' :: l)
  | _ :: l => CycleOrdered l
  | [] => True

/-- The machine after n steps; a fault or a refusal holds it where it is. -/
def steps : Nat → State → State
  | 0, s => s
  | n + 1, s => match step s with
    | .next t => steps n t
    | _ => s

end Sys2Proof.Safety
end

