-- ==== Sys2Proof/Certificates/Slice0/Obligations.lean ====
section
/-! DEFINITION. The statements about the machine. A clause speaks of `d`, the device at the instant of the command: time has passed up to
it and nothing else. `Lands t c s d'` says that the command c, executed at t in the state s, completes, that d' is what its own effect left
of the device, and so that every part of the device that the written d' does not change is as it was in d; what follows every command at
once (`settle`) then acts on d', and no byte of memory changes but those that d' and what follows write. Every premise is about the state
and the operands alone. -/

open Sys2Proof Sys2Proof.Machine Sys2Proof.Safety

/-! ### The queue, the outcomes, the memories -/

/-- A step executes the command at the front of the queue with the queue's rest; on an empty queue the block idles (log 13, the
model's choice). -/
def Obligations.StepRunsFrontCommand : Prop :=
  (∀ (c : Instr) (rest : List Instr) (s : State), step { s with pending := c :: rest } = exec c { s with pending := rest })
  ∧ ∀ s : State, s.pending = [] → step s = .next s

/-- Every command completes, whatever its operands and the state, and leaves the queue as it is; so a step takes one command off the queue
and leaves the rest in order. -/
def Obligations.EveryArrivingCommandCompletes : Prop :=
  (∀ (i : Instr) (s : State), ∃ s', exec i s = .next s' ∧ s'.pending = s.pending)
  ∧ ∀ s s' : State, step s = .next s' → s'.pending = s.pending.tail

/-- A command whose operands spell nothing that can arrive at the device has no effect of its own: only time passes up to an instant, and
what follows every command at once (log 165, the model's choice). No step faults and none is refused. -/
def Obligations.IllFormedCommandsLetTimePass : Prop :=
  (∀ (i : Instr) (s : State), ¬ WellFormed i → ∃ t, Lands t i s (devAt s.dev t))
  ∧ ∀ s : State, ∃ s', step s = .next s'

/-- Every step keeps the canonical form of the memories. -/
def Obligations.StepKeepsMemoryCanonical : Prop :=
  ∀ s s' : State, MemOk s → step s = .next s' → MemOk s'

/-- The machine right after reset: memories in their canonical form, no command waiting; no page enabled, no interrupt or error bit set,
generation 0 and no commit pending (Table 2.4, R58), power state P0 (R302), local time and the domains at 0 (R200, R201), FAULT_N low
(R423), no fault reaction under way, every key slot EMPTY (R357), every mailbox channel IDLE, no frame in any queue. The values that the model chose (log 8:
memory) are among them. -/
def Obligations.ResetStateIsClean : Prop :=
  let d := State.reset.dev
  MemOk State.reset ∧ State.reset.pending = [] ∧ State.reset.mem = []
  ∧ (∀ pg : Page, enabled d pg = false ∧ rd d pg 0x20 = 0 ∧ rd d pg 0x40 = 0 ∧ genOf d pg = 0 ∧ rb d pg 0x18 4 = false
    ∧ locked d pg = false)
  ∧ pwrState d = 0 ∧ locNow d = 0 ∧ (∀ n, timeOf d n = 0)
  ∧ d.fcn.faultLow = true ∧ d.fcn.held = true ∧ d.fcn.safe = false ∧ d.fcn.chipRst = none ∧ d.fcn.log = []
  ∧ (∀ n < 256, ktypeOf (slotOf d n).attr = 0) ∧ (∀ c : Fin 4, mboxState d c.val = 0)
  ∧ (∀ n : Fin 8, slotState d n.val = 0) ∧ d.quays = [] ∧ d.tx = []

/-- The queue is emptied in as many steps as it holds commands, and the memories keep their form. -/
def Obligations.QueueDrainsInOneStepPerCommand : Prop :=
  ∀ s : State, MemOk s → (steps s.pending.length s).pending = [] ∧ MemOk (steps s.pending.length s)

/-- What a command does to the memories: a byte that neither its effect nor what follows at once writes is as it was, but for the
four commands that lose the contents of the core memories (POWER_STATE_REACHED, BOOT_SELECT, POWER_ON_RESET, SUPPLY_LOSS). -/
def Obligations.UnwrittenMemoryBytesStay : Prop :=
  ∀ (t : Instant) (s : State) (d : Dev) (a : Nat),
    (∀ e ∈ (settle (devAt s.dev t).buoy.cl s.mem d).memOut, a < e.1 ∨ e.1 + e.2.length ≤ a) →
    memByte (landed t s d).mem a = memByte s.mem a

/-! ### Registers (chapters 0 and 2) -/

/-- Stores read as written: a register after a write of a register reads the word written where it is the same one, else as before; so
does a word of a table window, and a byte of memory. -/
def Obligations.StoresReadAsWritten : Prop :=
  (∀ (d : Dev) (pg pg' : Page) (off off' : Nat) (v : W64),
    rd (wr d pg off v) pg' off' = if pg.base + off = pg'.base + off' then v else rd d pg' off')
  ∧ (∀ (d : Dev) (a c : Nat) (v : W64), trd (twr d a v) c = if c = a then v else trd d c)
  ∧ ∀ (m : List Host.Cell) (a c : Nat) (b : Byte), memByte (memPut m a b) c = if c = a then b else memByte m c

/-- A write is applied field by field (R513): rw is taken; w1c is cleared where 1 is written; ro, w1s and wo are not changed by the field
rule; rwd is taken only while the block is disabled, rwl only while the page is not locked, rws of a page with a shadow only while it is
not frozen, and a change that is refused records its cause (1, 8, 5), the value already held none. The fields of a register are applied
from the lowest bit, and the first refusal is the conflict's cause. A counter is cleared by 0, another value is ignored (R11). -/
def Obligations.FieldsActByType : Prop :=
  (∀ (d : Dev) (pg : Page) (old v w : W64) (f : Fld),
    let same := old &&& maskOf f.lo f.len == v &&& maskOf f.lo f.len
    (f.kind = .rw → fieldWrite d pg old v f (w, none) = (mergeFld w v f.lo f.len, none))
    ∧ (f.kind = .w1c → fieldWrite d pg old v f (w, none) = (w &&& ~~~(v &&& maskOf f.lo f.len), none))
    ∧ (f.kind = .ro ∨ f.kind = .w1s ∨ f.kind = .wo → fieldWrite d pg old v f (w, none) = (w, none))
    ∧ (f.kind = .rwd → fieldWrite d pg old v f (w, none)
        = if disabled d pg then (mergeFld w v f.lo f.len, none) else (w, if same then none else some 1))
    ∧ (f.kind = .rwl → fieldWrite d pg old v f (w, none)
        = if locked d pg then (w, if same then none else some 8) else (mergeFld w v f.lo f.len, none))
    ∧ (f.kind = .rws → fieldWrite d pg old v f (w, none)
        = if pg.hasShadow && shadowFrozen d pg then (w, if same then none else some 5) else (mergeFld w v f.lo f.len, none))
    ∧ ∀ c, fieldWrite d pg old v f (w, some c) = ((fieldWrite d pg old v f (w, none)).1, some c))
  ∧ (∀ (pg : Page) (off : Nat) (r : Row), pg.rowAt off = some r → r.flds.Pairwise fun f g => f.lo + f.len ≤ g.lo)
  ∧ (∀ (d : Dev) (pg : Page) (off : Nat) (v : W64) (r : Row), pg.rowAt off = some r →
    ((∀ f ∈ r.flds, f.kind ≠ .ctr) →
      let x := r.flds.foldl (fun acc f => fieldWrite d pg (rd d pg off) v f acc) (rd d pg off, none)
      (x.2 = none → writeFields d pg off v = wr d pg off x.1)
      ∧ ∀ c, x.2 = some c → writeFields d pg off v = conflict (wr d pg off x.1) pg c)
    ∧ ((∃ f ∈ r.flds, f.kind = .ctr) →
      (v ≠ 0 → writeFields d pg off v = d) ∧ (frozenPage d pg = none → writeFields d pg off 0 = wr d pg off 0)))

/-- An access error keeps the first error since the count was cleared, counts, and sets CHIP ERR_RAW[37] (Table 2.12). -/
def Obligations.AccessErrorIsLogged : Prop :=
  ∀ (d : Dev) (m cause width addr : Nat) (write : Bool), pageOf addr = none →
    let d' := accessErr d m cause write width addr
    (rd d .chip 0x110 = 0 → rd d' .chip 0x100 = BitVec.ofNat 64 addr
      ∧ rd d' .chip 0x108 = mkWord [(0, m), (4, cause), (8, write.toNat), (9, width)])
    ∧ (rd d .chip 0x110 ≠ 0 → rd d' .chip 0x100 = rd d .chip 0x100 ∧ rd d' .chip 0x108 = rd d .chip 0x108)
    ∧ rd d' .chip 0x110 = BitVec.ofNat 64 (min ctrMax ((rd d .chip 0x110).toNat + 1))
    ∧ rb d' .chip 0x40 37 = true

/-- A write in the safe state is discarded; one that is refused is an access error with its cause, and has no other effect. -/
def Obligations.RefusedWriteOnlyLogs : Prop :=
  ∀ (s : State) (t : Instant) (m : Master) (addr : Nat) (v : W64), m ≠ .host →
    let d := devAt s.dev t
    (d.fcn.safe = true → Lands t (.registerWrite t m addr 3 v) s d)
    ∧ (∀ pg, d.fcn.safe = false → addr % 8 = 0 → addr < 0x01000000 → pageOf addr = some pg → domCond d pg.domain = 1 →
        (pg.hasShadow = false ∨ addr % 0x1000 < 0x800) → ownerAllows d m pg = false →
        Lands t (.registerWrite t m addr 3 v) s (accessErr d (masterCode m) 3 true 3 addr))

/-- Accepted writes of the page header: IRQ_FORCE sets IRQ_RAW bits, ERR_FORCE sets the ERR_RAW bits that are sources of the page where
the life cycle lets the master force, PG_LOCK locks the page for good and names its locker; any other accepted write reaches the
register of its page, and an accepted write of a plain table word stores the bits the entry has. -/
def Obligations.PageHeaderWritesAct : Prop :=
  ∀ (s : State) (t : Instant) (m : Master) (pg : Page), let d := devAt s.dev t
    Accepts d m pg →
    (∀ v, Lands t (.irqForce t m pg v) s (irqRawPut d pg (rd d pg 0x20 ||| v)))
    ∧ (∀ v, forceAllowed d m = true → LandsWith t (.errForce t m pg v) s fun d' =>
        ∀ b < 64, rb d' pg 0x40 b = (rb d pg 0x40 b || (bit v b && (pg.errSource b).isSome)))
    ∧ (locked d pg = false →
        Lands t (.pageLock t m pg) s (wb (wr d pg 0x60 (mkWord [(0, 1), (1, masterCode m)])) pg 0x18 8 true))
    ∧ (∀ off v, off % 8 = 0 → (off < 0x800 ∨ off < 0x1000 ∧ pg.hasShadow = false) →
        Lands t (.registerWrite t m (pg.base + off) 3 v) s (regWrite s.mem d m pg off v))
    ∧ (∀ a v, 0x01000000 ≤ a → winPage a = pg → writeCause d m a 3 = 0 → sealedAddr d a = false →
        (winLen ((a - 0x01000000) / 0x400000)).2 = false ∨ shadowFrozen d pg = false → (winLayout a).2 = false →
        ¬ (0x02800000 ≤ a ∧ a < 0x02810000) →
        Lands t (.tableWindowWrite t m a 3 v) s (twr d a (v &&& (winLayout a).1)))

/-- A read of a register of a page whose domain is on answers the register's value as the page shows it, and a read of a drain aperture
what the aperture gives; where the register is secret, 0 (R9, R41, R70). -/
def Obligations.RegisterReadsAnswer : Prop :=
  ∀ (s : State) (t : Instant) (m : Master) (pg : Page) (off : Nat), let d := devAt s.dev t
    pg.Exists = true → domCond d pg.domain = 1 → off < 0x1000 → off % 8 = 0 →
    (m = .host → pwrState d < 3 ∧ d.pwr.entry = none) → secretFor m pg off = false →
    (drainRead d pg off (pg.base + off) 3 = none →
      Lands t (.registerRead t m (pg.base + off) 3) s (emit (afterRead d pg off) (.readData (regValue s.mem d pg off))))
    ∧ (∀ v d', drainRead d pg off (pg.base + off) 3 = some (v, d') →
      Lands t (.apertureDrainRead t m (pg.base + off) 3) s (emit d' (.readData v)))

/-- PG_CTRL (R46, R47). ENABLE = 1 sets ENABLE, RUNNING where no soft reset runs, and clears QUIESCED, and lets a PHY begin to bring its
link up and the XWE reckon its ticks from then on; it changes nothing of a page that is enabled, and a page that may not be enabled refuses it as INVALID_VALUE. ENABLE = 0 clears
ENABLE and RUNNING; a PHY whose work has ended takes its link down, a MAC page without a link frees what waits for it. FREEZE = 1 stores
what the page shows at that instant, FREEZE = 0 drops it. A disabled page whose work has ended is QUIESCED, one that still has work, or
that is enabled, is as it was; with QUIESCED a PHY that still holds a link takes it down, the Ferry frees the copies for port 28. -/
def Obligations.PageControlActs : Prop :=
  ∀ (s : State) (t : Instant) (m : Master) (pg : Page), let d := devAt s.dev t
    let e := rewritten d pg 0x10
    (Accepts d m pg →
      (enabled d pg = true → Lands t (.blockEnable t m pg) s e)
      ∧ (enabled d pg = false → enableRefused d pg = true → Lands t (.blockEnable t m pg) s (invalidValue d pg))
      ∧ (enabled d pg = false → enableRefused d pg = false →
        let g := wb (wb (wb e pg 0x10 0 true) pg 0x18 0 (!rb d pg 0x10 1)) pg 0x18 1 false
        ((∀ p : Fin 26, pg ≠ phyPage p.val) → Lands t (.blockEnable t m pg) s (if pg = .xwe then xweTicksAnew g else g))
        ∧ (∀ p : Fin 26, pg = phyPage p.val → Lands t (.blockEnable t m pg) s
          (let x := portSt d p.val
           let g1 := setPort g p.val { x with warmFrom := if x.record.isSome then some d.now else none, fallback := false }
           if warmPort p.val = true ∧ x.record = none ∧ rb d pg 0xa0 0 = true then cnt g1 pg 0x220 1 else g1))
        ∧ LandsWith t (.blockEnable t m pg) s fun d' =>
          enabled d' pg = true ∧ running d' pg = (!rb d pg 0x10 1) ∧ rb d' pg 0x18 1 = false)
      ∧ (enabled d pg = false → Lands t (.blockDisable t m pg) s e)
      ∧ (enabled d pg = true →
        let g := wb (wb e pg 0x10 0 false) pg 0x18 0 false
        ((∀ p : Fin 26, pg ≠ phyPage p.val ∧ pg ≠ macPage p.val) → Lands t (.blockDisable t m pg) s g)
        ∧ (∀ p : Fin 26, pg = phyPage p.val → Lands t (.blockDisable t m pg) s (if workLeft d pg then g else linkDown g p.val))
        ∧ (∀ p : Fin 26, pg = macPage p.val → Lands t (.blockDisable t m pg) s (if linkIsUp d p.val then g else flushPort g p.val))
        ∧ LandsWith t (.blockDisable t m pg) s fun d' => enabled d' pg = false ∧ running d' pg = false)
      ∧ (rb d pg 0x10 2 = false → kvGet d.frz pg.base = none →
        let g := wb e pg 0x10 2 true
        let sel := if selectedNow g pg = {} then g.frzSel else kvPut g.frzSel pg.base (selectedNow g pg)
        Lands t (.freeze t m pg true) s { g with frz := kvPut g.frz pg.base (frozenRegs s.mem g pg), frzSel := sel })
      ∧ (rb d pg 0x10 2 = true →
        let g := wb e pg 0x10 2 false
        Lands t (.freeze t m pg false) s { g with frz := kvDel g.frz pg.base, frzSel := kvDel g.frzSel pg.base })
      ∧ (∀ on, rb d pg 0x10 2 = on → Lands t (.freeze t m pg on) s e))
    ∧ (pg.Exists = true →
      (enabled d pg = true ∨ workLeft d pg = true → Lands t (.blockQuiesced t pg) s d)
      ∧ (enabled d pg = false → workLeft d pg = false →
        (phyHolds d pg = false → pg ≠ .ferry → pg ≠ macPage 28 → Lands t (.blockQuiesced t pg) s (wb d pg 0x18 1 true))
        ∧ (pg = .ferry ∨ pg = macPage 28 → Lands t (.blockQuiesced t pg) s
          (takeCopies (wb d pg 0x18 1 true) 3 (fun c => c.port == 28) fun d c => freeCopy (cnt d (macPage 28) 0x198 1) c))
        ∧ LandsWith t (.blockQuiesced t pg) s fun d' => rb d' pg 0x18 1 = true))

/-- A block soft reset (R20, R21, R88, R421): the pages of the block stop with SRST set, the datapath state is forgotten and the reset
shadow opens; its end lets the enabled pages run, PLCA of an S port begin anew, restarts refills and sets the end of the shadow; after 100 µs without an end RESET_TIMEOUT is
raised for the block; a shadow whose time has come closes. -/
def Obligations.BlockSoftResetActs : Prop :=
  ∀ (s : State) (t : Instant) (pg : Page), let d := devAt s.dev t
    pg.Exists = true → (∀ n i, pg ≠ .quay n i) →
    ((kvGet d.srst (blockBase pg) = none ∧ (∀ n, pg.quayOf = some n → (quay d n.val).isoAt = none)) →
      let d1 := pg.blockPages.foldl (fun d pg => wb (wb d pg 0x18 0 false) pg 0x10 1 true) d
      Lands t (.blockSoftReset t none pg) s
        (blockClear (openShadow { d1 with srst := kvPut d1.srst (blockBase pg) d.now } (blockBase pg) false) pg))
    ∧ (∀ m, Accepts d m pg → Lands t (.blockSoftReset t (some m) pg) s (softResetOp (wr d pg 0x10 (rd d pg 0x10)) pg))
    ∧ (∀ x, kvGet d.srst (blockBase pg) = some x →
      let d1 := pg.blockPages.foldl (fun d pg => wb d pg 0x10 1 false) { d with srst := kvDel d.srst (blockBase pg) }
      let d2 := pagesStart d1 pg.blockPages
      let d3 := match pg with | .port p _ => plcaBegin d2 p.val | _ => d2
      Lands t (.softResetEnd t pg) s (endShadow (restartRefills d3 pg.blockPages) (blockBase pg) false)
      ∧ (x + 100 * usTicks ≤ d.now → Lands t (.resetTimeout t pg) s (raiseEsc d .chip 33 (some pg))))
    ∧ Lands t (.resetShadowClose t pg) s { d with fcn := { d.fcn with shadows := d.fcn.shadows.filter fun x =>
        !(x.base == blockBase pg && x.quay == false && (match x.closes with | some c => decide (c ≤ d.now) | none => false)) } }

/-- A quay reset (R24 to R28): the quay's frames are cut, its pages stop with SRST set, its shadow opens; a second reset within 1 s is
escalated instead; the drain's end, 1,048 cycles of CLK_FAB later and not before, forgets the quay's queues, clears SRST, lets its pages run
and sets the end of the shadow, and that of quay 3 the work of the Ferry, counted. -/
def Obligations.QuayResetActs : Prop :=
  ∀ (s : State) (t : Instant) (q : Fin 4), let d := devAt s.dev t
    ((quay d q.val).isoAt = none → domUp d (5 + q.val) = true →
      ((∀ x, (quay d q.val).resetAt = some x → x + secUnits ≤ locNow d) →
        let d0 := (quayPages q.val).foldl (fun d pg => wb d pg 0x10 1 true) (pagesStop (quayCut d q.val) (quayPages q.val))
        let d1 := openShadow d0 (quayPage q.val 0).base true
        Lands t (.quayReset t none q) s
          (setQuay d1 q.val { quay d1 q.val with isoAt := some d.now, resetAt := some (locNow d) }))
      ∧ (∀ x, (quay d q.val).resetAt = some x → locNow d < x + secUnits →
        Lands t (.quayReset t none q) s (raiseEsc d .chip 34 none)))
    ∧ (∀ m, Accepts d m (.quay q 0) →
        Lands t (.quayReset t (some m) q) s (quayResetOp (wr d (.quay q 0) 0x10 (rd d (.quay q 0) 0x10)) q.val))
    ∧ (∀ x, (quay d q.val).isoAt = some x →
      (d.now < x + 1048 → Lands t (.quayDrainEnd t q) s d)
      ∧ (x + 1048 ≤ d.now →
        let d1 := (quayPages q.val).foldl (fun d pg => wb d pg 0x10 1 false) (quayForget d q.val)
        let d2 := pagesStart (setQuay d1 q.val { quay d1 q.val with isoAt := none }) (quayPages q.val)
        let d3 := endShadow (restartRefills d2 (quayBlocks q.val)) (quayPage q.val 0).base true
        (q ≠ 3 → Lands t (.quayDrainEnd t q) s d3)
        ∧ (q = 3 → Lands t (.quayDrainEnd t q) s
          (setFerry (cnt d3 .ferry 0x218 (d3.ferry.ready.length + d3.ferry.carriers.flatten.length))
            fun f => { f with ready := [], carriers := [] }))))

/-- A commit request (R54): the page accepts it only with the next generation number, no commit or refill under way, valid shadow values
and, for a Tide, a Tide-capable page and a slot that is IDLE or OPEN; it is then pending, and a Tide joins its slot. Otherwise COMMIT_REJECT
is raised, and nothing else changes but the conflict and its cause, the first condition that fails (the order is the model's, log 62). A page
without a shadow logs the write as NO_SHADOW. -/
def Obligations.CommitRequestActs : Prop :=
  ∀ (d : Dev) (m : Master) (pg : Page) (v : W64), let next := (genOf d pg + 1) % 2 ^ 32
    (pg.hasShadow = false → ∀ ok, commitReq d m pg v ok = accessErr d (masterCode m) 7 true 3 (pg.base + 0x58))
    ∧ (pg.hasShadow = true →
      let slot := fld v 33 3
      let reject := fun c : Nat => conflict (irq d pg 62) pg c
      (fld v 0 32 ≠ next → ∀ ok, commitReq d m pg v ok = reject 2)
      ∧ (fld v 0 32 = next → shadowFrozen d pg = true → ∀ ok, commitReq d m pg v ok = reject 4)
      ∧ (fld v 0 32 = next → shadowFrozen d pg = false →
        commitReq d m pg v false = reject 3
        ∧ (bit v 32 = true → pg.tide = false → commitReq d m pg v true = reject 7)
        ∧ (bit v 32 = true → pg.tide = true → 2 ≤ slotState d slot → commitReq d m pg v true = reject 6)
        ∧ (let e := wb (wf (wr d pg 0x58 (v &&& maskOf 0 36)) pg 0x50 32 32 next) pg 0x18 4 true
          (bit v 32 = false → commitReq d m pg v true = { e with commitAt := kvPut e.commitAt pg.base e.now })
          ∧ (bit v 32 = true → pg.tide = true → slotState d slot ≤ 1 →
            let o := 0x410 + slot * 0x20
            let f := wf (wb e pg 0x18 23 true) pg 0x18 20 3 slot
            commitReq d m pg v true = wf (wf f .chip o 2 3 1) .chip o 16 16 (rf f .chip o 16 16 + 1)))))

/-- Commits and Tide joins are writes of CFG_COMMIT; the switch of an immediate commit is made at its point and not before; the end of
the refill, which waits while the block is in reset, clears MIRROR_BUSY and raises COMMIT_DONE; a signature pass of a page that runs with SIG_EN shows its result and reports a
mismatch (R54, R57, R55, R61). -/
def Obligations.CommitCommandsAct : Prop :=
  ∀ (s : State) (t : Instant) (pg : Page), let d := devAt s.dev t
    pg.Exists = true →
    (∀ m gen, Accepts d m pg →
      Lands t (.commitImmediate t m pg gen) s (commitOp d m pg (mkWord [(0, gen.toNat)]))
      ∧ ∀ slot : Fin 8, Lands t (.tideJoin t m pg gen slot) s (commitOp d m pg (mkWord [(0, gen.toNat), (32, 1), (33, slot.val)])))
    ∧ (∀ a, kvGet d.commitAt pg.base = some a →
      (switchDue pg a ≤ d.now → Lands t (.commitSwitch t pg) s (fireSwitch d [pg] none))
      ∧ (d.now < switchDue pg a → Lands t (.commitSwitch t pg) s d))
    ∧ (∀ a, kvGet d.refillAt pg.base = some a → d.now < a ∨ inReset d pg = true → Lands t (.mirrorRefillEnd t pg) s d)
    ∧ (∀ a, kvGet d.refillAt pg.base = some a → a ≤ d.now → inReset d pg = false → pg ≠ .xwe → kvGet d.tideRef pg.base = none →
      Lands t (.mirrorRefillEnd t pg) s (irq (wb { d with refillAt := kvDel d.refillAt pg.base } pg 0x18 5 false) pg 63))
    ∧ (ab d pg 0x10 3 = true → disabled d pg = false →
      let d1 := { (wf d pg 0x68 32 32 (signature d pg)) with sigFrom := kvPut d.sigFrom pg.base d.now }
      (signature d pg = af d1 pg 0x68 0 32 → Lands t (.signaturePass t pg) s d1)
      ∧ (signature d pg ≠ af d1 pg 0x68 0 32 →
        Lands t (.signaturePass t pg) s (raise (irq (wb d1 pg 0x18 6 true) pg 60) pg 63)))

/-- A switch takes the shadow copies as active ones, makes NEXT_GEN the generation, ends COMMIT_PENDING and begins the refill (R55). -/
def Obligations.SwitchMakesShadowActive : Prop :=
  ∀ (d : Dev) (pg : Page), (∀ i, pg ≠ .buoy i) →
    let d' := switchPage d pg
    d'.act = copyShadow d.regs d.act pg
    ∧ genOf d' pg = rf d pg 0x50 32 32
    ∧ rb d' pg 0x18 4 = false ∧ rb d' pg 0x18 5 = true ∧ rb d' pg 0x18 23 = false
    ∧ kvGet d'.commitAt pg.base = none
    ∧ kvGet d'.refillAt pg.base = some (d.now + refillTicks pg)

/-- Tide slots (R62 to R66): the time is accepted while the slot is IDLE or OPEN and ignored else; ARM arms an OPEN slot whose
conditions hold and else records the first one that fails; CANCEL of an OPEN slot ends it as cancelled, of a FIRED one only sets
CANCEL_LATE; both together are ignored; an ARMED slot fires when its domain's time has reached the Tide time. -/
def Obligations.TideCommandsAct : Prop :=
  ∀ (s : State) (t : Instant) (n : Fin 8), let d := devAt s.dev t
    let o := 0x410 + n.val * 0x20
    (∀ m, Accepts d m .chip →
      (∀ isNs v, slotState d n.val ≤ 1 → Lands t (.tideTimeWrite t m n isNs v) s
        (writeFields d .chip ((if isNs then 0x408 else 0x400) + n.val * 0x20) v))
      ∧ (∀ isNs v, 2 ≤ slotState d n.val → Lands t (.tideTimeWrite t m n isNs v) s d)
      ∧ (∀ v, bit v 1 = false → slotState d n.val = 1 → armReject d n.val = 0 →
        Lands t (.tideArm t m n v) s (wf (wf d .chip (o + 8) 4 4 0) .chip o 2 3 2))
      ∧ (∀ v, bit v 1 = false → slotState d n.val = 1 → armReject d n.val ≠ 0 →
        Lands t (.tideArm t m n v) s (wf d .chip (o + 8) 4 4 (armReject d n.val)))
      ∧ (∀ v, bit v 0 = false → slotState d n.val = 1 →
        Lands t (.tideCancel t m n v) s (slotEnd d n.val 2 (rf d .chip (o + 8) 9 3) (rf d .chip (o + 8) 12 14)))
      ∧ (∀ v, bit v 0 = false → slotState d n.val = 3 → Lands t (.tideCancel t m n v) s (wb d .chip (o + 8) 8 true))
      ∧ (∀ v, bit v 0 = true → Lands t (.tideCancel t m n v) s d))
    ∧ (slotState d n.val = 2 → (slotTime d n.val).1 ≤ timeOf d (slotTime d n.val).2 →
      let d1 := fireSwitch d (joinedPages d n.val) (some (slotTime d n.val))
      let d2 := (joinedPages d n.val).foldl (fun d pg => irq { d with tideRef := kvPut d.tideRef pg.base n.val } pg 61) d1
      Lands t (.tideFire t n) s (wf (wf d2 .chip o 2 3 3) .chip o 32 16 (joinedPages d n.val).length))

/-- Memory integrity and clock monitors (R17, R18, R19, R34, R416): a word that reads clean changes nothing; a corrected or an
uncorrectable error of a region whose domain is up is the region's error; the word of the tables that errs twice in a pass is replaced by
a spare of its bank while it has one, an entry of the tables that cannot be corrected is lost; a free cell that fails its test is
withdrawn; a clock outside ±5 %, and a CLK_BUOY that stops or deviates as much, is reported, the Fault Concentrator going on with CLK_BUOY
where it is its own clock. -/
def Obligations.IntegrityChecksReport : Prop :=
  ∀ (s : State) (t : Instant), let d := devAt s.dev t
    (∀ (r : Fin 15) (w : Nat), Lands t (.scrubAccess t r w .clean) s d)
    ∧ (∀ (r : Fin 15) (w : Nat), 2 ≤ r.val → regionUp d r.val = true →
      ∀ k, Lands t (.scrubAccess t r w (.uncorrectable k)) s (raise d .chip (16 + r.val))
      ∧ Lands t (.scrubAccess t r w (.corrected k)) s (seenTwice (raise d .chip r.val) r.val w).2)
    ∧ (∀ (w k : Nat), domUp d 9 = true →
      Lands t (.scrubAccess t 1 w (.uncorrectable k)) s (entryLost (raise d .chip 17) (0x01000000 + w * 8))
      ∧ (let x := seenTwice (raise d .chip 1) 1 w
        let b := Config.tableBank w
        let used := kvD x.2.scrub.spares b 0
        (x.1 = false → Lands t (.scrubAccess t 1 w (.corrected k)) s x.2)
        ∧ (x.1 = true → used < 32 → Lands t (.scrubAccess t 1 w (.corrected k)) s
          { x.2 with scrub := { x.2.scrub with spares := kvPut x.2.scrub.spares b (used + 1) } })
        ∧ (x.1 = true → 32 ≤ used → Lands t (.scrubAccess t 1 w (.corrected k)) s (raise x.2 .chip 32))))
    ∧ (∀ (q : Fin 4) (cell : Nat), domUp d (5 + q.val) = true → domUp d 9 = true → ¬ cell ∈ d.retired1 →
      Lands t (.freeCellTest t q cell false) s (raise { d with retired1 := d.retired1 ++ [cell] } .chip 0)
      ∧ Lands t (.freeCellTest t q cell true) s d)
    ∧ (∀ (c : Fin 7) (n : Nat), pwrState d < 3 →
      let e := if c.val = 4 then { d with fcn := { d.fcn with onBuoyClk := true } } else d
      (windowCount c.val < 20 * (n - windowCount c.val) ∨ windowCount c.val < 20 * (windowCount c.val - n) →
        Lands t (.clockMonitorWindow t c n) s (raise e .clk c.val))
      ∧ (20 * (n - windowCount c.val) ≤ windowCount c.val → 20 * (windowCount c.val - n) ≤ windowCount c.val →
        Lands t (.clockMonitorWindow t c n) s d))
    ∧ (∀ ppm, Lands t (.clkBuoyMonitor t true ppm) s (raise d .clk 7)
      ∧ (50000 < ppm → Lands t (.clkBuoyMonitor t false ppm) s (raise d .clk 7))
      ∧ (ppm ≤ 50000 → Lands t (.clkBuoyMonitor t false ppm) s d))


/-! ### Ports and media (chapter 3) -/

/-- PAUSE and LPI (R73, R176, R93, R94): a received PAUSE frame is counted, and where it is honoured the port pauses for its quanta of
512 bit times, a quantum of 0 ending the pause; the pause ends when its time has run out, not before; a port that can use EEE and has been
empty for IDLE_US enters LPI; it is awake when TW has passed, which a due gate opening starts; a change of the partner's LPI is shown. -/
def Obligations.PauseAndLpiAct : Prop :=
  ∀ (s : State) (t : Instant) (p : Fin 26), let d := devAt s.dev t
    let pg := macPage p.val
    (∀ quanta, rxAccepts d p.val = true →
      let d1 := cnt (cnt (cnt (cnt d pg 0x130 1) pg 0x108 1) pg 0x100 64) pg 0x150 1
      Lands t (.pauseReceived t p quanta) s (if ab d1 pg 0x80 4 = false then d1 else
        wb (setPort d1 p.val { portSt d1 p.val with pauseEnd := if quanta = 0 then none
                                                                else some (d.now + octetTicks (quanta * 64) (portRate d p.val)) })
          pg 0xb8 11 (quanta != 0)))
    ∧ (∀ x, (portSt d p.val).pauseEnd = some x →
      (x ≤ d.now → Lands t (.pauseExpiry t p) s (wb (setPort d p.val { portSt d p.val with pauseEnd := none }) pg 0xb8 11 false))
      ∧ (d.now < x → Lands t (.pauseExpiry t p) s d))
    ∧ (eeeReady d p.val = true → portBusy d p.val = false → lpiOn d p.val = false →
      gateSoon d p.val (eeeTw d p.val + usTicks) = false → (portSt d p.val).emptyFrom + eeeIdle d p.val ≤ d.now →
      let d1 := irq (cnt (wb d pg 0xb8 9 true) pg 0x1c0 1) pg 2
      Lands t (.lpiEntry t p) s (setPort d1 p.val { portSt d1 p.val with lpiFrom := some d.now, lpiWakeAt := none }))
    ∧ (∀ x y, lpiOn d p.val = true → (portSt d p.val).lpiWakeAt = some x → x ≤ d.now → (portSt d p.val).lpiFrom = some y →
      let d1 := setPort d p.val { portSt d p.val with lpiFrom := none, lpiWakeAt := none, emptyFrom := d.now }
      Lands t (.lpiWake t p) s (irq (cnt (wb d1 pg 0xb8 9 false) pg 0x1c8 ((d.now - y) / usTicks)) pg 2))
    ∧ (lpiOn d p.val = true → (portSt d p.val).lpiWakeAt = none → gateSoon d p.val (eeeTw d p.val) = true →
      Lands t (.lpiGateWake t p) s (setPort d p.val { portSt d p.val with lpiWakeAt := some (d.now + eeeTw d p.val) }))
    ∧ (∀ on, linkIsUp d p.val = true → portType p.val = .m ∨ portType p.val = .g → rb d pg 0xb8 10 ≠ on →
      Lands t (.rxLpiChange t p on) s (irq (wb d pg 0xb8 10 on) pg 2))

/-- Link loss and link-up (R76 to R79, R132). A link that is lost: a frame on the wire and those in reception break off, LINK_UP, the LPI
state and a pause fall, the verification of preemption begins anew, the change is counted and raised, the PHY page shows a link that is
down, PLCA of an S port ends, and with DOWN_FLUSH the queued copies are freed and TX_FLUSH raised; a B port shows whether the fault is its
own or its partner's and signals its own where it may; a PHY that runs begins to bring the link up again. A link that comes up shows its
speed, role and kind of training in MAC_LINK_STAT; the verification of frame preemption ends with its result. -/
def Obligations.LinkChangesAct : Prop :=
  ∀ (s : State) (t : Instant) (p : Fin 26), let d := devAt s.dev t
    let pg := macPage p.val
    let ph := phyPage p.val
    (linkIsUp d p.val = true →
      let d1 := breakRx (breakTx d p.val) p.val true
      let d2 := wf (wf d1 pg 0xb8 0 1 0) pg 0xb8 9 3 0
      let d3 := setPort d2 p.val { portSt d2 p.val with lpiFrom := none, lpiWakeAt := none, pauseEnd := none }
      let d5 := wf (wf (verifyStart (irq (cnt d3 pg 0xc0 1) pg 0) p.val) ph 0x98 0 3 0) ph 0x80 0 4 0
      let d6 := if enabled d5 ph then raise d5 ph 2 else d5
      let d7 := if portType p.val = .s then wf d6 ph 0xe0 0 2 0 else d6
      let d8 := if ab d7 pg 0x80 14 then irq (flushPort d7 p.val) pg 3 else d7
      linkDown d p.val = d8
      ∧ ∀ remote,
        let d9 := if portType p.val = .b then wb (wb d8 pg 0xb8 7 (!remote)) pg 0xb8 8 remote else d8
        let d10 := if portType p.val = .b ∧ remote = false ∧ ab d9 pg 0x80 6 = true then emit d9 (.remoteFault p.val) else d9
        Lands t (.linkLoss t ⟨p, remote⟩) s (if running d10 ph then phyStart d10 p.val else d10))
    ∧ (linkIsUp d p.val = false → ∀ remote, Lands t (.linkLoss t ⟨p, remote⟩) s d)
    ∧ (∀ speed isMaster warm lat, speed ≤ 6 → linkIsUp d p.val = false → running d ph = true → (portSt d p.val).jabber = false →
      let w := warmTrying d p.val && !warmPast d p.val (warmWindow d p.val + 1) && warm
        && (decide (p.val < 4) || (portSt d p.val).record == some (speed, isMaster))
      LandsWith t (.linkUp t p speed isMaster warm lat) s fun d' =>
        rd d' pg 0xb8 = mkWord [(0, 1), (1, speed), (5, isMaster.toNat), (6, w.toNat)]
        ∧ rb d' pg 0x20 0 = true
        ∧ (portType p.val ≠ .b → rd d' (tsPage p.val) 0x88 = lat)
        ∧ rb d' ph 0x80 0 = true
        ∧ (w = true → rf d' ph 0xa8 1 2 = 1))
    ∧ (rf d pg 0xb0 0 2 = 1 →
      (∀ ok, Lands t (.mergeVerify t p ok) s (irq (mergeUpdate (wf d pg 0xb0 0 2 (if ok then 2 else 3)) p.val) pg 1)))
    ∧ (rf d pg 0xb0 0 2 ≠ 1 → ∀ ok, Lands t (.mergeVerify t p ok) s d)

/-- Warm relink of B, M and G ports (R80 to R85): SAVE on a link that is up records speed and role and copies every valid record to the
configuration store; FLUSH drops the record; in a warm attempt a partner that cold-trains, a fingerprint that differs by more than its
limits, the passing of the window, and no block lock on a B port within 0.3 ms each drop the record, count their cause and report the
fallback, and nothing happens before its time. -/
def Obligations.WarmRelinkActs : Prop :=
  (∀ (x : Dev) (k : Fin 26), portSt (recordsToFlash x) k.val = { portSt x k.val with recFlash :=
    if (portSt x k.val).record.isSome then (portSt x k.val).record else (portSt x k.val).recFlash })
  ∧ ∀ (s : State) (t : Instant) (p : Fin 26), let d := devAt s.dev t
    let ph := phyPage p.val
    let e := rewritten d ph 0xa0
    (∀ m, warmPort p.val = true → Accepts d m ph →
      (linkIsUp d p.val = true → Lands t (.phyWarmSave t m p) s
        (recordsToFlash (setRecord e p.val (some (rf d (macPage p.val) 0xb8 1 4, rb d (macPage p.val) 0xb8 5)))))
      ∧ Lands t (.phyWarmFlush t m p) s (setRecord e p.val none))
    ∧ (warmTrying d p.val = true →
      let fall := fun ctr =>
        let d1 := setRecord (cnt d ph ctr 1) p.val none
        irq (wf (setPort d1 p.val { portSt d1 p.val with fallback := true, warmFrom := none }) ph 0xa8 1 2 2) ph 0
      (4 ≤ p.val → Lands t (.warmFbPartner t p) s (fall 0x210))
      ∧ (∀ echo sqi ppm, 4 ≤ p.val → rf d ph 0xa0 4 8 < echo ∨ sqi < rf d ph 0xa0 12 3 ∨ 50 < ppm →
        Lands t (.fingerprintCheck t p echo sqi ppm) s (fall 0x208))
      ∧ (∀ echo sqi ppm, echo ≤ rf d ph 0xa0 4 8 → rf d ph 0xa0 12 3 ≤ sqi → ppm ≤ 50 →
        Lands t (.fingerprintCheck t p echo sqi ppm) s d)
      ∧ (∀ x, (portSt d p.val).warmFrom = some x →
        (x + warmWindow d p.val ≤ d.now → Lands t (.warmTimeout t p) s (fall 0x218))
        ∧ (d.now < x + warmWindow d p.val → Lands t (.warmTimeout t p) s d)
        ∧ (p.val < 4 → x + 300 * usTicks ≤ d.now → Lands t (.blockLockTimeout t p) s (fall 0x218))
        ∧ (d.now < x + 300 * usTicks → Lands t (.blockLockTimeout t p) s d)))

/-- The 10BASE-T1S segments of the S ports (R86 to R91): a beacon takes the committed PLCA settings and makes a follower PLCA-active, and
is an error on the segment of a coordinator; 4,000 bit times without one end that; a collision counts and the frame is tried again after a
backoff of 0 to 2^k - 1 slot times, whose number is a free value (log 191), or, after 16 attempts, dropped; noise events beyond the
threshold of their window are reported; jabber is counted, and a frame of the port's own that lasts 2 ms silences it. -/
def Obligations.SharedSegmentEventsAct : Prop :=
  ∀ (s : State) (t : Instant) (p : Fin 26), let d := devAt s.dev t
    let ph := phyPage p.val
    portType p.val = .s → running d ph = true →
    (ab d ph 0xd8 0 = true → linkIsUp d p.val = true →
      let node := fld (portSt d p.val).plcaNow 1 8
      let seen := fun e : Dev => wb (wb (setPort e p.val { portSt e p.val with plcaNow := ac e ph 0xd8, beaconAt := e.now, burst := 0 })
        ph 0xe0 0 true) ph 0xe0 1 false
      (node = 0 → Lands t (.plcaBeacon t p) s (seen (irq (wb (cnt d ph 0x250 1) ph 0xe0 2 true) ph 1)))
      ∧ (node ≠ 0 → Lands t (.plcaBeacon t p) s (seen d))
      ∧ (node ≠ 0 → (portSt d p.val).beaconAt + 400 * usTicks ≤ d.now → rb d ph 0xe0 1 = false →
        Lands t (.plcaBeaconLoss t p) s (irq (cnt (wb (wb d ph 0xe0 0 false) ph 0xe0 1 true) ph 0x240 1) ph 1))
      ∧ (d.now < (portSt d p.val).beaconAt + 400 * usTicks → Lands t (.plcaBeaconLoss t p) s d))
    ∧ (∀ late f, kvGet d.tx p.val = some f →
      let d2 := cnt (if rb d ph 0xe0 0 then cnt d ph 0x248 1 else d) (macPage p.val) (if late then 0x1b0 else 0x1a8) 1
      (f.tries + 1 < 16 →
        let k := Config.freeValue d2.frees % 2 ^ min 10 (f.tries + 1)
        let start := d.now + octetTicks (4 + 12 + 64 * k) (portRate d p.val)
        Lands t (.plcaCollision t p late) s { d2 with frees := d2.frees + 1, tx := kvPut d2.tx p.val { f with
          tries := f.tries + 1, start := start, begun := start, stamp := none, ends := start + octetTicks (8 + f.total) (portRate d p.val) } })
      ∧ (16 ≤ f.tries + 1 → Lands t (.plcaCollision t p late) s
        (freeCopy (cnt { cbsSync d2 p.val with tx := kvDel d2.tx p.val } (macPage p.val) 0x1b8 1) f.copy)))
    ∧ (∀ k, let d1 := cnt d ph (match k with | .symErr => 0x268 | .esdErr => 0x270 | .emptyCarrier => 0x278) 1
      let l := ((portSt d1 p.val).noise.filter fun x => decide (d.now < x + noiseWindow d p.val)) ++ [d.now]
      let d2 := setPort d1 p.val { portSt d1 p.val with noise := l }
      Lands t (.noiseEvent t p k) s (if af d2 ph 0xe8 0 16 < l.length then irq (raise d2 ph 0) ph 3 else d2))
    ∧ Lands t (.jabberRx t p) s (cnt d ph 0x280 1)
    ∧ (∀ f, kvGet d.tx p.val = some f → (portSt d p.val).jabber = false →
      (f.start + 2 * msTicks ≤ d.now →
        let d1 := raise (cnt (linkDown d p.val) ph 0x288 1) ph 1
        Lands t (.jabberTx t p) s (setPort d1 p.val { portSt d1 p.val with jabber := true }))
      ∧ (d.now < f.start + 2 * msTicks → Lands t (.jabberTx t p) s d))

/-- TC10 of the M and G ports (R95 to R97): SLEEP_REQ on a link that is up sends the request; its answer, or 16 ms without one, sets STATE
and its counter, an acknowledge with the record saved and the link lost; a partner's request that crosses the port's own acknowledges it,
another is accepted where sleep is allowed and nothing is queued and else rejected; WUR sends a wake-up request. -/
def Obligations.Tc10Acts : Prop :=
  ∀ (s : State) (t : Instant) (p : Fin 26), let d := devAt s.dev t
    let ph := phyPage p.val
    let e := rewritten d ph 0xc0
    let sleep := fun d => irq (wf (linkDown (saveRecord d p.val) p.val) ph 0xc8 0 3 3) ph 5
    let waits := (queued d (quayOfPort p.val)).any fun e => e.2.port == p.val
    (∀ m, tc10Port p.val = true → linkIsUp d p.val = true → Accepts d m ph →
      Lands t (.tc10SleepReq t m p) s
        (emit (wf (setPort e p.val { portSt e p.val with tc10From := some d.now }) ph 0xc8 0 3 1) (.tc10 p.val 0))
      ∧ Lands t (.tc10Wur t m p) s (emit e (.tc10 p.val 1)))
    ∧ (rf d ph 0xc8 0 3 = 1 →
      Lands t (.tc10SleepAck t p) s (cnt (sleep d) ph 0x290 1)
      ∧ Lands t (.tc10SleepReject t p) s (cnt (irq (wf d ph 0xc8 0 3 4) ph 5) ph 0x298 1)
      ∧ (∀ x, (portSt d p.val).tc10From = some x → x + 16 * msTicks ≤ d.now →
        Lands t (.tc10SleepTimeout t p) s (cnt (irq (wf d ph 0xc8 0 3 5) ph 5) ph 0x298 1)))
    ∧ (tc10Port p.val = true → linkIsUp d p.val = true → rf d ph 0xc8 0 3 = 1 →
      Lands t (.tc10PartnerSleepRequest t p) s (cnt (sleep d) ph 0x290 1))
    ∧ (tc10Port p.val = true → linkIsUp d p.val = true → rf d ph 0xc8 0 3 ≠ 1 →
      (rb d ph 0xc0 1 = true → waits = false →
        Lands t (.tc10PartnerSleepRequest t p) s (emit (sleep (wf d ph 0xc8 0 3 2)) (.tc10 p.val 2)))
      ∧ (rb d ph 0xc0 1 = false ∨ waits = true →
        Lands t (.tc10PartnerSleepRequest t p) s (emit (irq d ph 5) (.tc10 p.val 3))))

/-- Cable diagnostics and SQI (R99): a test starts only on a disabled port, and is a conflict on a port that runs and not supported on a B
port; its end stores the outcome, the distance and the loss; a measurement, once in 1 ms, stores SQI and the least SQI of an M or G link
that is up. -/
def Obligations.CableTestAndSqiAct : Prop :=
  ∀ (s : State) (t : Instant) (p : Fin 26), let d := devAt s.dev t
    let ph := phyPage p.val
    (∀ m, Accepts d m ph →
      (portType p.val = .b → Lands t (.phyDiagStart t m p) s (wr d ph 0xb8 7))
      ∧ (portType p.val ≠ .b → disabled d ph = false → Lands t (.phyDiagStart t m p) s (conflict d ph 1))
      ∧ (portType p.val ≠ .b → disabled d ph = true →
        Lands t (.phyDiagStart t m p) s (wr (if warmPort p.val then setRecord d p.val none else d) ph 0xb8 1)))
    ∧ (rf d ph 0xb8 0 3 = 1 → ∀ r distance loss, Lands t (.diagDone t p r distance loss) s
      (irq (wr d ph 0xb8 (mkWord [(0, match r with | .noFault => 2 | .openLine => 3 | .short => 4 | .mismatch => 5 | .aborted => 6),
        (8, min 4095 distance), (20, min 255 loss)])) ph 4))
    ∧ (∀ sqi, portType p.val = .m ∨ portType p.val = .g → linkIsUp d p.val = true →
      ((portSt d p.val).sqiAt + msTicks ≤ d.now → Lands t (.sqiUpdate t p sqi) s
        (wf (wf (setPort d p.val { portSt d p.val with sqiAt := d.now }) ph 0x98 0 3 (min 7 sqi)) ph 0x98 4 3
          (min (min 7 sqi) (rf d ph 0x98 4 3))))
      ∧ (d.now < (portSt d p.val).sqiAt + msTicks → Lands t (.sqiUpdate t p sqi) s d))

/-! ### Forwarding, Breakwater, egress (chapters 4 to 6) -/

/-- Reception (R74, R101, R102, R130, R131): ports 26 and 27 present and count a frame; an Ethernet port discards a frame with a bad
preamble or a runt and counts it, and a frame that no MACsec and no segment check concerns becomes a ready header; the tail of a frame
that was not decided is judged and kept, one whose FCS is bad counts RX_FCS_ERR; a quay admits its next ready header at its entry cycle e,
to be decided at e + 19, and none while it cannot. -/
def Obligations.ReceptionActs : Prop :=
  ∀ (s : State) (t : Instant), let d := devAt s.dev t
    (∀ (p : Fin 29) f, f.octets.length ≤ 16384 → rxAccepts d p.val = true →
      (p.val = 26 ∨ p.val = 27 → Lands t (.headerWindowComplete t p f) s (present d { fid := 0, port := p.val, ready := 0, frame := f }))
      ∧ (p.val < 26 → let e := mediaCount d p.val f.media
        (ab e (macPage p.val) 0x80 5 = true → f.preambleOk = false →
          Lands t (.headerWindowComplete t p f) s (cnt (rxGone e p.val 1 f) (macPage p.val) 0x128 1))
        ∧ (f.preambleOk = true → f.octets.length + 4 < 64 →
          Lands t (.headerWindowComplete t p f) s (cnt (rxGone e p.val 1 f) (macPage p.val) 0x118 1))
        ∧ (f.preambleOk = true → 60 ≤ f.octets.length → macsecHead e p.val f.octets = (some f.octets, e) → nodeClass e p.val f = 0 →
          macsecRxForce e p.val = false →
          let r : RxFrame := { fid := e.nextFid, octets := f.octets, preempt := f.preemptable && mergeActive e p.val,
                               len := f.octets.length + 4, media := f.media }
          Lands t (.headerWindowComplete t p f) s
            (pushReady (setPort { e with nextFid := e.nextFid + 1 } p.val { portSt e p.val with rx := (portSt e p.val).rx ++ [r] })
              { fid := e.nextFid, port := p.val, ready := e.now + 4, frame := f, stamp := rxStamp e p.val f }))))
    ∧ (∀ (p : Fin 26) r, inReception (portSt d p.val) = some r → r.gone = 0 → r.decided = false → r.preempt = false →
      (r.octets.length + 4 ≤ af d (macPage p.val) 0x90 0 14 →
        Lands t (.frameTail t p false) s (rxPut (cnt d (macPage p.val) 0x110 1) p.val { r with tailed := some false, tailAt := d.now }))
      ∧ (af d (macPage p.val) 0x90 0 14 < r.octets.length + 4 → ∀ ok,
        Lands t (.frameTail t p ok) s (rxPut (cnt d (macPage p.val) 0x120 1) p.val { r with tailed := some false, tailAt := d.now }))
      ∧ (r.octets.length + 4 ≤ af d (macPage p.val) 0x90 0 14 →
        let len := r.octets.length + 4
        let d1 := cnt (cnt (cnt d (macPage p.val) 0x100 len) (macPage p.val) 0x108 1) (macPage p.val) (sizeCnt len) 1
        Lands t (.frameTail t p true) s
          (rxPut (macsecTail d1 p.val r.octets).2 p.val { r with tailed := some (macsecTail d1 p.val r.octets).1, tailAt := d.now })))
    ∧ (∀ (q : Fin 4),
      (∀ h, nextReady (quay d q.val) = some h → canEnter d q.val = true →
        let e := entryCycle d q.val h
        let last := if 26 ≤ h.port then kvPut (quay d q.val).lastPres h.port h.ready else (quay d q.val).lastPres
        let d1 := setQuay d q.val { quay d q.val with ready := (quay d q.val).ready.filter (·.fid != h.fid),
                                                      pipe := (quay d q.val).pipe ++ [(e, h)], lastEnt := some e, lastPres := last }
        let d2 := if (rd d (quayPage q.val 0) 0x280).toNat < e - h.ready
          then wr d1 (quayPage q.val 0) 0x280 (BitVec.ofNat 64 (e - h.ready)) else d1
        (h.pres = none → Lands t (.pipelineEntry t q) s (decided d2 d.now))
        ∧ (h.pres.isSome = true → Lands t (.pipelineEntry t q) s (decided (entryFerry d h) d.now))
        ∧ (h.pres = none → (∀ n < 4, (quay d n).pipe = []) → d.now < e + 19 →
          LandsWith t (.pipelineEntry t q) s fun d' => (quay d' q.val).pipe = [(e, h)] ∧ ∀ x ∈ (quay d' q.val).ready, x.fid ≠ h.fid))
      ∧ (canEnter d q.val = false → Lands t (.pipelineEntry t q) s d))

/-- A frame whose classification yields no VID (R110), or that no VLAN entry or no MEMBER bit of its port admits (R144), is dropped and
counted in QUAY_VLAN_DROP; a frame from a port without a valid zone is counted in BWT_NO_ZONE (R142): none leaves a copy. The frame entered at e, d is the device at the frame's decision
point e + 19 and `vw` the configuration in force there (R57, R65); the tables are those that show at e + 9 (R116). -/
def Obligations.DecisionDropsAreCounted : Prop :=
  ∀ (d : Dev) (n : Nat) (e : Instant) (h : ReadyHdr), h.port < 29 →
    let vw := curView d
    let pg := quayPage n 0
    let cfg := portCfg d vw h.port
    let w := va d vw pg 0x80
    let pa := parse h.frame.octets (parseCfg (if fld w 0 16 = 0x8100 ∨ fld w 0 16 = 0x88A8 then setFld w 0 16 0 else w))
    let d1 := if pa.trunc then cnt d pg 0x218 1 else d
    let d2 := if pa.err then cnt d1 pg 0x220 1 else d1
    (classify cfg pa = none → decideEth d n e h = cnt d2 pg 0x210 1)
    ∧ (∀ vid pcp, classify cfg pa = some (vid, pcp) →
      let seen := tableAt d2 (e + 9)
      let ka := kaNote d2 (kaOfEth d2 h.port vid (if pa.l4 && pa.proto == 17 then some pa.dport else none))
      let d3 := (saLookup ka e seen n h.port vid pa.sa cfg.learn).1
      (vlanEntry vw.tbl vid = none → decideEth d n e h = cnt d3 pg 0x210 1)
      ∧ (∀ member u z, vlanEntry vw.tbl vid = some (member, u, z) → member / 2 ^ h.port % 2 = 0 → decideEth d n e h = cnt d3 pg 0x210 1)
      ∧ (∀ member u z, vlanEntry vw.tbl vid = some (member, u, z) → member / 2 ^ h.port % 2 = 1 → zoneOf vw.tbl h.port vid = none →
        decideEth d n e h = cnt d3 (.bwt 0) 0x128 1))

/-- Rules (R145): a rule matches when key and KEY agree on the bits of MASK; the winning rule is the valid matching rule with the lowest
index, and there is none only where no valid rule matches; its MATCH counter counts it, and no other rule's does. For an edge frame, to which
no flow entry applies, a rule that acts on a destination is the winning rule of the frame's key. -/
def Obligations.WinningRuleIsLowestMatch : Prop :=
  (∀ (t : Store) (key i : Nat), ruleMatches t key i = true ↔ ∀ k < 5,
    BitVec.ofNat 64 (key / 2 ^ (64 * k)) &&& tIn t (ruleAddr i + 40 + k * 8) = tIn t (ruleAddr i + k * 8) &&& tIn t (ruleAddr i + 40 + k * 8))
  ∧ (∀ (t : Store) (key : Nat), kvSorted t →
    (∀ i, winner t key = some i → i ∈ validRules t ∧ ruleMatches t key i = true ∧ ∀ j ∈ validRules t, ruleMatches t key j = true → i ≤ j)
    ∧ (winner t key = none → ∀ i ∈ validRules t, ruleMatches t key i = false))
  ∧ (∀ (d : Dev) (vw : View) (i : Nat), i < 2048 → let d' := (ruleGate d vw i).1
    trd d' (0x03810000 + i * 32) = BitVec.ofNat 64 (min ctrMax ((trd d (0x03810000 + i * 32)).toNat + 1))
    ∧ ∀ j < 2048, j ≠ i → trd d' (0x03810000 + j * 32) = trd d (0x03810000 + j * 32))
  ∧ ∀ (d : Dev) (i : BwIn) x a k, i.parsed = none → (x, a) ∈ (breakwater d i).2.acts → a.fromRule = some k →
    ∃ key, winner i.vw.tbl key = some k

/-- What a destination's verdict counts (R151), and where the rate gate of a rule has less than a token left: the over-rate verdict,
counted, the tokens kept (R148). -/
def Obligations.VerdictsAndRateGatesCount : Prop :=
  (∀ d sz dz, countVerdict d sz dz 0 = cnt d (.bwt 0) 0x100 1
    ∧ countVerdict d sz dz 1 = tcnt (cnt d (.bwt 0) 0x108 1) (0x03820000 + (sz * 64 + dz) * 8)
    ∧ countVerdict d sz dz 2 = tcnt (cnt d (.bwt 0) 0x110 1) (0x03820000 + (sz * 64 + dz) * 8))
  ∧ (∀ d vw i, bit (tIn vw.tbl (ruleAddr i + 88)) 0 = false →
    ruleGate d vw i = (tcnt d (0x03810000 + i * 32), ruleAction vw.tbl i))
  ∧ (∀ d vw i, bit (tIn vw.tbl (ruleAddr i + 88)) 0 = true →
    (ruleGate d vw i).2 = ruleAction vw.tbl i
    ∨ ((ruleGate d vw i).2.verdict = verdictOf (fld (tIn vw.tbl (ruleAddr i + 88)) 32 2) ∧ (ruleGate d vw i).2.overRate = true))

/-- Sweeps and filters (R115, R120, R125, R156): the aging sweep, which is due AGE_S / 2 (at least 5 s) after the last one, removes a valid
dynamic entry that was not hit since and forgets the hits of the others, and does nothing before or where AGE_S is 0; a blocked filter is freed by a write of its bit; a recovery function whose time
has passed is reset and counted; the flow sweep removes an idle flow and counts it. -/
def Obligations.SweepsAct : Prop :=
  ∀ (s : State) (t : Instant), let d := devAt s.dev t
    (rf d (.quay 0 0) 0xb0 0 16 = 0 → Lands t (.agingSweep t) s d)
    ∧ (rf d (.quay 0 0) 0xb0 0 16 ≠ 0 →
      let per := max (rf d (.quay 0 0) 0xb0 0 16) 10 * secUnits / 2
      (locNow d < d.agedAt + per → Lands t (.agingSweep t) s d)
      ∧ (d.agedAt + per ≤ locNow d → Lands t (.agingSweep t) s
        (((d.tbl.filter fun e => 0x01400000 ≤ e.1 && e.1 < 0x01500000).map fun e => e.1 - e.1 % 16).eraseDups.foldl (fun d a =>
          if bit (trd d a) 63 && !bit (trd d a) 60 && !bit (trd d (a + 8)) 20 then twr d a 0
          else twr d (a + 8) (setBit (trd d (a + 8)) 20 false)) { d with agedAt := locNow d })))
    ∧ (∀ m (q : Fin 4) v, Accepts d m (.quay q 0) → bit v 0 = true →
      let i := 1024 * q.val + rf d (.quay q 0) 0xb8 0 10
      Lands t (.sfBlockedClear t m q v) s (setFilter d i { filter d i with blocked := false }))
    ∧ (∀ (fn : Fin 1024), let a := frerAddr fn.val
      let ms := fld (trd d (a + 16)) 0 16
      let gone := (locMs d % 2 ^ 32 + 2 ^ 32 - fld (trd d (a + 16)) 32 32) % 2 ^ 32
      (bit (trd d a) 63 = true → bit (trd d a) 26 = false → ms ≠ 0 → ms ≤ gone →
        Lands t (.frerReset t fn) s
          (cnt (twr (twr d a (setBit (trd d a) 26 true)) (a + 8) 0) (quayPage (kvD d.frerQ fn.val 0) 0) 0x278 1))
      ∧ (ms = 0 ∨ gone < ms → Lands t (.frerReset t fn) s d))
    ∧ (flowEntries d.tbl = [] → Lands t (.flowSweep t) s d)
    ∧ (∀ a, flowEntries d.tbl = [a] → bit (tIn (fullTbl d) a) 24 = false →
      flowTimeout d (tIn (fullTbl d) a) * 1000 < (locMs d % 2 ^ 32 + 2 ^ 32 - fld (tIn (fullTbl d) (a + 48)) 0 32) % 2 ^ 32 →
      Lands t (.flowSweep t) s (cnt (flowClear d a) (.bwt 0) 0x148 1))

/-- BWT_FLOW_CMD (R158): refused while BUSY; OP 1 removes the entry of its index at once, whose eight words are then 0 and which alone
changes; OP 2 to 4 make the unit BUSY and change no entry yet; the end of a flush removes from the buckets it has not passed the entries
that the command names, clears BUSY, and does nothing where no flush runs. -/
def Obligations.FlowCommandsAct : Prop :=
  (∀ (e : Dev) (a c : Nat), (flowClear e a).regs = e.regs
    ∧ ((∃ k < 8, c = a + 8 * k) → trd (flowClear e a) c = 0) ∧ ((∀ k < 8, c ≠ a + 8 * k) → trd (flowClear e a) c = trd e c))
  ∧ ∀ (s : State) (t : Instant) (m : Master) (v : W64), let d := devAt s.dev t
    (Accepts d m (.bwt 0) →
      let go := fun x => wr d (.bwt 0) 0xb8 (setFld v 0 3 x &&& maskOf 0 36)
      let flush := fun x => { (wb (go x) (.bwt 0) 0xb8 63 true) with flush := some (setFld v 0 3 x, d.now, 0) }
      let busy := fun op (d' : Dev) => rb d' (.bwt 0) 0xb8 63 = true ∧ rf d' (.bwt 0) 0xb8 0 3 = op ∧ d'.tbl = d.tbl
      (rb d (.bwt 0) 0xb8 63 = false →
        (Lands t (.flowDelete t m v) s (flowClear (go 1) (0x01000000 + fld v 4 15 * 64))
          ∧ LandsWith t (.flowDelete t m v) s fun d' => let a := 0x01000000 + fld v 4 15 * 64
            (∀ k < 8, trd d' (a + 8 * k) = 0) ∧ (∀ c, c < a ∨ a + 64 ≤ c → trd d' c = trd d c)
            ∧ rb d' (.bwt 0) 0xb8 63 = false ∧ rf d' (.bwt 0) 0xb8 0 3 = 1)
        ∧ (Lands t (.flowFlushAll t m v) s (flush 2) ∧ LandsWith t (.flowFlushAll t m v) s (busy 2))
        ∧ (Lands t (.flowFlushZone t m v) s (flush 3) ∧ LandsWith t (.flowFlushZone t m v) s (busy 3))
        ∧ Lands t (.flowFlushRule t m v) s (flush 4) ∧ LandsWith t (.flowFlushRule t m v) s (busy 4))
      ∧ (rb d (.bwt 0) 0xb8 63 = true →
        Lands t (.flowDelete t m v) s (conflict d (.bwt 0) 4) ∧ Lands t (.flowFlushAll t m v) s (conflict d (.bwt 0) 4)
        ∧ Lands t (.flowFlushZone t m v) s (conflict d (.bwt 0) 4) ∧ Lands t (.flowFlushRule t m v) s (conflict d (.bwt 0) 4)))
    ∧ (d.flush = none → Lands t (.flowFlushEnd t) s d)
    ∧ (∀ w x pos, d.flush = some (w, x, pos) →
      let left := fun a : Nat => decide (pos ≤ (a - 0x01000000) / 256 ∧ (a - 0x01000000) / 256 < 8192)
      let d1 := (flowEntries d.tbl).foldl (fun d a => if left a && flushHits d.tbl w a then flowClear d a else d) d
      Lands t (.flowFlushEnd t) s (wb { d1 with flush := none } (.bwt 0) 0xb8 63 false)
      ∧ LandsWith t (.flowFlushEnd t) s fun d' => d'.flush = none ∧ rb d' (.bwt 0) 0xb8 63 = false)

/-- Workshop sessions (R164, R165): a token that passes its checks opens a session, another's result is answered and recorded; a session
closes by message, by its register bit, and at the tick at which local time reaches its end: OPEN clears, with a DIAG record and the
interrupt. -/
def Obligations.DiagSessionsAct : Prop :=
  ∀ (s : State) (t : Instant), let d := devAt s.dev t
    (∀ (ch : Fin 4) p, privileged d ch.val 5 = true →
      (Served d ch.val 0x40 p → p.length = 256 →
        let r := diagTokenResult p (opened d ch.val)
        (r.1 = 0 → Lands t (.diagToken t ch) s (mboxReply (diagAccept p r.2) ch.val 0 []))
        ∧ (r.1 ≠ 0 → Lands t (.diagToken t ch) s
          (mboxReply (irq (diagRecord r.2 3 r.1 0 (leNat (slice p 4 4)) (bytesWord (slice p 24 8)) 0) (.bwt 0) 3) ch.val (0x100 + r.1) [])))
      ∧ (Served d ch.val 0x41 p → p.length = 1 → octetAt p 0 < 4 →
        Lands t (.diagClose t ch) s (mboxReply (diagCloseOp (opened d ch.val) (octetAt p 0)) ch.val 0 [])))
    ∧ (∀ i : Fin 4, let o := 0x110 + i.val * 0x18
      rb d (.bwt 1) o 0 = true →
      (∀ m, Accepts d m (.bwt 1) → LandsWith t (.bwtDiagClose t m i) s fun d' => rb d' (.bwt 1) o 0 = false ∧ rb d' (.bwt 0) 0x20 3 = true)
      ∧ ((rd d (.bwt 1) (0x108 + i.val * 0x18)).toNat ≤ locSec d →
        Lands t (.diagSessionExpiry t i) s
          (irq (diagRecord (wb (diagKeep d i.val) (.bwt 1) o 0 false) 2 0 i.val (rf d (.bwt 1) o 32 32) (rd d (.bwt 1) (0x100 + i.val * 0x18))
            (rd d (.bwt 1) (0x108 + i.val * 0x18))) (.bwt 0) 3))
      ∧ (locSec d < (rd d (.bwt 1) (0x108 + i.val * 0x18)).toNat → Lands t (.diagSessionExpiry t i) s d))

/-- Transmission (R176, R177, R215, R219): a port that makes no selections changes nothing; an idle B, M or G port whose best class has an
eligible cell takes its head and begins to send it, a buffer cell that reads with an error being reported and, read twice or not
correctable, retired; a frame that has left counts its octets, enters its timestamp where it asked for one, and leaves the device; a
credit that recovers is brought up to the instant. -/
def Obligations.TransmissionActs : Prop :=
  ∀ (s : State) (t : Instant), let d := devAt s.dev t
    (∀ (p : Fin 29) e op, txReady d p.val = false → portType p.val ≠ .s ∨ op ≠ some 0 → Lands t (.portSelection t p ⟨e, op⟩) s d)
    ∧ (∀ (p : Fin 29), p.val < 20 → txReady d p.val = true → kvGet d.tx p.val = none →
      let d1 := lookPort (cbsSync d p.val) p.val
      let hold := mergeActive d1 p.val && (gatesOf d1 p.val).hold
      kvGet d1.tx p.val = none → kvGet d1.susp p.val = none → ∀ op,
      (pick d1 p.val (fun t => !preemptable d1 p.val t || !hold) = none → ∀ e, Lands t (.portSelection t p ⟨e, op⟩) s d1)
      ∧ (∀ x i d2 c, pick d1 p.val (fun t => !preemptable d1 p.val t || !hold) = some (x, i) → takeHead d1 p.val x i = (d2, some c) →
        Lands t (.portSelection t p ⟨.clean, op⟩) s (startTx d2 p.val x c 0)
        ∧ ∀ w, (∀ again e, seenTwice (raise d2 .chip 0) 0 w = (again, e) → Lands t (.portSelection t p ⟨.corrected w, op⟩) s
            (startTx (if again then retireCell e (w / 8) else e) p.val x c 0))
          ∧ Lands t (.portSelection t p ⟨.uncorrectable w, op⟩) s
            (freeCopy (cnt (retireCell (raise d2 .chip 16) (w / 8)) (macPage p.val) 0x190 1) c)))
    ∧ (∀ (p : Fin 29) f, let d0 := cbsSync d p.val
      kvGet d0.tx p.val = some f → f.copy.bad = false →
      let sent := fun e : Dev => setPort e p.val { portSt e p.val with emptyFrom := d0.now, lastTx := f.ends }
      let left := fun e : Dev => emit (sent e) (.ethFrame p.val f.octets false)
      let loops := fun e : Dev => rb (sent e) (macPage p.val) 0x80 12 || rb (sent e) (macPage p.val) 0x80 13
      let d1 := { d0 with tx := kvDel d0.tx p.val }
      let d2 := cnt (cnt d1 (macPage p.val) 0x180 (f.octets.length + 4)) (macPage p.val) 0x188 1
      (f.copy.tsId = none ∨ 26 ≤ p.val → loops (tsqEntry d2 f.copy (f.stamp.getD 0) false false (decide (1 < f.frags))) = false →
        Lands t (.transmitEnd t p .clean) s (left (tsqEntry d2 f.copy (f.stamp.getD 0) false false (decide (1 < f.frags)))))
      ∧ (f.copy.tsId.isSome = true → p.val < 26 → f.stamp = none →
        let e := tsqEntry (txStamp d2 p.val f.begun).2 f.copy (txStamp d2 p.val f.begun).1 false false (decide (1 < f.frags))
        loops e = false → Lands t (.transmitEnd t p .clean) s (left e)))
    ∧ (∀ (p : Fin 26) (x : Fin 8), (cbsCfg d p.val x.val).1 = false →
      Lands t (.cbsCreditRecovered t p x) s { d with credits := kvDel d.credits (crKey p.val x.val) })
    ∧ (∀ (p : Fin 26) (x : Fin 8), (cbsCfg d p.val x.val).1 = true →
      LandsWith t (.cbsCreditRecovered t p x) s fun d' => ∃ c, kvGet d'.credits (crKey p.val x.val) = some c ∧ d.now ≤ c.last)

/-- Gates, shapers and samples (R182, R186, R192, R193, R196): an entry of the operational list takes effect, its gate states and
its index shown; a pending list becomes the operational one when its time is reached, not before; a reached slot releases its shapers;
a coarse slot's shapers move into fine slots; bucket-mode shapers are re-evaluated; a sampling pass, once in each period of local time,
counts. -/
def Obligations.GateAndShaperEventsAct : Prop :=
  ∀ (s : State) (t : Instant), let d := devAt s.dev t
    (∀ (p : Fin 27), operList (cbsSync d p.val) p.val = none → Lands t (.gateEvent t p) s (cbsSync d p.val))
    ∧ (∀ (p : Fin 27) g, let d0 := cbsSync d p.val
      operList d0 p.val = some g →
      let now := gatesNow d0 p.val (selLead d0 p.val)
      let pg := (gatePg p.val).1
      let o := (gatePg p.val).2
      let d1 := lookPort (setPort d0 p.val { portSt d0 p.val with gateClass := now.1 }) p.val
      let d2 := wf (wf d1 pg (o + 0x20) 8 8 now.1) pg (o + 0x20) 16 11 now.2.2
      let h := if mergeActive d2 p.val then (if now.2.1 = 1 then true else if now.2.1 = 2 then false else (gatesOf d2 p.val).hold) else false
      let d3 := setGates d2 p.val { gatesOf d2 p.val with hold := h }
      (kvGet d3.tx p.val = none → Lands t (.gateEvent t p) s d3)
      ∧ (∀ f, kvGet d3.tx p.val = some f → f.preempt = true → (kvGet d3.susp p.val).isNone = true → h = true ∨ now.1 / 2 ^ f.tc % 2 = 0 →
        ∀ x, cutPoint d3 p.val f d3.now = some x → Lands t (.gateEvent t p) s (suspend d3 p.val f x)))
    ∧ (∀ (p : Fin 27) h, (gatesOf d p.val).pend = some h →
      (timeOf d h.dom < h.ct → Lands t (.gclConfigChange t p) s d)
      ∧ (h.ct ≤ timeOf d h.dom →
        let d0 := cbsSync d p.val
        let d1 := wf (setGates d0 p.val { gatesOf d0 p.val with oper := some h, pend := none, hold := false }) (gatePg p.val).1
          ((gatePg p.val).2 + 0x20) 0 2 1
        Lands t (.gclConfigChange t p) s
          (gateIrq (setPort d1 p.val { portSt d1 p.val with gateClass := (gatesNow d1 p.val (selLead d1 p.val)).1 }) p.val 0)))
    ∧ (∀ (p : Fin 27), (gatesOf d p.val).pend = none → Lands t (.gclConfigChange t p) s d)
    ∧ (∀ (q : Fin 4),
      Lands t (.shaperSlotRelease t q) s ((quay d q.val).shapers.foldl (fun d e => match e.2.slot with
        | some (false, f) => if f ≤ locNow (devAt s.dev t) / slotUnits
                             then setShaper d q.val e.1 { e.2 with slot := none, elig := true } else d
        | _ => d) d)
      ∧ Lands t (.shaperBucketEval t q) s ((quay d q.val).shapers.foldl (fun d e =>
        if e.2.bucket then
          let s := refillWith (shCfg d q.val e.1) e.2 (locNow d)
          setShaper d q.val e.1 { s with elig := decide (0 ≤ s.ct ∧ 0 ≤ s.pt) }
        else d) d)
      ∧ (∀ k x, (quay d q.val).shapers = [(k, x)] →
        (∀ c, x.slot = some (true, c) → c ≤ (locNow d / slotUnits + 1) / 1024 → slotLoad d q.val (false, (x.net + slotUnits - 1) / slotUnits) < 16 →
          Lands t (.coarseSlotMove t q) s (setShaper d q.val k { x with slot := some (false, (x.net + slotUnits - 1) / slotUnits) }))
        ∧ (∀ c, x.slot = some (true, c) → (locNow d / slotUnits + 1) / 1024 < c → Lands t (.coarseSlotMove t q) s d))
      ∧ (running d (quayPage q.val 2) = true → rb d (quayPage q.val 2) 0x80 0 = true →
        let us := rf d (quayPage q.val 2) 0x80 8 10
        let per := (if us = 0 ∨ 1000 < us then 1000 else us) * 65536000
        ((quay d q.val).sampAt / per < locNow d / per → LandsWith t (.samplingPass t q) s fun d' =>
          (quay d' q.val).pass = (quay d q.val).pass + 1 ∧ (quay d' q.val).sampAt = locNow d)
        ∧ (locNow d / per ≤ (quay d q.val).sampAt / per → Lands t (.samplingPass t q) s d))
      ∧ (rb d (quayPage q.val 2) 0x80 0 = false → Lands t (.samplingPass t q) s d))

/-! ### Time (chapter 7) -/

/-- Domain commands (R201 to R208): an accepted rate, enable, SYNC or step acts at the first CLK_TS edge at least 8 cycles of CLK_SYS on and
restarts the watchdog; a rate beyond its limits, a step on a domain that is off, and the disabling of a domain in use are invalid; the step
due is applied at its edge, a relative one below 0 refused with its bit, and not before; a watchdog that ran out clears SYNC; a snapshot
becomes due; a counter mismatch is an error. -/
def Obligations.TimeDomainCommandsAct : Prop :=
  ∀ (s : State) (t : Instant) (n : Fin 4), let d := devAt s.dev t
    let pg : Page := .time 0
    let i := n.val
    (∀ m v, Accepts d m pg →
      let r := toSigned 40 (fld v 0 40)
      (-549755813 ≤ r → r ≤ 549755813 → Lands t (.rateWrite t m n v) s
        (syncRestart (domEv (wr d pg (tReg i 8) (v &&& maskOf 0 40)) i (leadEdge d) (.rate r)) i))
      ∧ (r < -549755813 ∨ 549755813 < r → Lands t (.rateWrite t m n v) s (invalidValue d pg))
      ∧ (rb d pg (tReg i 0) 0 = false → Lands t (.domainEnable t m n v) s
        (syncRestart (xweTickFrom (domEv (wr d pg (tReg i 0) (setBit (setBit v 0 true &&& (maskOf 0 2 ||| maskOf 16 16)) 1 false)) i
          (leadEdge d) .load) [i] fun _ => locNow d) i))
      ∧ (rb d pg (tReg i 0) 0 = true → (domUses d i).any id = true → Lands t (.domainDisable t m n v) s (invalidValue d pg))
      ∧ (rb d pg (tReg i 0) 0 = true → (domUses d i).any id = false → bit v 1 = false →
        Lands t (.domainDisable t m n v) s
          (snapClear (wb (setDom (wr d pg (tReg i 0) (setBit v 0 false &&& (maskOf 0 2 ||| maskOf 16 16))) i
            { dom d i with on := false, ctr := 0, evs := (dom d i).evs.filter (fun e => e.2 != .load), steps := [] }) pg (tReg i 0x30) 2 false)
            i))
      ∧ (rb d pg (tReg i 0) 0 = true → bit v 0 = true → Lands t (.syncSet t m n v) s
        (syncRestart (wr d pg (tReg i 0) (setBit v 1 true &&& (maskOf 0 2 ||| maskOf 16 16))) i))
      ∧ (rb d pg (tReg i 0) 0 = false →
        (bit v 1 = false → Lands t (.stepAbs t m n v) s (invalidValue d pg))
        ∧ (bit v 0 = false → Lands t (.stepRel t m n v) s (invalidValue d pg)))
      ∧ (rb d pg (tReg i 0) 0 = true → (dom d i).steps = [] →
        let step := fun a val => wb (setDom (syncRestart d i) i
          { dom (syncRestart d i) i with steps := [{ edge := leadEdge d, abs := a, val := val }] }) pg (tReg i 0x30) 2 true
        let ns := rd d pg (tReg i 0x18)
        (bit v 1 = false → fld ns 0 32 < 1000000000 →
          Lands t (.stepAbs t m n v) s (step true (tMake (rd d pg (tReg i 0x10)).toNat (fld ns 0 32) (fld ns 32 16) : Nat)))
        ∧ (bit v 0 = false →
          Lands t (.stepRel t m n v) s (step false (toSigned 64 (rd d pg (tReg i 0x20)).toNat))))
      ∧ (∀ v, bit v 0 = true → d.time.snapDue = none →
        Lands t (.timeSnap t m v) s
          (let d1 := wb d pg 0x90 1 false
           { d1 with time := { d1.time with snapDue := some (leadEdge d) } })))
    ∧ (∀ x rest, (dom d i).steps = x :: rest →
      let x1 := { dom d i with steps := rest }
      let d1 := wb (setDom d i x1) pg (tReg i 0x30) 2 (decide (rest ≠ []))
      (d.now / 4 < x.edge → Lands t (.timeStepApply t n) s d)
      ∧ (x.edge ≤ d.now / 4 → stepCtr d x1 x = none → Lands t (.timeStepApply t n) s (wb d1 pg (tReg i 0x30) 1 true))
      ∧ (∀ c, x.edge ≤ d.now / 4 → stepCtr d x1 x = some c →
        let d2 := (List.range 26).foldl (fun d p => cbsSync d p) d1
        Lands t (.timeStepApply t n) s (afterStep (irq (cnt (setDom d2 i { x1 with ctr := c }) pg (tReg i 0x38) 1) pg (4 + i)) i (timeOf d i))))
    ∧ (let wd := rf d pg (tReg i 0) 16 16
      (wd ≠ 0 → rb d pg (tReg i 0) 1 = true → (dom d i).wdFrom + wd * msTicks ≤ d.now →
        Lands t (.syncWatchdog t n) s (irq (wb (wb d pg (tReg i 0) 1 false) pg (tReg i 0x30) 0 true) pg i))
      ∧ (wd = 0 → Lands t (.syncWatchdog t n) s d))
    ∧ Lands t (.ctrMismatch t) s (raise d pg 0)

/-- Timed outputs and captures (R210 to R214): ARM is judged in the order of R210 and its rejection shown, an accepted one loads the
output; STOP idles it at once; a reached edge starts or ends the pulse; an input edge of a selected sort is captured, and lost, counted,
where the FIFO is full or the last one is less than 10 ns back. -/
def Obligations.TimedInputsAndOutputsAct : Prop :=
  ∀ (s : State) (t : Instant) (n : Fin 8), let d := devAt s.dev t
    let pg : Page := .time 1
    let o := 0x80 + n.val * 0x30
    (∀ m v, Accepts d m pg →
      (bit v 1 = false →
        let d1 := writeFields d pg o (setBit v 0 true)
        let d2 := wf d1 pg (o + 0x28) 4 3 (toutReject d1 n.val)
        (toutReject d1 n.val ≠ 0 → Lands t (.toutArm t m n v) s d2)
        ∧ (toutReject d1 n.val = 0 →
          let c := rd d1 pg o
          let st := tMake (rd d1 pg (o + 8)).toNat (rf d1 pg (o + 0x10) 0 32) (rf d1 pg (o + 0x10) 32 16)
          Lands t (.toutArm t m n v) s (setTout d2 n.val
            { state := 1, dom := fld c 2 3, periodic := bit c 5, lowIdle := !bit c 6, start := st, next := st,
              period := rf d1 pg (o + 0x18) 0 40 * 65536, width := rf d1 pg (o + 0x20) 0 32 * 65536, pulses := (tout d1 n.val).pulses })))
      ∧ (bit v 0 = false →
        let d1 := writeFields d pg o (setBit v 1 true)
        let d2 := setTout d1 n.val { tout d1 n.val with state := 0, active := false }
        Lands t (.toutStop t m n v) s (if (tout d1 n.val).active then emit d2 (.tout n.val false) else d2)))
    ∧ (let x := tout d n.val
      (x.state = 1 ∨ x.state = 2 → x.next ≤ timeOf d x.dom + 65536 →
        (x.active = false → Lands t (.toutEdge t n) s
          (emit (setTout d n.val { x with state := 2, active := true, next := x.next + x.width, pulses := (x.pulses + 1) % 2 ^ 32 })
            (.tout n.val true)))
        ∧ (x.active = true → x.periodic = true → Lands t (.toutEdge t n) s
          (emit (setTout d n.val { x with state := 2, active := false, next := x.next - x.width + x.period }) (.tout n.val false)))
        ∧ (x.active = true → x.periodic = false → Lands t (.toutEdge t n) s
          (irq (emit (setTout d n.val { x with state := 3, active := false, next := x.next - x.width + x.period }) (.tout n.val false)) pg n.val)))
      ∧ (x.state = 0 ∨ timeOf d x.dom + 65536 < x.next → Lands t (.toutEdge t n) s d))
    ∧ (∀ rising, let o := 0x200 + n.val * 0x18
      let q := kvD d.time.tcaps n.val []
      rb d pg o 0 = true → rf d pg o 1 2 = 3 ∨ (rf d pg o 1 2 = 1 ∧ rising = true) ∨ (rf d pg o 1 2 = 2 ∧ rising = false) →
      (∀ x, kvGet d.time.tcapAt n.val = some x → locNow d < x + 655360 → Lands t (.tcapEdge t n rising) s (cnt d pg (o + 0x10) 1))
      ∧ ((∀ x, kvGet d.time.tcapAt n.val = some x → x + 655360 ≤ locNow d) →
        (8 ≤ q.length → Lands t (.tcapEdge t n rising) s (irq (wb (cnt d pg (o + 0x10) 1) pg (o + 8) 4 true) pg (16 + n.val)))
        ∧ (q.length < 8 →
          let x := { d.time with tcaps := kvPut d.time.tcaps n.val (q ++ [tcapEntry d (rf d pg o 3 3) rising]),
                                 tcapAt := kvPut d.time.tcapAt n.val (locNow d) }
          Lands t (.tcapEdge t n rising) s (irq (wf { d with time := x } pg (o + 8) 0 4 (q.length + 1)) pg (8 + n.val)))))

/-! ### The vehicle edge (chapters 8 and 9) -/

/-- CAN frames (R226 to R229, R231, R234): a frame of a format that the controller takes is counted, lowers REC, passes CANsec where it is
an XL frame, and becomes work of the Ferry unless the FIFO has no room for it, which is counted and raised; one of another format, or in
bus-off, leaves everything as it is; a complete transmission is counted, lowers TEC, leaves the transmit area and is on the bus unless the
controller loops back, with its transmitter delay measured (a free value, log 22); a frame of the message RAM that cannot be corrected is
discarded and reported; where the controller may not transmit or has no frame nothing happens; frames that have waited TX_MAX_AGE_MS
leave, counted; a lost arbitration leaves the frame pending. -/
def Obligations.CanFramesAct : Prop :=
  ∀ (s : State) (t : Instant) (k : Fin 24), let d := devAt s.dev t
    let pg := canPg k.val
    (∀ f sof, f.ok = true → running d pg = true → canState d k.val < 2 → canHasFormat d k.val f = true →
      let e := kaNote d (kaOfCan d k.val f)
      let d1 := canErrCounts (cnt e pg 0x200 1) k.val (canTec e k.val) (if 127 < canRec e k.val then 127 else canRec e k.val - 1)
      let r := if f.xlf then canSecRx d1 k.val f else (some f, d1)
      (r.1 = none → Lands t (.canFrameReceived t k f sof) s r.2)
      ∧ ∀ g, r.1 = some g →
        (512 < rxBlocks r.2 k.val + canBlocks g → Lands t (.canFrameReceived t k f sof) s (irq (cnt r.2 pg 0x210 1) pg 2))
        ∧ (rxBlocks r.2 k.val + canBlocks g ≤ 512 →
          let at0 := sof / edgeTicks * edgeTicks
          let w : EdgeWork := { src := 32 + k.val, can := some g, loc := locBack r.2 at0, dom := domBack r.2 (tsDomAt r.2 at0) at0,
                                ready := 0, sec := g.sec }
          let d2 := ferryReady r.2 w
          Lands t (.canFrameReceived t k f sof) s (setCan d2 k.val { can d2 k.val with lastRx := some { w with id := r.2.ferry.nextId } })))
    ∧ (∀ f sof, f.ok = true → running d pg = false ∨ 2 ≤ canState d k.val ∨ canHasFormat d k.val f = false →
      Lands t (.canFrameReceived t k f sof) s d)
    ∧ (∀ sof e, canCut d k.val sof = true ∨ canOnBus d k.val sof = none → Lands t (.canTxComplete t k ⟨sof, e⟩) s d)
    ∧ (∀ sof x, canCut d k.val sof = false → canOnBus d k.val sof = some x →
      let f := { x.f with esi := x.f.fdf && canState d k.val == 1 }
      let sent := fun e : Dev =>
        let e1 := canErrCounts (canTxDrop (cnt e pg 0x208 1) k.val (· == x)) k.val (canTec d k.val - 1) (canRec d k.val)
        if rb d pg 0x80 4 then e1 else kaNote (emit e1 (.canFrame k.val f)) (kaOfCan d k.val f)
      (tdcFrame d k.val f = false →
        Lands t (.canTxComplete t k ⟨sof, .clean⟩) s (sent d)
        ∧ ∀ w, Lands t (.canTxComplete t k ⟨sof, .corrected w⟩) s (sent (seenTwice (raise d .chip 4) 4 w).2))
      ∧ (tdcFrame d k.val f = true → let e := sent d
        Lands t (.canTxComplete t k ⟨sof, .clean⟩) s (wf { e with frees := e.frees + 1 } pg 0xc0 24 8 (Config.freeValue e.frees % 128)))
      ∧ ∀ w, Lands t (.canTxComplete t k ⟨sof, .uncorrectable w⟩) s
        (raise (raise (cnt (canTxDrop d k.val (· == x)) pg 0x218 1) pg 1) .chip 20))
    ∧ (let ms := rf d pg 0xa8 0 16
      let old := fun x : CanTx => decide (x.reqAt + ms * msTicks ≤ d.now) && some x != (none : Option CanTx)
      (ms ≠ 0 → Lands t (.canTxAgeExpiry t k none) s (cnt (canTxDrop d k.val old) pg 0x228 ((can d k.val).tx.filter old).length))
      ∧ (ms = 0 → ∀ sof, Lands t (.canTxAgeExpiry t k sof) s d))
    ∧ Lands t (.canArbitrationLost t k) s d

/-- CAN errors (R226, R230 to R232): a bus error sends an error frame unless the controller may not transmit, counts by its kind and raises
TEC by 8 or REC by 1, but for a missing acknowledge of an error-passive transmitter; above 255 the controller is bus-off, with its
interrupts, its count and its error; RECOVER lets a bus-off controller count its recovery, whose end makes it error-active with both
counts 0; a protocol exception makes it integrate, whose end rejoins the bus; a transceiver fault is an error. -/
def Obligations.CanErrorsAct : Prop :=
  ∀ (s : State) (t : Instant) (k : Fin 24), let d := devAt s.dev t
    let pg := canPg k.val
    (running d pg = true → canState d k.val < 2 → ∀ tx : Bool,
      let e := if tx then tdcAttempt d k.val else d
      let d0 := if canRestricted e k.val then e else emit e (.canError k.val (canState e k.val == 1))
      let up := fun x : Dev => if tx then canErrCounts x k.val (canTec d k.val + 8) (canRec d k.val)
        else canErrCounts x k.val (canTec d k.val) (canRec d k.val + 1)
      Lands t (.canBusError t k .bit tx) s (up (cnt d0 pg 0x238 1))
      ∧ Lands t (.canBusError t k .stuff tx) s (up (wf d0 pg 0x240 0 32 (min (2 ^ 32 - 1) (rf d0 pg 0x240 0 32 + 1))))
      ∧ Lands t (.canBusError t k .form tx) s (up (wf d0 pg 0x240 32 32 (min (2 ^ 32 - 1) (rf d0 pg 0x240 32 32 + 1))))
      ∧ Lands t (.canBusError t k .crc tx) s (up (cnt d0 pg 0x290 1))
      ∧ Lands t (.canBusError t k .ack tx) s (if tx = true ∧ canState d k.val = 1 then cnt d0 pg 0x250 1 else up (cnt d0 pg 0x250 1)))
    ∧ (∀ e : Dev, ∀ tec rec, 255 < tec →
      let d1 := wf (wf e pg 0xc0 0 8 255) pg 0xc0 8 8 (min 255 rec)
      let d2 := raise (irq (cnt (wf (if canState e k.val = 1 then irq d1 pg 1 else d1) pg 0xc0 16 2 2) pg 0x258 1) pg 0) pg 0
      canErrCounts e k.val tec rec = setCan d2 k.val { can d2 k.val with recover := rb e pg 0x80 5 })
    ∧ (canState d k.val = 2 →
      (∀ m, Accepts d m (.can k) → Lands t (.canRecover t m k) s (setCan d k.val { can d k.val with recover := true }))
      ∧ ((can d k.val).recover = true ∨ rb d pg 0x80 5 = true →
        Lands t (.busOffRecovery t k) s (wf (setCan d k.val { can d k.val with recover := false }) pg 0xc0 0 18 0))
      ∧ ((can d k.val).recover = false → rb d pg 0x80 5 = false → Lands t (.busOffRecovery t k) s d))
    ∧ (running d pg = true → canState d k.val < 2 → rb d pg 0x80 2 = true →
      Lands t (.canProtocolException t k) s (wf (cnt d pg 0x260 1) pg 0xc0 16 2 3))
    ∧ (canState d k.val = 3 →
      Lands t (.busIntegrationEnd t k) s (wf d pg 0xc0 16 2 (if 127 < canTec d k.val ∨ 127 < canRec d k.val then 1 else 0)))
    ∧ (canState d k.val ≠ 3 → Lands t (.busIntegrationEnd t k) s d)
    ∧ (running d pg = true → Lands t (.canXcvrFault t k) s (raise d pg 2))

/-- LIN (R235 to R239, R461): a master's slot shows its entry and sends the header of a subscribed frame, with the break and the rate that
LIN_CTRL gives, or the valid published response; a slave, and a standby master whose gate is closed, notes the header of a subscribed
frame and until when it waits for the response; a complete response whose checksum is of the entry's kind becomes work of the Ferry, one
of the other kind and an error count by their kind; a missing response is counted when its time has passed; GOTO_SLEEP acts at the next slot boundary, where the bus sleeps; WAKE and a received wake pulse restart the schedule
RESUME_MS later, which begins at entry 0; a stuck bus is an error. -/
def Obligations.LinActs : Prop :=
  ∀ (s : State) (t : Instant) (l : Fin 8), let d := devAt s.dev t
    let pg := linPg l.val
    let x := lin d l.val
    (linMaster d l.val = true → (∀ y, x.slotEnd = some y → y ≤ d.now) → x.gosleep = false → d.pair.yield = none →
      rb d pg 0x88 0 = true → rb d pg 0xa8 0 = false → x.resume = none →
      ∀ e, linNext d.tbl l.val (if x.sched = 1 then 0 else x.entry) = some e →
      let w := linEntry d.tbl l.val e
      let x1 := { x with sched := 0, hdrFid := none, entry := if bit w 62 then 0 else (e + 1) % 64,
                         slotEnd := some (d.now + fld w 16 16 * 100 * usTicks) }
      let d1 := wf (setLin d l.val x1) pg 0xa8 2 6 e
      (bit w 6 = true → let d2 := linAwait d1 l.val (fld w 0 6) (fld w 8 4) (rf d pg 0x80 24 5 + 21)
        (claimGated d = true → Lands t (.linSlotStart t l) s d2)
        ∧ (claimGated d = false → linSilent d l.val = true → Lands t (.linSlotStart t l) s d1)
        ∧ (claimGated d = false → linSilent d l.val = false →
          Lands t (.linSlotStart t l) s (emit d2 (.linHeader l.val (fld w 0 6) (rf d pg 0x80 24 5) (rf d pg 0x80 8 16)))))
      ∧ (bit w 6 = false → pubValid d l.val (fld w 0 6) = false → Lands t (.linSlotStart t l) s (cnt d1 pg 0x238 1))
      ∧ (bit w 6 = false → pubValid d l.val (fld w 0 6) = true → Lands t (.linSlotStart t l) s (linPublish d1 l.val (fld w 0 6) w)))
    ∧ (linMaster d l.val = true → (∀ y, x.slotEnd = some y → y ≤ d.now) → x.gosleep = true →
      Lands t (.linSlotStart t l) s (linSleepNow d l.val))
    ∧ (∀ y, x.slotEnd = some y → d.now < y → Lands t (.linSlotStart t l) s d)
    ∧ (∀ fid baud, running d pg = true → linMaster d l.val = false ∨ claimGated d = true →
      let d1 := if rb d pg 0x80 29 = true ∧ linMaster d l.val = false then wf d pg 0xa8 16 16 baud else d
      (linFor d.tbl l.val fid.val = none → Lands t (.linHeaderReceived t l fid baud) s d1)
      ∧ (∀ w, linFor d.tbl l.val fid.val = some w → bit w 6 = true →
        Lands t (.linHeaderReceived t l fid baud) s (linAwait d1 l.val fid.val (fld w 8 4) 0)))
    ∧ (∀ fid baud, linMaster d l.val = true → claimGated d = false → Lands t (.linHeaderReceived t l fid baud) s d)
    ∧ (∀ f start, f.ok = true → running d pg = true →
      let d1 := setLin d l.val { x with hdrFid := none }
      let err := fun off => irq (cnt d1 pg off 1) pg 2
      Lands t (.linFrameReceived t l f (some .checksum) start) s (err 0x218)
      ∧ Lands t (.linFrameReceived t l f (some .framing) start) s (err 0x220)
      ∧ Lands t (.linFrameReceived t l f (some .bit) start) s (err 0x228)
      ∧ Lands t (.linFrameReceived t l f (some .sync) start) s (err 0x230)
      ∧ (x.hdrFid = some f.fid → linSumOk d l.val f = false → Lands t (.linFrameReceived t l f none start) s (err 0x218))
      ∧ (x.hdrFid = some f.fid → linSumOk d l.val f = true →
        let at0 := start / edgeTicks * edgeTicks
        Lands t (.linFrameReceived t l f none start) s (ferryReady (cnt d1 pg 0x200 1)
          { src := 56 + l.val, lin := some f, loc := locBack d at0, dom := domBack d (tsDomAt d at0) at0, ready := 0 }))
      ∧ (x.hdrFid ≠ some f.fid → Lands t (.linFrameReceived t l f none start) s d))
    ∧ (x.hdrFid.isSome = true → running d pg = true → x.respBy ≤ d.now →
      Lands t (.linNoResponse t l) s (irq (cnt (setLin d l.val { x with hdrFid := none }) pg 0x210 1) pg 2))
    ∧ (d.now < x.respBy → Lands t (.linNoResponse t l) s d)
    ∧ (∀ m, Accepts d m (.lin l) → linMaster d l.val = true →
      Lands t (.linGotoSleep t m l) s (setLin d l.val { x with gosleep := true })
      ∧ (linSilent d l.val = false →
        Lands t (.linWake t m l) s (emit (linResumeIn d l.val) (.linWakePulse l.val (wakeUs d l.val)))))
    ∧ (∀ r, x.resume = some r →
      (r ≤ d.now → Lands t (.linResume t l) s (setLin d l.val { x with resume := none, entry := 0, slotEnd := none, sched := 1 }))
      ∧ (d.now < r → Lands t (.linResume t l) s d))
    ∧ (domUp d 14 = true → let e := irq (wb d pg 0xa8 1 true) pg 0
      (linMaster d l.val = false → Lands t (.linWakeRx t l) s e)
      ∧ (linMaster d l.val = true → Lands t (.linWakeRx t l) s (linResumeIn e l.val))
      ∧ Lands t (.linBusStuck t l) s (raise d pg 0))
    ∧ (domUp d 14 = false → Lands t (.linWakeRx t l) s d ∧ Lands t (.linBusStuck t l) s d)

/-- The Ferry (R227, R240 to R253): it starts its next ready work, records the wait, and submits it, a frame of message RAM that cannot be
corrected being discarded and reported; a verdict of no destination drops the work, counted, 30 cycles after its presentation and not
before; a window closes when its time has passed; a copy for the Ferry is read as a carrier; an error late in a frame withdraws the work
that waits; work that has waited more than 10 µs is a stall. -/
def Obligations.FerryActs : Prop :=
  ∀ (s : State) (t : Instant), let d := devAt s.dev t
    (running d .ferry = true → domUp d 14 = true → (∀ x, d.ferry.lastAt = some x → x + 4 * edgeTicks ≤ d.now) →
      (ferryTake d = none → ∀ e, Lands t (.ferryStart t e) s d)
      ∧ (∀ w d1, ferryTake d = some (w, d1) →
        let wait := (d.now - w.ready) / edgeTicks
        let d2 := setFerry d1 fun f => { f with lastAt := some d.now }
        let d3 := if (rd d2 .ferry 0xb0).toNat < wait then wr d2 .ferry 0xb0 (BitVec.ofNat 64 wait) else d2
        Lands t (.ferryStart t .clean) s (ferrySubmit d3 w)
        ∧ (w.stream = none → w.can.isSome = true →
          ∀ k, Lands t (.ferryStart t (.corrected k)) s (ferrySubmit (seenTwice (raise d3 .chip 4) 4 k).2 w)
          ∧ Lands t (.ferryStart t (.uncorrectable k)) s
            (raise (raise (cnt d3 (canPg (w.src - 32)) 0x218 1) (canPg (w.src - 32)) 1) .chip 20))))
    ∧ (∀ v l, d.ferry.back = v :: l →
      (d.now < v.at0 + 30 → Lands t (.ferryVerdictReturn t) s d)
      ∧ (v.at0 + 30 ≤ d.now → v.fwd = [] →
        Lands t (.ferryVerdictReturn t) s (cnt (setFerry d fun f => { f with back := l }) .ferry 0x210 1))
      ∧ (v.at0 + 30 ≤ d.now → v.fwd ≠ [] → v.work.late = false →
        let d0 := setFerry d fun f => { f with back := l }
        let vw := viewOf d0 v.epoch
        let p := ferryPlan d0 vw v.work
        ∀ r, p.route = some r → p.stream = none → Lands t (.ferryVerdictReturn t) s
          ((p.targets.filter v.fwd.contains).foldl (fun d x => toTarget d vw.tbl r v.work x) d0)))
    ∧ (∀ (i : Fin 64) x, kvGet d.ferry.windows i.val = some x →
      let due := x.opened + windowUs (viewOf d x.epoch).tbl i.val * 65536000
      (due ≤ locNow d → x.msgs = [] →
        Lands t (.aggWindowClose t i) s (setFerry d fun f => { f with windows := kvDel f.windows i.val }))
      ∧ (due ≤ locNow d → x.msgs ≠ [] →
        let d1 := setFerry d fun f => { f with windows := kvDel f.windows i.val }
        Lands t (.aggWindowClose t i) s (presentCarrier d1 (viewOf d1 x.epoch) i.val x.msgs))
      ∧ (locNow d < due → Lands t (.aggWindowClose t i) s d))
    ∧ (∀ c l, d.ferryIn = c :: l → running d .ferry = true →
      Lands t (.carrierReceived t) s (carrierOp { d with ferryIn := l } c))
    ∧ (∀ (k : Fin 24) onBus, (can d k.val).lastRx = none → Lands t (.canLateError t k onBus) s d)
    ∧ (∀ (k : Fin 24) onBus w, (can d k.val).lastRx = some w →
      LandsWith t (.canLateError t k onBus) s fun d' =>
        (can d' k.val).lastRx = none ∧ ∀ x ∈ d'.ferry.ready, ¬ (x.id = w.id ∧ x.stream = none))
    ∧ (running d .ferry = true →
      ((∃ w ∈ d.ferry.ready, w.ready + 10 * usTicks < d.now) → Lands t (.ferryStall t) s (raise d .ferry 0)))
    ∧ ((∀ w ∈ d.ferry.ready, d.now ≤ w.ready + 10 * usTicks) → (∀ l ∈ d.ferry.carriers, ∀ w ∈ l, d.now ≤ w.ready + 10 * usTicks) →
      Lands t (.ferryStall t) s d)

/-- The witness engine (R260, R266 to R268, R272): it takes no tap while it does not run, is busy or has none, and takes its oldest one
else; a tick is evaluated at most once and, where no tap waits, at once; a comparator whose deviation lies above its limit and has done so
for longer than PERSIST violates; a violation is shown, counted, raised and recorded, and its end clears what shows it. -/
def Obligations.WitnessEngineActs : Prop :=
  ∀ (s : State) (t : Instant), let d := devAt s.dev t
    (d.xwe.fifo = [] ∨ running d .xwe = false ∨ d.now < d.xwe.busyTo → Lands t (.xweTapProcess t) s d)
    ∧ (∀ tp rest, d.xwe.fifo = tp :: rest → running d .xwe = true → d.xwe.busyTo ≤ d.now →
      LandsWith t (.xweTapProcess t) s fun d' => d'.xwe.fifo = rest)
    ∧ (∀ dm : Fin 5, let per := af d .xwe 0x80 0 10 * 65536000000
      let tt := timeOf d dm.val / per * per
      (per = 0 ∨ running d .xwe = false ∨ domOn d dm.val = false → Lands t (.xweTick t dm) s d)
      ∧ (per ≠ 0 → running d .xwe = true → domOn d dm.val = true →
        (∀ x, kvGet d.xwe.lastTick dm.val = some x → tt ≤ x → Lands t (.xweTick t dm) s d)
        ∧ ((∀ x, kvGet d.xwe.lastTick dm.val = some x → x < tt) → Lands t (.xweTick t dm) s
          (xweTicksDue (setXwe d { d.xwe with lastTick := kvPut d.xwe.lastTick dm.val tt,
                                              ticks := d.xwe.ticks ++ [(dm.val, tt, d.xwe.fifo.length)] })))))
    ∧ (∀ (e : Dev) vw x c rc dev onset, (cmpCond e vw c x).rcDev = some (rc, dev) →
      let tol := cmpReg e vw c 2
      let s0 := kvD e.xwe.cmps c {}
      (fld tol 0 24 : Int) * 256 + (fld tol 24 8 : Int) * rc.natAbs / 256 < dev.natAbs →
      s0.state = 1 → s0.onset = some onset → fld tol 44 12 * 655360000000 < x - onset →
      let s1 : XweCmp := { s0 with stale := false, dev := dev, since := none, state := 2 }
      xweEval e vw x c = xweViolation (setXwe e { e.xwe with cmps := kvPut e.xwe.cmps c s1 }) vw c onset x (cmpCond e vw c x))
    ∧ (∀ (e : Dev) vw c onset x ev, let d1 := wb (wb e .xwe 0xd0 c true) .xwe 0xd8 c true
      xweViolation e vw c onset x ev = witRecord (irq (cnt d1 .xwe 0x720 1) .xwe 0) vw c 1 onset x ev
      ∧ xweViolEnd e vw c onset x ev = witRecord (irq (wb e .xwe 0xd0 c false) .xwe 1) vw c 2 onset x ev)

/-! ### Wake, network management, power (chapters 10 and 11) -/

/-- Wake sources (R276 to R282, R292, R426): a source that is enabled and whose condition is met is a wake event of that source, and a
condition that is not met changes nothing: a WUP of the set length, a decoded frame or too many errors, a LIN pulse of the set length, a
wake detector of a sleeping port, a wake pin that becomes active; a LIN phase above 20 ms counts as ignored. -/
def Obligations.WakeSourcesAct : Prop :=
  ∀ (s : State) (t : Instant), let d := devAt s.dev t
    (∀ (k : Fin 24) us, let c := ac d (.buoy 0) (0x100 + k.val * 8)
      (bit c 20 = true → bit c 2 = false → fld c 12 8 ≤ us → Lands t (.canWup t k us) s (wakeEvents d [k.val]))
      ∧ (bit c 20 = false ∨ bit c 2 = true ∨ us < fld c 12 8 → Lands t (.canWup t k us) s d)
      ∧ (bit c 20 = true → bit c 2 = true ∨ rb d (canPg k.val) 0xb0 8 = true →
        (∀ x, (Decoded.valid x).ok = true → x.fdf = false → x.xlf = false → bit c 3 = false →
          Lands t (.buoyFrameDecoded t k (.valid x)) s
            (wakeEvents (if running d (canPg k.val) then d else (kaOfCan d k.val x).foldl keepAliveOp d)
              (((List.range 64).filter fun f => filterHit d f k.val x).map (64 + ·))))
        ∧ (bit c 3 = true → let n := kvD d.buoy.fec k.val 0
          let put := fun x => setBuoy d fun b => { b with fec := kvPut b.fec k.val x }
          (fld c 4 8 < n + 1 → Lands t (.buoyFrameDecoded t k .error) s (wakeEvents (put 0) [k.val]))
          ∧ (n + 1 ≤ fld c 4 8 → Lands t (.buoyFrameDecoded t k .error) s (put (n + 1))))))
    ∧ (∀ (l : Fin 8) us, let c := ac d (.buoy 0) (0x1c0 + l.val * 8)
      (bit c 16 = true → fld c 0 13 ≤ us → us ≤ 20000 → Lands t (.linWakePulse t l us) s (wakeEvents d [24 + l.val]))
      ∧ (bit c 16 = true → 20000 < us →
        Lands t (.linWakePulse t l us) s (setSrc d (24 + l.val) fun x => { x with ignored := min ctrMax (x.ignored + 1) }))
      ∧ (bit c 16 = false ∨ us < fld c 0 13 ∧ us ≤ 20000 → Lands t (.linWakePulse t l us) s d))
    ∧ (∀ (p : Fin 26),
      (4 ≤ p.val → ab d (.buoy 0) 0x240 (p.val - 4) = true → running d (phyPage p.val) = false →
        Lands t (.phyWakeDetect t p) s (wakeEvents d [28 + p.val]))
      ∧ (p.val < 4 ∨ ab d (.buoy 0) 0x240 (p.val - 4) = false → Lands t (.phyWakeDetect t p) s d))
    ∧ (∀ (n : Fin 8), ab d (.buoy 0) (0x200 + n.val * 8) 0 = true →
      (d.buoy.pins.contains n.val = false → Lands t (.wakePinEvent t n true) s
        (wakeEvents (setBuoy d fun b => { b with pins := b.pins ++ [n.val] }) [54 + n.val]))
      ∧ (d.buoy.pins.contains n.val = true → Lands t (.wakePinEvent t n true) s d)
      ∧ Lands t (.wakePinEvent t n false) s (setBuoy d fun b => { b with pins := b.pins.filter (· != n.val) }))

/-- Network management (R288 to R295): a keep-alive acts 299 cycles of CLK_FAB after the frame that gave it: one of an awake cluster
restarts its timer and one of a cluster that checks, is ready to sleep or goes to sleep wakes it; without one an awake cluster whose need is local no more becomes ready to sleep; it goes to sleep READY_SLEEP_MS later,
as one does that was woken in vain, which is reported; when its conditions have been met for 495 cycles the point of no return is passed,
and XCVR_SETTLE_US after it the cluster is asleep unless an event was latched. -/
def Obligations.NetworkManagementActs : Prop :=
  ∀ (s : State) (t : Instant) (n : Fin 32), let d := devAt s.dev t
    let c := clus d n.val
    (∀ m v, Accepts d m (.buoy 0) → Lands t (.nmLocalWrite t m v) s (writeFields d (.buoy 0) 0x400 v))
    ∧ (kvGet d.buoy.kaDue n.val = none → Lands t (.keepAlive t n) s d)
    ∧ (∀ y, kvGet d.buoy.kaDue n.val = some y →
      (d.now < y + 299 → Lands t (.keepAlive t n) s d)
      ∧ (y + 299 ≤ d.now →
        let d0 := setBuoy d fun b => { b with kaDue := kvDel b.kaDue n.val }
        let d1 := setClus d0 n.val fun c => { c with lastKa := some d0.now, timer := d0.now }
        (clValid d0 n.val = false → Lands t (.keepAlive t n) s d0)
        ∧ (clValid d0 n.val = true → d1.pwr.entry = none →
          (c.state = 1 ∨ c.state = 4 → Lands t (.keepAlive t n) s d1)
          ∧ (c.state = 2 ∨ c.state = 5 → (clAwake d1 n.val).pwr.entry = none → Lands t (.keepAlive t n) s (clAwake d1 n.val))
          ∧ (c.state = 3 → c.ponr = none → (clAwake (clCancel d1 n.val) n.val).pwr.entry = none →
            Lands t (.keepAlive t n) s (clAwake (clCancel d1 n.val) n.val)))))
    ∧ (clValid d n.val = true →
      (c.state = 1 → localNeed d n.val = false → timerOut d c.timer (fld (clWord d n.val 2) 0 16) = true →
        Lands t (.nmTimeout t n) s (irq (setClus d n.val fun c => { c with state := 2, entered := d.now }) (.buoy 0) 2))
      ∧ (c.state = 1 → timerOut d c.timer (fld (clWord d n.val 2) 0 16) = false → Lands t (.nmTimeout t n) s d)
      ∧ (c.state = 2 → timerOut d c.entered (fld (clWord d n.val 2) 16 16) = true → Lands t (.readySleepExpiry t n) s (clSleep d n.val))
      ∧ (c.state = 2 → timerOut d c.entered (fld (clWord d n.val 2) 16 16) = false → Lands t (.readySleepExpiry t n) s d)
      ∧ (c.state = 5 → timerOut d c.entered (fld (clWord d n.val 2) 32 16) = true → c.woken = none →
        Lands t (.falseWakeExpiry t n) s (clSleep (irq (setClus d n.val fun c => { c with woken := none }) (.buoy 0) 1) n.val))
      ∧ (c.state = 3 → c.ponr = none → (clCan d n.val).isSome = true →
        ((clLins d n.val).all fun l => !domUp d 14 || !linMaster d l || rb d (linPg l) 0xa8 0) = true →
        (sleepFrom d n.val + 495 ≤ d.now → Lands t (.sleepConditionsMet t n) s (clPonr d n.val)
          ∧ LandsWith t (.sleepConditionsMet t n) s fun d' => (clus d' n.val).ponr = some d.now ∧ (clus d' n.val).waits = [])
        ∧ (d.now < sleepFrom d n.val + 495 → Lands t (.sleepConditionsMet t n) s d)))
    ∧ (∀ x, c.state = 3 → c.ponr = some x →
      (d.now < x + af d (.buoy 0) 0x80 8 8 * usTicks → Lands t (.modeChangeWindowEnd t n) s d)
      ∧ (x + af d (.buoy 0) 0x80 8 8 * usTicks ≤ d.now → c.latch = none → clCan d n.val = none →
        Lands t (.modeChangeWindowEnd t n) s (setClus (irq (setClus d n.val fun c => { c with state := 4, entered := d.now }) (.buoy 0) 2)
          n.val fun c => { c with ponr := none, latch := none, owed := false })))

/-- The keeper (R297, R298; when a period begins: log 194, the model's choice): its master's KICK is remembered and its RELEASE after a KICK ends the fail-safe, another master's is an access
error; a period with a KICK clears the misses, one without counts a miss, and the third in a row trips: the fail-safe and its cause show,
the error and the interrupt are raised, the trip is counted and recorded. -/
def Obligations.KeeperActs : Prop :=
  ∀ (s : State) (t : Instant), let d := devAt s.dev t
    let pg : Page := .buoy 0
    let e := rewritten d pg 0x280
    (∀ m, Accepts d m pg →
      (masterCode m = keeperMaster d →
        Lands t (.keeperKick t m) s (setBuoy e fun b => { b with kicked := true })
        ∧ (d.buoy.kicked = true → Lands t (.keeperRelease t m) s (wb e pg 0x288 2 false)))
      ∧ (masterCode m ≠ keeperMaster d →
        Lands t (.keeperKick t m) s (accessErr e (masterCode m) 3 true 3 (pg.base + 0x280))
        ∧ Lands t (.keeperRelease t m) s (accessErr e (masterCode m) 3 true 3 (pg.base + 0x280))))
    ∧ (rb d pg 0x280 0 = true → rb d pg 0x288 3 = false → d.buoy.keepAt + 99 * msTicks ≤ d.now →
      let p := setBuoy d fun b => { b with keepAt := d.now }
      (d.buoy.kicked = true →
        Lands t (.keeperPeriod t) s (wf (setBuoy d fun b => { b with kicked := false, keepAt := d.now }) pg 0x288 0 2 0))
      ∧ (d.buoy.kicked = false → rf d pg 0x288 0 2 ≠ 2 →
        Lands t (.keeperPeriod t) s (wf p pg 0x288 0 2 (min 3 (rf d pg 0x288 0 2 + 1))))
      ∧ (d.buoy.kicked = false → rf d pg 0x288 0 2 = 2 →
        let d1 := raise (wb (wb (wf p pg 0x288 0 2 3) pg 0x288 2 true) pg 0x288 4 true) pg 0
        let d2 := irq (cnt d1 pg 0x490 1) pg 3
        Lands t (.keeperPeriod t) s (manPush d2 13 1 (wordBytes (rd d2 pg 0x490) ++ leBytes 1 (keeperMaster p)))))
    ∧ (d.now < d.buoy.keepAt + 99 * msTicks → Lands t (.keeperPeriod t) s d)
    ∧ (rb d pg 0x280 0 = false ∨ rb d pg 0x288 3 = true → Lands t (.keeperPeriod t) s d)

/-- Idle quays (R304 to R306): a quay that has been P1-idle for 1 µs is clock-gated where the target allows it, one P2-idle for P2_IDLE_US
power-gated with its queues and status lost; a gated quay begins its restoration and runs when that time has passed, not before. -/
def Obligations.QuayGatingActs : Prop :=
  ∀ (s : State) (t : Instant) (q : Fin 4), let d := devAt s.dev t
    let x := 5 + q.val
    (d.fcn.safe = false → (quay d q.val).isoAt = none →
      (pwrTarget d ≠ 0 → domCond d x = 1 → p1Idle d q.val = true → (∀ y, kvGet d.pwr.idle1 q.val = some y → y + usTicks ≤ d.now →
        Lands t (.quayClockGate t q) s (pagesStop (wb (setDomCond d x 2) .pwr 0x88 (8 + q.val) true) (domainPages x))))
      ∧ (pwrTarget d = 0 → Lands t (.quayClockGate t q) s d)
      ∧ (2 ≤ pwrTarget d → domUp d x = true → p2Idle d q.val = true →
        (∀ y, kvGet d.pwr.idle2 q.val = some y → y + max 1 (rf d .pwr 0x80 16 16) * usTicks ≤ d.now →
          let d1 := statusReset (quayForget (ltDomainStop d [x]) q.val) fun pg => pg.domain == x
          Lands t (.quayPowerGate t q) s (wb (wb (setDomCond d1 x 3) .pwr 0x88 (8 + q.val) false) .pwr 0x88 (12 + q.val) true)))
      ∧ (pwrTarget d < 2 → Lands t (.quayPowerGate t q) s d)
      ∧ (pwrState d < 3 → domCond d x = 2 ∨ domCond d x = 3 → (quay d q.val).restore = none →
        Lands t (.quayRestore t q) s (setQuay d q.val { quay d q.val with restore := some (d.now, domCond d x) })))
    ∧ (∀ y c, (quay d q.val).restore = some (y, c) → let due := y + (if c = 2 then 640 else 48 * usTicks)
      (d.now < due → Lands t (.quayRestoreDone t q) s d)
      ∧ (due ≤ d.now → ¬ (domCond d x = 3 ∧ pwrTarget d = 1 ∧ p1Idle d q.val = true) →
        let d1 := wb (setQuay d q.val { quay d q.val with restore := none }) .pwr 0x88 (12 + q.val) false
        Lands t (.quayRestoreDone t q) s
          (pagesStart (setDomCond (quayPass (wb d1 .pwr 0x88 (8 + q.val) false) q.val (domCond d x)) x 1) (domainPages x))))

/-- Deep states (R309, R310, R312, R316): the entry to the target begins when deep_ok has held for DEEP_DELAY_MS, not before; the state is
reached at its last step, where PWR_STAT shows it and PD_BUF has its condition, P4 losing the core memories; a host access in P3 requests
the exit; the exit, when all its readiness points have passed, leaves P0 and records the state that was left, the cause and the time it took. -/
def Obligations.DeepStatesAct : Prop :=
  ∀ (s : State) (t : Instant), let d := devAt s.dev t
    (halted d = false → pwrState d < 3 → d.pwr.entry = none → 3 ≤ pwrTarget d →
      ∀ x, (if pwrTarget d = 4 then d.pwr.deepAt4 else d.pwr.deepAt) = some x →
        (x + rf d .pwr 0x80 32 16 * msTicks ≤ d.now → Lands t (.deepDelayExpiry t) s (entryStart d (pwrTarget d))
          ∧ LandsWith t (.deepDelayExpiry t) s fun d' => d'.pwr.entry = some (pwrTarget d, d.now) ∧ rb d' .pwr 0x88 6 = true)
        ∧ (d.now < x + rf d .pwr 0x80 32 16 * msTicks → Lands t (.deepDelayExpiry t) s d))
    ∧ (∀ addr, rb d .pwr 0x80 3 = true → pwrState d = 3 → Lands t (.hostAccessWake t addr) s (exitRequest d true (rf d .pwr 0x80 4 3))
      ∧ (halted d = false → d.pwr.entry = none → d.pwr.exit = none → LandsWith t (.hostAccessWake t addr) s fun d' =>
        d'.pwr.exit = some (true, rf d .pwr 0x80 4 3) ∧ d'.pwr.exitAt = d.now ∧ rb d' .pwr 0x88 6 = true))
    ∧ (∀ addr, rb d .pwr 0x80 3 = false → Lands t (.hostAccessWake t addr) s d)
    ∧ (let lose : Dev → List Host.Cell → List Host.Cell := fun d1 m => if 4 ≤ pwrState d1 ∧ pwrState d < 4 then wipeSram m else m
    (d.pwr.entry = none → exec (.powerStateReached t) s = .next (landedM t s lose d))
    ∧ (∀ e x, (e = 3 ∨ e = 4) → d.pwr.entry = some (e, x) → d.pwr.latched = none → halted d = false → ponrAt e x ≤ d.now →
      (e = 3 → resyncing d = false ∧ d.scarab.digFrom ≤ d.now) →
      let d' := stateReachedOp d
      exec (.powerStateReached t) s = .next (landedM t s lose d')
      ∧ pwrState d' = e ∧ d'.pwr.entry = none ∧ d'.time.stopped = true ∧ (d.time.stopped = false → d'.pwr.sleepAt = some d.now)
      ∧ domCond d' 9 = (if e = 4 then 0 else 3)))
    ∧ (d.pwr.exit = none → Lands t (.exitDone t) s d)
    ∧ (d.pwr.exitStep < (exitTimes (pwrState d)).length → Lands t (.exitDone t) s d)
    ∧ (∀ h c, d.pwr.exit = some (h, c) → halted d = false → 3 ≤ pwrState d → (exitTimes (pwrState d)).length ≤ d.pwr.exitStep →
      LandsWith t (.exitDone t) s fun d' => pwrState d' = 0 ∧ d'.pwr.exit = none
        ∧ rd d' .pwr 0x98 = mkWord [(0, pwrState d), (3, h.toNat), (4, c), (32, min (2 ^ 32 - 1) ((d.now - d.pwr.exitAt) / usTicks))])

/-! ### Host interface (chapter 12) -/

/-- Frame queues of ports H and C (R318 to R328): a doorbell moves TAIL within the ring and starts the port's fetch; the data of a TX frame
is gathered, a whole frame is presented and its descriptors completed; an error ends the frame and stops its queue; COAL_US after the oldest
completion its message is sent, and not before; a queue that is enabled runs and is not stopped or quiesced; a link change shows and lets
what waited go on. -/
def Obligations.FrameQueuesAct : Prop :=
  ∀ (s : State) (t : Instant), let d := devAt s.dev t
    let txTail := fun (d : Dev) (i : Nat) (v : W64) (portC : Bool) =>
      let d1 := hqSet d i false 17 15 (fld v 0 15 % hqSize d i false)
      txKick (setHostQ d1 i { hostQ d1 i with more := false }) portC
    (∀ q v, q.ok = true → q.portC = false → d.fcn.safe = false → pwrState d < 3 → d.pwr.entry = none → let i := QueueRef.idx q
      Lands t (.txDoorbell t q v) s (txTail d i v false)
      ∧ Lands t (.rxDoorbell t q v) s (rxKick (hqSet d i true 17 15 (fld v 0 15 % hqSize d i true)) i))
    ∧ (∀ q v, q.ok = true → q.portC = true → Accepts d .scarab (.scarab 1) → let i := QueueRef.idx q
      Lands t (.txDoorbell t q v) s (txTail d i v true)
      ∧ Lands t (.rxDoorbell t q v) s (rxKick (hqSet d i true 17 15 (fld v 0 15 % hqSize d i true)) i))
    ∧ (∀ q o, q.ok = true → let i := QueueRef.idx q
      let h := hostQ d i
      (h.phase ≠ 2 → Lands t (.pcieReadCompletion t q (.data o)) s d)
      ∧ (h.phase = 2 → (h.data ++ o).length < descLen h.descs →
        Lands t (.pcieReadCompletion t q (.data o)) s (setHostQ d i { h with data := h.data ++ o }))
      ∧ (h.phase = 2 → descLen h.descs ≤ (h.data ++ o).length → let p := if 16 ≤ i then 27 else 26
        let w1 := (h.descs.headD []).getD 1 0
        bit w1 18 = false → bit w1 17 = false →
        (rxAccepts d p = true → Lands t (.pcieReadCompletion t q (.data o)) s
          (txKick (txFinish (present d { fid := 0, port := p, ready := 0, frame := { octets := (h.data ++ o).take (descLen h.descs) } })
            i 0 h.descs.length) (decide (16 ≤ i))))
        ∧ (rxAccepts d p = false → Lands t (.pcieReadCompletion t q (.data o)) s
          (txKick (txFinish d i 3 h.descs.length) (decide (16 ≤ i)))))
      ∧ (h.phase ≠ 0 →
        let d0 := if i < 16 then irq (cnt d (.host 0) 0x98 1) (.host 0) 1 else d
        let e := txKick (hqStop (if h.descs = [] then txIdle d0 i (hostQ d0 i) else txFinish d0 i 2 (hostQ d0 i).descs.length) i false) (decide (16 ≤ i))
        Lands t (.pcieReadCompletion t q .error) s e ∧ Lands t (.pcieCompletionTimeout t (.txQueue q)) s e)
      ∧ (h.rxStale = false → Lands t (.pcieCompletionTimeout t (.rxQueue q)) s
        (let d0 := if i < 16 then irq (cnt d (.host 0) 0x98 1) (.host 0) 1 else d
         hqStop (setHostQ d0 i { hostQ d0 i with rxBusy := false, rxStale := false }) i true))
      ∧ (h.sigRx ≠ 0 →
        (h.sigRxAt + fld (hqCfg d i true) 32 16 * usTicks ≤ d.now → Lands t (.coalesceTimeout t q true) s (sigNow d i true))
        ∧ (d.now < h.sigRxAt + fld (hqCfg d i true) 32 16 * usTicks → Lands t (.coalesceTimeout t q true) s d))
      ∧ (∀ m v rx, Accepts d m (hqPage i) →
        Lands t (.hostQueueEnable t m q rx v) s (hqCfgOp d i rx (setBit v 4 true))))
    ∧ (∀ k, let w := mkWord [(0, k.speed % 8), (3, k.width % 8), (6, k.up.toNat), (7, (k.bme && k.up).toNat), (8, k.pm % 4)]
      let d1 := irq (wr d (.host 0) 0x80 w) (.host 0) 0
      let d2 := if rb d1 (.host 0) 0x80 7 then { d1 with host := { d1.host with held := [] }, out := d1.out ++ d1.host.held } else d1
      Lands t (.pcieLinkChange t k) s ((List.range 16).foldl rxKick (txKick d2 false)))

/-- SPI and in-band management (R331 to R334): a read shifts out the words with their status; a write whose CRC fails is counted and writes
nothing, another writes its words in order; an in-band request without a good key or tag is rejected, counted and not answered; one with
another epoch or an old counter is answered with STATUS 2; any other is served under its counter; while disabled, with STATUS 4. -/
def Obligations.SerialManagementActs : Prop :=
  ∀ (s : State) (t : Instant), let d := devAt s.dev t
    (∀ mosi words, octetAt mosi 0 = 0x0B → 5 ≤ mosi.length →
      let r := spiReads s.mem words (beNat (slice mosi 1 4)) d
      Lands t (.spiTransaction t mosi words) s (emit r.2 (.spi ([0, 0] ++ r.1))))
    ∧ (∀ mosi words, octetAt mosi 0 = 0x02 → spiOn d = true →
      let body := mosi.take (mosi.length - 1)
      (mosi.length < 6 ∨ mosi.length % 8 ≠ 6 ∨ crc8 body ≠ octetAt mosi (mosi.length - 1) →
        Lands t (.spiTransaction t mosi words) s (cnt d (.host 0) 0x90 1))
      ∧ (6 ≤ mosi.length → mosi.length % 8 = 6 → crc8 body = octetAt mosi (mosi.length - 1) →
        Lands t (.spiTransaction t mosi words) s (spiWrites s.mem (body.drop 5) ((mosi.length - 6) / 8) (beNat (slice mosi 1 4)) d)))
    ∧ (firmwareRuns d = true → ∀ l,
      (inbKey d = none → Lands t (.inbandRequest t l) s (cnt d (.host 0) 0xa0 1))
      ∧ (∀ key, inbKey d = some key → let body := l.take (l.length - 16)
        (inbTag key body ≠ l.drop (l.length - 16) → Lands t (.inbandRequest t l) s (cnt d (.host 0) 0xa0 1))
        ∧ (inbTag key body = l.drop (l.length - 16) → octetAt l 0 = 1 → octetAt l 1 = 1 → 1 ≤ beNat (slice l 2 2) →
          beNat (slice l 2 2) ≤ 64 → l.length = 36 →
          (beNat (slice l 4 4) ≠ d.host.inbEpoch → Lands t (.inbandRequest t l) s (inbAnswer (cnt d (.host 0) 0xa0 1) (l.take 20) 2 []))
          ∧ (beNat (slice l 4 4) = d.host.inbEpoch → d.host.inbLast = none →
            let d1 := { d with host := { d.host with inbLast := some (beNat (slice l 8 4)) } }
            (rb d (.mbox 0) 0x88 0 = false → Lands t (.inbandRequest t l) s (inbAnswer d1 (l.take 20) 4 []))
            ∧ (rb d (.mbox 0) 0x88 0 = true → ∀ w d2, inbReads s.mem (beNat (slice l 2 2)) (beNat (slice l 12 8)) d1 = (some w, d2) →
              Lands t (.inbandRequest t l) s (inbAnswer d2 (l.take 20) 0 w))))))

/-- The mailbox (R335 to R338): a word written is appended to the request buffer, or OVERFLOW shows where it does not fit; RING by the
channel's master on an idle channel stages the request and makes it BUSY, another RING is counted; ACK empties both buffers and makes it
IDLE; VERSION answers the firmware's version and the in-band epoch. -/
def Obligations.MailboxActs : Prop :=
  ∀ (s : State) (t : Instant) (ch : Fin 4), let d := devAt s.dev t
    let pg := mboxPg ch.val
    let x := mbox d ch.val
    (∀ m, Accepts d m pg →
      (∀ v, x.req.length + 8 ≤ 8192 → Lands t (.mboxReqWrite t m ch v) s (setMbox d ch.val { x with req := x.req ++ wordBytes v }))
      ∧ (∀ v, 8192 < x.req.length + 8 → Lands t (.mboxReqWrite t m ch v) s (wb d pg 0x88 2 true))
      ∧ (mboxState d ch.val = 0 → masterCode m = mboxMaster ch.val → Lands t (.mboxRing t m ch) s
        (wf (setMbox d ch.val { x with staged := some x.req, rungAt := d.now, started := false }) pg 0x88 0 2 1))
      ∧ (mboxState d ch.val ≠ 0 ∨ masterCode m ≠ mboxMaster ch.val → Lands t (.mboxRing t m ch) s (cnt d (.mbox 0) 0x90 1))
      ∧ Lands t (.mboxAck t m ch) s (wf (setMbox d ch.val {}) pg 0x88 0 2 0))
    ∧ (Served d ch.val 1 [] → Lands t (.version t ch) s
      (mboxReply (opened d ch.val) ch.val 0 (leBytes 8 (imgVersion d.boot.hdr) ++ leBytes 4 d.host.inbEpoch)))

/-- The Lighter (R339 to R345): ARM records the master and arms the shadow set, or shows SH_WRITE_IGN where it is armed; at the hand-over
an idle channel takes an armed set with an address out of range, a length of 0 or a bad configuration as a result, and another as its
transfer; a granted burst moves its octets from source to target; STOP ends the transfer stopped, RESUME lets it go on, ABORT_NOW ends
it with what is undefined left open. -/
def Obligations.LighterActs : Prop :=
  ∀ (s : State) (t : Instant) (c : Fin 32), let d := devAt s.dev t
    let k := c.val
    (∀ m, Accepts d m (ltPg k) →
      (ltArmed d k = false → Lands t (.lighterArm t m c) s
        (ltArmPut (ltWr d k 0x28 (setFld (ltRd d k 0x28) 8 3 (masterCode m))) k true))
      ∧ (ltArmed d k = true → Lands t (.lighterArm t m c) s (ltWr d k 0x28 (setBit (ltRd d k 0x28) 7 true)))
      ∧ (ltState d k = 1 → Lands t (.lighterStop t m c) s (ltEnd d k 2 7 (ltRd d k 0x18)))
      ∧ (ltState d k = 2 → ltResult d k = 7 ∨ ltResult d k = 5 → Lands t (.lighterResume t m c) s (ltSet d k 1 0))
      ∧ (ltState d k ≠ 2 → Lands t (.lighterResume t m c) s d)
      ∧ (ltState d k ≠ 0 → Lands t (.lighterAbortNow t m c) s (ltEnd (ltUndefined (ltArmPut d k false) k) k 0 4 (ltRd d k 0x18))))
    ∧ (running d (.lighter 0) = true → ltState d k = 0 → ltArmed d k = true →
      let src := ltRd d k 0x40
      let dst := ltRd d k 0x48
      let len := (ltRd d k 0x50).toNat
      let cfg := ltRd d k 0x58
      let d1 := ltWr (ltArmPut d k false) k 0x30 0
      (len = 0 → Lands t (.lighterHandover t c) s (ltEnd d1 k 0 2 cfg))
      ∧ (len ≠ 0 → len % 8 = 0 → ltRangeOk src.toNat len (bit cfg 14) = true → ltRangeOk dst.toNat len (bit cfg 15) = true → ltCfgOk cfg = true →
        let d2 := ltWr (ltWr (ltWr (ltWr d1 k 0 src) k 8 dst) k 0x10 (ltRd d k 0x50)) k 0x18 cfg
        Lands t (.lighterHandover t c) s (ltSet { d2 with host := { d2.host with
          ltMaster := kvPut d2.host.ltMaster k (fld (ltRd d k 0x28) 8 3) } } k 1 0)))
    ∧ (ltGrant d ≠ some k → ∀ h, Lands t (.lighterBurst t c h) s d)
    ∧ (ltGrant d = some k → ltHostReady d (ltRd d k 0).toNat = true → ltHostReady d (ltRd d k 8).toNat = true →
      let n := ltBurstLen d k
      let cfg := ltRd d k 0x18
      let m := masterOf (kvD d.host.ltMaster k 5)
      ∀ h,
      (∀ d1, ltFetch s.mem d m (ltRd d k 0).toNat n (bit cfg 14) h = (none, d1) → Lands t (.lighterBurst t c h) s (ltEnd d1 k 0 3 cfg))
      ∧ (∀ l d1 d2, ltFetch s.mem d m (ltRd d k 0).toNat n (bit cfg 14) h = (some l, d1) →
        ltStore s.mem d1 m (ltRd d k 8).toNat n (bit cfg 15) l = (some (), d2) → Lands t (.lighterBurst t c h) s (ltMoved d2 k n))
      ∧ (∀ l d1 d2, ltFetch s.mem d m (ltRd d k 0).toNat n (bit cfg 14) h = (some l, d1) →
        ltStore s.mem d1 m (ltRd d k 8).toNat n (bit cfg 15) l = (none, d2) → Lands t (.lighterBurst t c h) s (ltEnd d2 k 0 3 cfg)))

/-! ### Security (chapter 13) -/

/-- Key slots (R359 to R363, R368, R372, R377): an accepted GO takes the operands and makes Carapace BUSY, a GO while BUSY is counted; the
command's end has its effect, its result and CMD_DONE, a slot of the ROM being refused as result 1 and bad attributes as result 2; a slot
whose tag fails becomes BAD; the mailbox commands write, generate and attest; the TRNG stops and resumes; a port's engine drops a key that
it may no longer use. -/
def Obligations.KeyCommandsAct : Prop :=
  ∀ (s : State) (t : Instant), let d := devAt s.dev t
    (∀ m (x : Fin 256), Accepts d m .carapace →
      let data := (List.range 8).map fun i => rd d .carapace (0x140 + i * 8)
      let out := (List.range 12).map fun i => rd d .carapace (0x180 + i * 8)
      let go := fun op : Nat =>
        let c : CarCmd := { op := op, slot := x.val, attr := rd d .carapace 0x108, data := data, out := out, master := masterCode m }
        wb { wf (wf d .carapace 0x100 0 4 op) .carapace 0x100 4 8 x.val with car := { d.car with cmd := some c } } .carapace 0x100 63 true
      (rb d .carapace 0x100 63 = false →
        Lands t (.carCmdWrite t m x) s (go 1) ∧ Lands t (.carCmdGenerate t m x) s (go 2) ∧ Lands t (.carCmdDestroy t m x) s (go 3)
        ∧ Lands t (.carCmdWrapExport t m x) s (go 4) ∧ Lands t (.carCmdUnwrapImport t m x) s (go 5)
        ∧ Lands t (.carCmdDerive t m x) s (go 6))
      ∧ (rb d .carapace 0x100 63 = true → Lands t (.carCmdWrite t m x) s (cnt d .carapace 0x210 1)))
    ∧ (d.car.cmd = none → Lands t (.carCmdDone t) s d)
    ∧ (∀ c, d.car.cmd = some c →
      let fin := fun (r : Nat) (e : Dev) => irq (wr (wb { e with car := { e.car with cmd := none } } .carapace 0x100 63 false)
        .carapace 0x110 (BitVec.ofNat 64 r)) .carapace 0
      let value := c.data.flatMap wordBytes
      let refused := fun i => putSlot d i { slotOf d i with refused := min 65535 ((slotOf d i).refused + 1) }
      (c.slot < 8 → c.op = 1 ∨ c.op = 2 ∨ c.op = 3 ∨ c.op = 5 ∨ c.op = 6 → Lands t (.carCmdDone t) s (fin 1 d))
      ∧ (8 ≤ c.slot → c.op = 1 ∨ c.op = 2 ∨ c.op = 6 → badAttr c.attr = true → Lands t (.carCmdDone t) s (fin 2 d))
      ∧ (8 ≤ c.slot → badAttr c.attr = false → (bit c.attr 10 = true → rootPresent d = true ∧ trngOk d = true) →
        (c.op = 1 → goodValue (ktypeOf c.attr) ((fitLen 64 value).drop (64 - ktypeLen (ktypeOf c.attr))) = true →
          let e := fillSlot d c.slot c.attr value
          Lands t (.carCmdDone t) s (fin 0 (keyRecord e 1 c.slot c.master (slotOf e c.slot).attr)))
        ∧ (c.op = 2 → trngOk d = true → ktypeOf c.attr ≠ 5 → ktypeOf c.attr ≠ 6 →
          let r := draw d (ktypeLen (ktypeOf c.attr))
          let e := fillSlot r.2 c.slot (setBit c.attr 6 true) (rightAlign r.1)
          Lands t (.carCmdDone t) s (fin 0 (keyRecord e 2 c.slot c.master (slotOf e c.slot).attr))))
      ∧ (8 ≤ c.slot → c.op = 3 →
        let e := emptySlot d c.slot
        let e1 : Dev := { e with car := { e.car with wrapped := kvDel e.car.wrapped c.slot } }
        Lands t (.carCmdDone t) s (fin 0 (keyRecord e1 3 c.slot c.master (slotOf d c.slot).attr)))
      ∧ (c.op = 4 → ktypeOf (slotOf d c.slot).attr = 0 → Lands t (.carCmdDone t) s (fin 7 (refused c.slot)))
      ∧ (c.op = 4 → ktypeOf (slotOf d c.slot).attr ≠ 0 → bit (slotOf d c.slot).attr 7 = false → Lands t (.carCmdDone t) s (fin 2 (refused c.slot))))
    ∧ Lands t (.slotIntegrityPass t none) s d
    ∧ (∀ x : Fin 256, ktypeOf (slotOf d x.val).attr ≠ 0 → let a := setBit (slotOf d x.val).attr 24 true
      let e := cnt (putSlot d x.val { slotOf d x.val with attr := a, cached := false }) .carapace 0x208 1
      Lands t (.slotIntegrityPass t (some x)) s (keyRecord (irq (raise e .carapace 0) .carapace 1) 4 x.val 0 a))
    ∧ (∀ (ch : Fin 4) p, let o := opened d ch.val
      (d.car.cmd = none → let attr := bytesWord (slice p 8 8)
        (Served d ch.val 0x10 p → privileged d ch.val 0 = true → p.length = 80 → ch ≠ 2 →
          let r := keyWriteOp o (mboxMaster ch.val) (octetAt p 0) attr (slice p 16 64)
          Lands t (.keyWrite t ch) s (mboxReply (carShown r.2 1 (octetAt p 0) attr r.1) ch.val (special r.1) []))
        ∧ (Served d ch.val 0x11 p → privileged d ch.val 0 = true → p.length = 16 → ch ≠ 2 → octetAt p 0 < 8 →
          Lands t (.keyGenerate t ch) s (mboxReply (carShown o 2 (octetAt p 0) attr 1) ch.val (special 1) []))
        ∧ (Served d ch.val 0x11 p → privileged d ch.val 0 = true → p.length = 16 → ch ≠ 2 →
          let r := keyGenOp o (mboxMaster ch.val) (octetAt p 0) attr
          r.1 = 0 → pubLen (ktypeOf (slotOf r.2 (octetAt p 0)).attr) = 0 →
          Lands t (.keyGenerate t ch) s (mboxReply (carShown r.2 2 (octetAt p 0) attr 0) ch.val 0 [])))
      ∧ (∀ x, d.car.cmd = some x → Lands t (.keyWrite t ch) s d ∧ Lands t (.keyGenerate t ch) s d)
      ∧ (Served d ch.val 0x13 p → p.length = 40 → rootPresent o = true →
        let pub := fun x kt n : Nat => pubKey kt (slotValue (slotOf o x)) n
        let l := attestCommon o 0x10 (slice p 8 32) ++ pub 0 4 96 ++ sha384 (pub 1 7 1952) ++ pub 2 4 96
        (∀ k e, attestSign o l true = (some k, e) → Lands t (.devAttest t ch) s (mboxReply e ch.val 0 k))
        ∧ (∀ e, attestSign o l true = (none, e) → Lands t (.devAttest t ch) s (mboxReply e ch.val (special 2) [])))
      ∧ (Served d ch.val 0x12 p → p.length = 40 → rootPresent o = true → let k := slotOf o (octetAt p 0)
        ktypeOf k.attr ≠ 0 → bit k.attr 24 = false →
        let n := if pubLen (ktypeOf k.attr) = 0 then 8 else pubLen (ktypeOf k.attr)
        let l := attestCommon o 0x11 (slice p 8 32) ++ leBytes 1 (octetAt p 0) ++ [0, 0, 0] ++ wordBytes k.attr ++ leBytes 4 n
          ++ pubKey (ktypeOf k.attr) (slotValue k) n
        ∀ x e, attestSign o l false = (some x, e) → Lands t (.keyAttest t ch) s (mboxReply e ch.val 0 x))
      ∧ (p.length = 40 → rootPresent o = false →
        (Served d ch.val 0x12 p → Lands t (.keyAttest t ch) s (mboxReply o ch.val (special 5) []))
        ∧ (Served d ch.val 0x13 p → Lands t (.devAttest t ch) s (mboxReply o ch.val (special 5) []))))
    ∧ (let e := wb { d with car := { d.car with trngStop := true } } .carapace 0x80 6 false
      Lands t (.trngHealthFail t) s (cnt (irq (raise e .carapace 1) .carapace 3) .carapace 0x200 1))
    ∧ (d.car.trngStop = true → Lands t (.trngRecovery t) s (wb { d with car := { d.car with trngStop := false } } .carapace 0x80 6 true))
    ∧ (2 ^ 20 * (d.car.reseeds + 1) ≤ d.car.draws →
      Lands t (.drbgReseed t) s { d with car := { d.car with reseeds := d.car.reseeds + 1 } })
    ∧ (d.car.draws < 2 ^ 20 * (d.car.reseeds + 1) → Lands t (.drbgReseed t) s d)
    ∧ (∀ p : Fin 26, (∀ x, kvGet d.car.recheckAt p.val = some x → x + 100 * msTicks ≤ d.now) →
      LandsWith t (.macsecKeyRecheck t p) s fun d' => d'.regs = d.regs ∧ d'.tbl = d.tbl ∧
      ∀ i < 512, let w := trd d (saAddr i)
        bit w 63 = true → fld w 56 6 = p.val →
        slotUsable d (fld w 44 8) 0 (if fld w 52 2 % 2 = 0 then [1] else [2]) = false → (slotOf d' (fld w 44 8)).cached = false)
    ∧ (∀ (p : Fin 26) x, kvGet d.car.recheckAt p.val = some x → d.now < x + 100 * msTicks → Lands t (.macsecKeyRecheck t p) s d)

/-- The Manifest, life-cycle transitions and tamper (R348, R349, R354, R383 to R386): a valid submission is staged with the SEQ it will
have, another is rejected; a seal is staged behind what is staged; the oldest staged record is written, a record that does not verify stays;
a signature that is complete writes the anchor and its two records; a read answers records or BAD_RANGE; a transition takes a nonce and a
token, and resets the chip 10 ms later; a tamper source that is enabled and active acts, another does not. -/
def Obligations.EvidenceAndLifeCycleAct : Prop :=
  ∀ (s : State) (t : Instant), let d := devAt s.dev t
    (∀ m, Accepts d m .manifest → let w := rd d .manifest 0xb0
      (subTypeOk (fld w 0 16) = false → Lands t (.manifestSubmit t m) s (wr d .manifest 0xe8 2))
      ∧ (subTypeOk (fld w 0 16) = true → d.man.signing = none → d.man.sealDue = none → d.man.refused = 0 →
        d.man.staging.all (fun r => r.type != 0xF0) = true → d.man.sinceSeal + d.man.staging.length < 64 →
        let body := (List.range 5).flatMap fun i => wordBytes (rd d .manifest (0xb8 + i * 8))
        let r : ManRec := { type := fld w 0 16, source := fld w 16 8, body := body }
        Lands t (.manifestSubmit t m) s (wr (setMan d fun x => { x with staging := x.staging ++ [r] }) .manifest 0xe8
          (mkWord [(0, 1), (32, (d.man.head + d.man.staging.length) % 2 ^ 32)])))
      ∧ Lands t (.manifestSubSeal t m) s (manPush d 0xF0 0 (leBytes 1 1 ++ leBytes 1 0)))
    ∧ (domUp d 2 = true → ∀ r rest, d.man.staging = r :: rest →
      let e := setMan d fun x => { x with staging := rest }
      Lands t (.manifestRecordWrite t false) s (raise d .manifest 0)
      ∧ (r.type ≠ 0xF0 →
        Lands t (.manifestRecordWrite t true) s (gapWrite (sealAuto (manStore e r.type r.source true (timeBytes e) r.body))))
      ∧ (r.type = 0xF0 → octetAt r.body 1 = 0 → d.man.signing = none →
        Lands t (.manifestRecordWrite t true) s (gapWrite (sealWrite e (octetAt r.body 0)))))
    ∧ (domUp d 2 = true → ∀ n, d.man.signing = some n →
      let sig := signN (slotValue (slotOf d 2)) d.man.prevChain 96
      let e1 := manStore (anchorWrite d) 0xF2 0 false (leBytes 4 n) (sig.take 48)
      let e2 := manStore e1 0xF3 0 false (leBytes 4 n) (sig.drop 48)
      Lands t (.sealSigned t) s (sealNext (sealEnd (wf e2 .manifest 0x98 32 32 e1.man.head) n e1.man.head)))
    ∧ (∀ (ch : Fin 4) p, let o := opened d ch.val
      (Served d ch.val 0x60 [] → Lands t (.manifestSeal t ch) s (sealReq o 1 (some ch.val)))
      ∧ (Served d ch.val 0x61 p → p.length = 12 →
        (leNat (slice p 4 2) = 0 ∨ 63 < leNat (slice p 4 2) → Lands t (.manifestRead t ⟨ch, .clean⟩) s (mboxReply o ch.val 0x101 []))
        ∧ (∀ r l e, manifestRead p o = (some (r, l), e) → Lands t (.manifestRead t ⟨ch, .clean⟩) s (mboxReply e ch.val r l))
        ∧ (∀ w r l e, manifestRead p (raise o .chip 15) = (some (r, l), e) →
          Lands t (.manifestRead t ⟨ch, .corrected w⟩) s (mboxReply e ch.val r l))
        ∧ (∀ w r l e, manifestRead p (raise o .chip 31) = (some (r, l), e) →
          Lands t (.manifestRead t ⟨ch, .uncorrectable w⟩) s (mboxReply e ch.val r l)))
      ∧ (privileged d ch.val 3 = true →
        (Served d ch.val 0x70 [] → trngOk o = true → let r := draw o 32
          Lands t (.lcTransition t ch) s (mboxReply { r.2 with car := { r.2.car with lcNonce := some r.1 } } ch.val 0 r.1))
        ∧ (Served d ch.val 0x70 p → p.length = 256 → octetAt p 2 ≠ lcOf o →
          Lands t (.lcTransition t ch) s (mboxReply o ch.val (special 4) []))
        ∧ (Served d ch.val 0x70 p → p.length = 256 → octetAt p 2 = lcOf o → octetAt p 3 = 5 → lcOf o = 0 ∨ lcOf o = 1 ∨ lcOf o = 4 →
          leNat (p.take 2) = 2 → tokenHere o p = true → o.car.lcNonce = some (slice p 32 32) →
          let e := sealReq (manPush o 2 1 (leBytes 1 (lcOf o) ++ leBytes 1 5 ++ leBytes 1 0 ++ slice p 32 16)) 2 none
          Lands t (.lcTransition t ch) s
            (mboxReply { e with car := { e.car with lcNonce := none, lcNext := some (5, e.now) } } ch.val 0 []))))
    ∧ (∀ x y, d.car.lcNext = some (x, y) → halted d = false →
      (y + 10 * msTicks ≤ d.now → Lands t (.lcTransitionReset t) s (chipReset (sessionClose d 4) 5))
      ∧ (d.now < y + 10 * msTicks → Lands t (.lcTransitionReset t) s d))
    ∧ (∀ b : Fin 16, let known := b.val ≤ 4 ∨ 8 ≤ b.val ∧ b.val ≤ 11
      (known → rb d .carapace 0xa0 b.val = true → domCond d 1 ≠ 0 → (b.val = 1 → pwrState d < 4) → (b.val = 2 → pwrState d ≠ 5) →
        (b.val = 3 → pwrState d < 3) →
        Lands t (.tamperDetect t b) s (sessionClose (manTamper (tamperOp d b.val (pwrState d))) 5))
      ∧ (¬ known → b.val ≠ 15 → Lands t (.tamperDetect t b) s d)
      ∧ (b.val ≠ 15 → rb d .carapace 0xa0 b.val = false → Lands t (.tamperDetect t b) s d))

/-! ### The Scarab (chapter 14) -/

/-- The voters (R389 to R401, R405): while they vote in TMR with all three cores, equal outputs change nothing, one that differs is a
minority of its core, three that differ halt the cluster; digests, one set per 4,096 cycles, show and are voted alike; a voter mismatch
and a failed self-test are errors, the self-test running every SELFTEST_MS of local time and by SELFTEST_NOW; cycle 2,000 ends a resynchronisation; TRIO is entered while BOOT_WINDOW stands; kcoreinfo shows mode, core and a resynchronisation. -/
def Obligations.ScarabCommandsAct : Prop :=
  ∀ (s : State) (t : Instant), let d := devAt s.dev t
    let pg : Page := .scarab 0
    let minority := fun (d : Dev) (n kind : Nat) =>
      let e := irq (lastEvent (cnt (setScarab d fun x => { x with lastMin := kvPut x.lastMin n (locNow d) }) pg (0xa0 + n * 8) 1) n kind) pg 0
      setScarab (wf (wb (raise e pg 0) pg 0x80 2 true) pg 0x80 3 2 n) fun x => { x with resyncAt := some d.now }
    (voting d = true → resyncing d = false → d.scarab.left = none →
      (∀ a, Lands t (.scarabOutputMinority t a a a) s d)
      ∧ (∀ a b, a ≠ b →
        ((∀ x, kvGet d.scarab.lastMin 0 = some x → x + secUnits ≤ locNow d) → Lands t (.scarabOutputMinority t b a a) s (minority d 0 1))
        ∧ ((∀ x, kvGet d.scarab.lastMin 1 = some x → x + secUnits ≤ locNow d) → Lands t (.scarabOutputMinority t a b a) s (minority d 1 1))
        ∧ ((∀ x, kvGet d.scarab.lastMin 2 = some x → x + secUnits ≤ locNow d) → Lands t (.scarabOutputMinority t a a b) s (minority d 2 1)))
      ∧ (∀ a b c, a ≠ b → b ≠ c → a ≠ c →
        Lands t (.scarabOutputMinority t a b c) s (lastEvent (raise (wb d pg 0x80 10 true) pg 2) 0 4))
      ∧ (d.scarab.digDone < digestsDue d → let d0 := setScarab d fun x => { x with digDone := digestsDue d }
        (∀ a, Lands t (.digestCompare t a a a) s
          (setScarab (wr (wr (wr d0 pg 0xc8 a) pg 0xd0 a) pg 0xd8 a) fun x => { x with voted := a }))
        ∧ (∀ a b, a ≠ b → (∀ x, kvGet d.scarab.lastMin 2 = some x → x + secUnits ≤ locNow d) →
          Lands t (.digestCompare t a a b) s
            (minority (setScarab (wr (wr (wr d0 pg 0xc8 a) pg 0xd0 a) pg 0xd8 b) fun x => { x with voted := a }) 2 2)))
      ∧ (digestsDue d ≤ d.scarab.digDone → ∀ a b c, Lands t (.digestCompare t a b c) s d))
    ∧ (voting d = true → Lands t (.voterMismatch t) s (lastEvent (raise d pg 4) 0 6))
    ∧ (let ms := rf d pg 0x88 0 7
      let due := d.scarab.testAt + (if 1 ≤ ms ∧ ms ≤ 100 then ms else 100) * (secUnits / 1000)
      let at0 := setScarab d fun x => { x with testAt := locNow d }
      let run := fun e : Dev => digestStart (irq (cnt e pg 0xc0 1) pg 2) (d.now + 64)
      (locNow d < due → ∀ ok, Lands t (.voterSelftest t ok) s d)
      ∧ (voting d = true → resyncing d = false →
        (due ≤ locNow d → Lands t (.voterSelftest t true) s (run at0) ∧ Lands t (.voterSelftest t false) s (raise (run at0) pg 5))
        ∧ ∀ m, Accepts d m pg → Lands t (.scarabSelftestNow t m true) s (run d)
          ∧ Lands t (.scarabSelftestNow t m false) s (raise (run d) pg 5))
      ∧ (voting d = true → resyncing d = true → due ≤ locNow d → ∀ ok,
        Lands t (.voterSelftest t ok) s (setScarab at0 fun x => { x with testDue := some ok })))
    ∧ (∀ x, voting d = true → resyncing d = true → d.scarab.resyncAt = some x → d.scarab.testDue = none →
      (x + 2000 ≤ d.now → Lands t (.resyncDone t) s
        (setScarab (digestStart (irq (cnt (wb d pg 0x80 2 false) pg 0xb8 1) pg 1) (x + 1992))
          fun x => { x with resyncAt := none, resynced := true, testDue := none }))
      ∧ (d.now < x + 2000 → Lands t (.resyncDone t) s d))
    ∧ (∀ m, Accepts d m pg →
      (rb d pg 0x80 8 = true → Lands t (.scarabModeReq t m) s
        (setScarab (wf (wb d pg 0x80 2 false) pg 0x80 0 2 1) fun x => { x with resyncAt := none, testDue := none, resynced := false }))
      ∧ (rb d pg 0x80 8 = false → Lands t (.scarabModeReq t m) s d))
    ∧ (∀ c : Fin 3, domUp d 3 = true → lockBroken d = false →
      (trio d = false → Lands t (.kcoreinfoRead t c) s
        (setScarab (emit d (.csr (mkWord [(0, 0), (2, 0), (4, d.scarab.resynced.toNat)]))) fun x => { x with resynced := false }))
      ∧ (trio d = true → Lands t (.kcoreinfoRead t c) s
        (setScarab (emit d (.csr (mkWord [(0, 1), (2, c.val), (4, 0)]))) fun x => { x with resynced := false })))

/-! ### The Fault Concentrator (chapter 15) -/

/-- Fault events, FAULT_N and the self-test (R409 to R413, R423, R425, R430): the condition of a source sets its error bit; the chip reset
is asserted when the seal is signed or 5 ms have passed, and not before P3 or P4 is left; ASSERT drives FAULT_N low for its minimum, RELEASE lets it go after that; a
self-test that is due, every 100 ms of local time and at an exit (R431), counts a pass or reports its failure; FCN_SRC_s is written but where R412 forbids it. -/
def Obligations.FaultCommandsAct : Prop :=
  ∀ (s : State) (t : Instant), let d := devAt s.dev t
    let pg : Page := .fcn 0
    (∀ (src : Fin 512) p b, sourcePage src.val = some (p, b) → Lands t (.faultEvent t src) s (raise d p b))
    ∧ Lands t (.supplyOutOfWindow t .vddCore) s (raise d .pwr 0) ∧ Lands t (.supplyOutOfWindow t .vddSram) s (raise d .pwr 1)
    ∧ Lands t (.supplyOutOfWindow t .vddaHs) s (raise d .pwr 2) ∧ Lands t (.supplyOutOfWindow t .vdd18) s (raise d .pwr 3)
    ∧ Lands t (.supplyOutOfWindow t .vdd33) s (raise d .pwr 4) ∧ Lands t (.supplyOutOfWindow t .buoy08) s (raise d .pwr 5)
    ∧ Lands t (.tjThreshold t false) s (raise d .pwr 6) ∧ Lands t (.tjThreshold t true) s (raise d .pwr 7)
    ∧ (d.fcn.chipRst = none → Lands t (.chipResetAssert t) s d)
    ∧ (∀ x, d.fcn.chipRst = some x →
      (d.now < leftAt d x → Lands t (.chipResetAssert t) s d) ∧ (secIntact d = true → d.now < x + 5 * msTicks → d.man.signing ≠ none ∨ d.man.staging ≠ [] → Lands t (.chipResetAssert t) s d)
      ∧ (leftAt d x ≤ d.now → secIntact d = false ∨ x + 5 * msTicks ≤ d.now ∨ d.man.signing = none ∧ d.man.staging = [] →
        Lands t (.chipResetAssert t) s (chipReset d 2)))
    ∧ (∀ x, d.fcn.minUntil = some x →
      (d.now < x → Lands t (.faultnMinEnd t) s d)
      ∧ (x ≤ d.now → d.fcn.relPend = false → Lands t (.faultnMinEnd t) s (setFcn d fun f => { f with minUntil := none }))
      ∧ (x ≤ d.now → d.fcn.relPend = true → d.fcn.safe = false → Lands t (.faultnMinEnd t) s
        (setFcn d fun f => { f with minUntil := none, relPend := false, faultLow := false, held := false })))
    ∧ (∀ m v, Accepts d m pg →
      Lands t (.faultnAssert t m v) s (setFcn d fun f =>
        { f with faultLow := true, held := true, relPend := false, minUntil := some (d.now + 808 * 100) })
      ∧ (bit v 1 = false → fcnLocked d = true → d.fcn.held = true →
        (d.fcn.minUntil = none → Lands t (.faultnRelease t m v) s (setFcn d fun f => { f with faultLow := false, held := false }))
        ∧ (d.fcn.minUntil ≠ none → Lands t (.faultnRelease t m v) s (setFcn d fun f => { f with relPend := true })))
      ∧ (bit v 1 = false → fcnLocked d = false → Lands t (.faultnRelease t m v) s d))
    ∧ (pwrState d < 3 →
      let e := setFcn d fun f => { f with lastTest := locNow d, exitTest := false }
      let pass := wb (wf e pg 0xa8 32 32 ((rf e pg 0xa8 32 32 + 1) % 2 ^ 32)) pg 0x88 2 true
      let fail := raise (wb e pg 0x88 2 false) pg 2
      (d.fcn.exitTest = true ∨ d.fcn.lastTest + 100 * 65536000000 ≤ locNow d → Lands t (.fcnSelftest t true) s pass ∧ Lands t (.fcnSelftest t false) s fail)
      ∧ (d.fcn.exitTest = false → locNow d < d.fcn.lastTest + 100 * 65536000000 → ∀ ok, Lands t (.fcnSelftest t ok) s d)
      ∧ ∀ m, Accepts d m pg → Lands t (.fcnSelftestNow t m true) s pass ∧ Lands t (.fcnSelftestNow t m false) s fail)
    ∧ (∀ m (src : Fin 512) v, let p : Page := .fcn (if src.val < 256 then 1 else 2)
      let off := 0x800 + src.val % 256 * 8
      let old := rd d p off
      let scope := fld old 16 2
      Accepts d m p → locked d p = false → (sourcePage src.val).isSome = true →
      (bit old 15 = true ∨ 5 ≤ fld v 0 3 ∨ fld v 0 3 < fld old 12 3 ∨ bit v 6 = true ∧ scope = 0 ∨ bit v 7 = true ∧ scope ≠ 2
          ∨ bit v 8 = true ∧ fld v 0 3 < 3 → Lands t (.fcnSrcWrite t m src v) s (invalidValue d p))
      ∧ (bit old 15 = false → src.val ≠ 65 → fld v 0 3 ≤ 4 → fld old 12 3 ≤ fld v 0 3 → (bit v 6 = true → scope ≠ 0) →
        (bit v 7 = true → scope = 2) → (bit v 8 = true → 3 ≤ fld v 0 3) →
        Lands t (.fcnSrcWrite t m src v) s (writeFields d p off v)))

/-! ### Debug (chapter 16) -/

/-- Debug sessions and the TAP (R434 to R444): a challenge draws a nonce; a token that passes opens a session, another is rejected with its
code; an empty UNLOCK, CLOSE and the end of the session's time close it; a nonce and a lockout end 60 s after they began; DMI answers what
the session permits, nothing without one, and waits for the exit in P3 and P4 of LC_TEST; EXTEST and CLAMP drive the pins where an invasive
session has them in scope, and are BYPASS where not; in P5 the TAP is without effect. -/
def Obligations.DebugCommandsAct : Prop :=
  ∀ (s : State) (t : Instant), let d := devAt s.dev t
    let e := setDbg d fun x => { x with drive := 0 }
    let skip := emit e (.tdo [0])
    (∀ (ch : Fin 4), privileged d ch.val 2 = true → let o := opened d ch.val
      (Served d ch.val 0x30 [] →
        (∀ l e, challengeOp o = (some l, e) → Lands t (.dbgChallenge t ch) s (mboxReply e ch.val 0 l))
        ∧ (∀ e, challengeOp o = (none, e) → Lands t (.dbgChallenge t ch) s (mboxReply e ch.val 6 [])))
      ∧ (Served d ch.val 0x31 [] → Lands t (.dbgUnlock t ch) s (mboxReply (sessionClose o 1) ch.val 0 []))
      ∧ (∀ p, Served d ch.val 0x31 p → p.length = 256 →
        (tokenResult o p = 0 → Lands t (.dbgUnlock t ch) s (mboxReply (sessionOpen o p ch.val) ch.val 0 []))
        ∧ (tokenResult o p ≠ 0 → Lands t (.dbgUnlock t ch) s
          (mboxReply (tokenReject o p ch.val (tokenResult o p)) ch.val (0x100 + tokenResult o p) []))))
    ∧ (∀ m, Accepts d m .dbg → let w := rewritten d .dbg 0x90
      (dbgLevel d = 0 → Lands t (.dbgCtrlClose t m) s w)
      ∧ (dbgLevel d ≠ 0 →
        let c := wf (wf (irq (sessionRecord w 1 2 1 0xFF) .dbg 0) .dbg 0x80 0 2 0) .dbg 0x80 2 3 0
        Lands t (.dbgCtrlClose t m) s (setDbg c fun x => { x with halted := [], drive := 0 })))
    ∧ (dbgLevel d ≠ 0 → d.dbg.maxS ≠ 0 → domUp d 2 = true →
      ((rd d .dbg 0x88).toNat ≤ locSec d → Lands t (.dbgSessionExpiry t) s (sessionClose d 2))
      ∧ (locSec d < (rd d .dbg 0x88).toNat → Lands t (.dbgSessionExpiry t) s d))
    ∧ (d.dbg.nonceAt + 60 * secUnits ≤ locNow d → Lands t (.dbgNonceExpiry t) s (setDbg d fun x => { x with nonce := none }))
    ∧ (locNow d < d.dbg.nonceAt + 60 * secUnits → Lands t (.dbgNonceExpiry t) s d)
    ∧ (∀ x, d.dbg.lockAt = some x →
      (x + 60 * secUnits ≤ locNow d → Lands t (.dbgLockoutEnd t) s (setDbg (wb d .dbg 0x80 9 false) fun x => { x with lockAt := none }))
      ∧ (locNow d < x + 60 * secUnits → Lands t (.dbgLockoutEnd t) s d))
    ∧ (tapOff d = true → Lands t (.bypass t) s d ∧ Lands t (.idcode t) s d ∧ Lands t (.clamp t) s d ∧ Lands t (.dbgChal t) s d
      ∧ Lands t (.dbgClose t) s d ∧ (∀ b, Lands t (.extest t b) s d ∧ Lands t (.samplePreload t b) s d)
      ∧ (∀ o, Lands t (.dbgToken t o) s d) ∧ ∀ r, Lands t (.dmi t r) s d)
    ∧ (tapOff d = false →
    Lands t (.bypass t) s skip
    ∧ Lands t (.idcode t) s (emit e (.tdo (leBytes 4 (octetAt (Config.fused 4) 0 % 16 * 2 ^ 28 + 0x2540 * 2 ^ 12 + 0x5B1 * 2 + 1))))
    ∧ (mayDrive d = true →
      (∀ b, Lands t (.extest t b) s (bsrOut (setDbg d fun x => { x with drive := 1, bsr := b }) b))
      ∧ Lands t (.clamp t) s (emit (setDbg d fun x => { x with drive := 2 }) (.tdo [0])))
    ∧ (mayDrive d = false → (∀ b, Lands t (.extest t b) s skip) ∧ Lands t (.clamp t) s skip)
    ∧ (scrap d = true → (∀ r, Lands t (.dmi t r) s skip) ∧ (∀ b, Lands t (.samplePreload t b) s skip) ∧ Lands t (.dbgChal t) s skip
      ∧ (∀ o, Lands t (.dbgToken t o) s skip) ∧ Lands t (.dbgClose t) s skip)
    ∧ (scrap d = false →
      (∀ b, Lands t (.samplePreload t b) s (bsrOut (setDbg d fun x => { x with drive := 0, bsr := b }) b))
      ∧ (tapAsleep d = true → (∀ o, Lands t (.dbgToken t o) s (emit e (.tdo [0xFE]))) ∧ Lands t (.dbgClose t) s skip)
      ∧ (tapAsleep d = false →
        Lands t (.dbgClose t) s (emit (setDbg (sessionClose d 1) fun x => { x with drive := 0 }) (.tdo [0]))
        ∧ (firmwareRuns d = true →
          Lands t (.dbgChal t) s (tapChallenge e)
          ∧ ∀ o, let r := tokenResult e (fitLen 256 o)
            (r = 0 → Lands t (.dbgToken t o) s (emit (sessionOpen e (fitLen 256 o) 4) (.tdo (leBytes 1 0))))
            ∧ (r ≠ 0 → Lands t (.dbgToken t o) s (emit (tokenReject e (fitLen 256 o) 4 r) (.tdo (leBytes 1 r)))))
        ∧ (dbgLevel d = 0 → ∀ r, Lands t (.dmi t r) s (emit e (.tdo [])))
        ∧ (dbgLevel d ≠ 0 →
          (∀ a, Lands t (.dmi t (.readReg a)) s (emit (readOp s.mem e .debug a 3).2 (.tdo (wordBytes (readOp s.mem e .debug a 3).1))))
          ∧ (∀ c, Lands t (.dmi t (.readCore c)) s (emit (freeNat e).2 (.tdo (leBytes 8 (freeNat e).1))))
          ∧ Lands t (.dmi t .trace) s (emit (freeNat e).2 (.tdo (leBytes 8 (freeNat e).1))))
        ∧ (dbgLevel d = 2 → (∀ a v, Lands t (.dmi t (.writeReg a v)) s (busWrite s.mem e .debug a 3 v))
          ∧ ∀ c, (mayInvade e c.val = true → Lands t (.dmi t (.invasive c)) s (invasiveOp e c.val))
            ∧ (mayInvade e c.val = false → Lands t (.dmi t (.invasive c)) s (emit e (.tdo [])))))
      ∧ (dmiWakes d = true → ∀ r, Lands t (.dmi t r) s (dmiWait e (some r)))))

/-! ### The redundant pair (chapter 17) -/

/-- The claim bus, heartbeats, digests, self-tests and the yield (R449 to R468): a unit with a number drives the start bit and arbitrates
over the sampled bits, its win or loss showing in HOLDING with a record where that changes; a kick is remembered, and with it a heartbeat
is sent every 20 µs; a heartbeat that does not authenticate or is replayed is counted, another is accepted; the third period without one
reports the path; a digest closes; banks rotate; the offline test stops and starts the quays; status and yield answer. -/
def Obligations.PairCommandsAct : Prop :=
  ∀ (s : State) (t : Instant), let d := devAt s.dev t
    let pg : Page := .pair 0
    (d.pair.strapEn = true → (∀ x, d.pair.roundAt = some x → x + 12 * claimBit ≤ d.now + 10) → let n := claimNumber d
      let e := setPair d fun p => { p with round := some d.now, roundAt := some d.now, number := n }
      (n = 0 → Lands t (.claimRoundStart t) s e) ∧ (n ≠ 0 → Lands t (.claimRoundStart t) s (emit e (.claim [true]))))
    ∧ (d.pair.strapEn = false → Lands t (.claimRoundStart t) s d)
    ∧ (∀ x, d.pair.roundAt = some x → d.now + 10 < x + 12 * claimBit → Lands t (.claimRoundStart t) s d)
    ∧ (∀ bus x, bus.length = 8 → d.pair.round = some x → d.now < x + 9 * claimBit → Lands t (.claimRoundEnd t bus) s d)
    ∧ (∀ bus drove lost x, bus.length = 8 → d.pair.strapEn = true → d.pair.round = some x → x + 9 * claimBit ≤ d.now →
      d.pair.yield = none → rf d (.pair 1) 0x80 0 2 = 0 →
      let n := if claimNumber d = 0 then 0 else d.pair.number
      arbitrate n bus 8 false false = (drove, lost, false) →
      let e := setPair (if n = 0 then d else emit d (.claim drove)) fun p => { p with round := none }
      let win := n != 0 && !lost
      let f := cnt (wb e pg 0xc0 0 win) pg 0x100 1
      (win = holding d → Lands t (.claimRoundEnd t bus) s (setPair f fun p => { p with views := 0 }))
      ∧ (win = true → holding d = false →
        let g := if d.pair.takeover then cnt f pg 0x120 1 else f
        Lands t (.claimRoundEnd t bus) s (setPair (pairRecord (irq g pg 0) 1 0) fun p => { p with views := 0 }))
      ∧ (win = false → holding d = true →
        Lands t (.claimRoundEnd t bus) s (setPair (gatesClose (pairRecord (irq f pg 0) 2 0)) fun p => { p with views := 0 })))
    ∧ (∀ m, Accepts d m pg → Lands t (.pairKick t m) s (setPair d fun p => { p with kickAt := some d.now }))
    ∧ (pairOn d = true → domUp d 2 = true → d.pwr.entry = none → d.fcn.safe = false →
      (∀ x, d.pair.sentAt = some x → d.now < x + hbTicks → Lands t (.heartbeatSend t) s d)
      ∧ ((∀ x, d.pair.sentAt = some x → x + hbTicks ≤ d.now) → let e := setPair d fun p => { p with sentAt := some d.now }
        ((∀ x, d.pair.kickAt = some x → x + hbTicks < d.now) → Lands t (.heartbeatSend t) s e)
        ∧ (∀ x key f, d.pair.kickAt = some x → d.now ≤ x + hbTicks → pairKey e 2 = (some key, f) →
          let l := hbPayload f (f.pair.seq + 1)
          let l1 := l ++ gmac key (hbIv l) l
          Lands t (.heartbeatSend t) s (hbFrame (emit (setPair f fun p => { p with seq := f.pair.seq + 1 }) (.heartbeat 0 l1)) l1))))
    ∧ (pairOn d = true → domUp d 2 = true → ∀ (path : Fin 2) l,
      (l.length ≠ 64 → Lands t (.heartbeatReceived t path l) s (cnt d pg 0x108 1))
      ∧ (l.length = 64 → ∀ e, pairKey d 3 = (none, e) → Lands t (.heartbeatReceived t path l) s (cnt e pg 0x108 1))
      ∧ (l.length = 64 → ∀ key e, pairKey d 3 = (some key, e) →
        (gmac key (hbIv l) (l.take 48) ≠ l.drop 48 → Lands t (.heartbeatReceived t path l) s (cnt e pg 0x108 1))
        ∧ (∀ x, gmac key (hbIv l) (l.take 48) = l.drop 48 → e.pair.partner = some (leNat (slice l 8 4)) → kvGet e.pair.seqs path.val = some x →
          (leNat (slice l 12 4) ≤ x → Lands t (.heartbeatReceived t path l) s (cnt e pg 0x108 1))
          ∧ (x < leNat (slice l 12 4) → d.pair.lost = false → octetAt l 1 ≠ d.pair.unit.toNat →
            (e.pair.seqs.map (·.2)).foldl max 0 < leNat (slice l 12 4) →
            let f := setPair e fun p => { p with seqs := kvPut p.seqs path.val (leNat (slice l 12 4)), seen := kvPut p.seen path.val d.now,
                                                 miss := kvPut p.miss path.val 0, hb := l, takeover := false, lost := false }
            Lands t (.heartbeatReceived t path l) s (digestCompareOp (splitCheck (wr f pg 0xd0 (bytesWord l))))))))
    ∧ (∀ (path : Fin 2) x, pairOn d = true → kvGet d.pair.seen path.val = some x → let n := (d.now - x) / hbTicks
      let e := setPair d fun p => { p with miss := kvPut p.miss path.val n }
      (n < 3 ∨ 3 ≤ kvD d.pair.miss path.val 0 → Lands t (.heartbeatMiss t path) s e)
      ∧ (3 ≤ n → kvD d.pair.miss path.val 0 < 3 → missCount d (1 - path.val) < 3 → Lands t (.heartbeatMiss t path) s (raise e pg 1)))
    ∧ (let ms := (timeOf d (fld (rd d pg 0xb8) 32 3) / 65536 - 100000) / 1000000
      (ms = 0 ∨ (∃ x, d.pair.digest = some (ms - 1, x)) → ∀ ok, Lands t (.digestIntervalClose t ok) s d)
      ∧ (bit (rd d pg 0xb8) 35 = true → pairOn d = true → ms ≠ 0 → (∀ k x, d.pair.digest = some (k, x) → k + 1 ≠ ms) →
      let e := setPair d fun p => { p with digest := some (ms - 1, kvD p.digests (ms - 1) 0),
                                           digests := p.digests.filter fun x => decide (ms - 1 < x.1) }
      Lands t (.digestIntervalClose t true) s (digestCompareOp e)
      ∧ Lands t (.digestIntervalClose t false) s (cnt (setPair e fun p => { p with cmpMs := some (ms - 1) }) pg 0x118 1)))
    ∧ (rotOn d = false → Lands t (.rotBankAdvance t) s (setPair d fun p => { p with rotWait := false, rotRun := false }))
    ∧ (rotOn d = true →
      let next := fun e : Dev => setPair e fun p =>
        { p with rotWait := true, rotRun := true, rotAt := d.now, bank := if p.rotRun then (p.bank + 1) % 32 else p.bank }
      (d.pair.rotRun = true → d.now < d.pair.rotAt + 5 * msTicks → Lands t (.rotBankAdvance t) s d)
      ∧ (d.pair.rotRun = false ∨ d.pair.rotAt + 5 * msTicks ≤ d.now →
        (d.pair.rotWait = false → Lands t (.rotBankAdvance t) s (next d))
        ∧ (d.pair.rotWait = true → Lands t (.rotBankAdvance t) s (next (raise d pg 7)))))
    ∧ (d.pair.rotWait = true →
      let done := fun e : Dev => setPair e fun p => { p with
        rotWait := false,
        rotPasses := if p.bank % 32 = 31 then (p.rotPasses + 1) % 256 else p.rotPasses,
        rotDone := p.rotDone || p.bank % 32 == 31 }
      Lands t (.rotBankTest t none) s (done d)
      ∧ (∀ c, ¬ c ∈ d.retired1 → Lands t (.rotBankTest t (some c)) s (done (raise { d with retired1 := d.retired1 ++ [c] } .chip 0))))
    ∧ (d.pair.rotWait = false → ∀ c, Lands t (.rotBankTest t c) s d)
    ∧ (∀ m, Accepts d m pg → holding d = false → d.pair.offline = false →
      let e := [0, 1, 2, 3].foldl (fun d n => pagesStop (quayForget (quayCut d n) n) (quayPages n)) d
      Lands t (.offlineTest t m) s (setPair e fun p => { p with offline := true }))
    ∧ (∀ m, Accepts d m pg → holding d = true → Lands t (.offlineTest t m) s d)
    ∧ (d.pair.offline = true → Lands t (.offlineTestEnd t) s
      ([0, 1, 2, 3].foldl (fun d n => pagesStart d (quayPages n)) (setPair d fun p => { p with offline := false })))
    ∧ (d.pair.offline = false → Lands t (.offlineTestEnd t) s d)
    ∧ (∀ ch : Fin 4, let o := opened d ch.val
      (Served d ch.val 0x50 [] → trngOk o = true → let r := draw o 32
        let body := wordBytes (pairStat o) ++ wordBytes (pairHealth o) ++ fitLen 48 o.pair.hb ++ r.1
        Lands t (.pairStatus t ch) s (mboxReply (setPair r.2 fun p => { p with nonce := some r.1, nonceAt := r.2.now }) ch.val 0 body))
      ∧ (∀ p, Served d ch.val 0x51 p → privileged d ch.val 4 = true → p.length = 256 → d.pair.yield = none →
        let e := setPair o fun q => { q with nonce := none }
        (yieldResult p o = 0 →
          let f := (List.range 24).foldl (fun d k => canQuiet (setCan d k { can d k with yielded := true }) k (can d k)) e
          Lands t (.pairYield t ch) s (setPair f fun q => { q with yield := some { ch := ch.val, at0 := f.now } }))
        ∧ (4 ≤ yieldResult p o → Lands t (.pairYield t ch) s (mboxReply e ch.val (0x100 + yieldResult p o) []))
        ∧ (1 ≤ yieldResult p o → yieldResult p o ≤ 3 →
          Lands t (.pairYield t ch) s (mboxReply o ch.val (0x100 + yieldResult p o) []))))
    ∧ (∀ y, d.pair.yield = some y →
      Lands t (.yieldClaimRelease t) s (setPair d fun p => { p with yield := some { y with released := true } }))
    ∧ (d.pair.nonceAt + 60000 * msTicks ≤ d.now → Lands t (.pairNonceExpiry t) s (setPair d fun p => { p with nonce := none }))
    ∧ (d.now < d.pair.nonceAt + 60000 * msTicks → Lands t (.pairNonceExpiry t) s d)

/-! ### Update, boot and reset (chapters 18 and 19) -/

/-- Update sessions (R484 to R489): OPEN takes the lock where the header passes and no image is pending, and else answers the first check
that fails; BLOCK writes a block of the holder's image, and ends the session where it does not read back; FINISH hashes it, ABORT releases the lock; ACTIVATE makes a valid image pending;
CONFIRM before its deadline makes the pending image that runs the active one; the lock ends after 5 s without a command. -/
def Obligations.UpdateCommandsAct : Prop :=
  ∀ (s : State) (t : Instant), let d := devAt s.dev t
    (∀ (ch : Fin 4) p, privileged d ch.val 1 = true → let o := opened d ch.val
      (Served d ch.val 0x20 p → p.length = 6048 → let hdr := fitLen 8192 p
        (∀ x, d.boot.session = some x → Lands t (.updOpen t ch) s
          (mboxReply (updRecord (cnt o .upd 0x108 1) 10 0xFF ch.val 1 hdr) ch.val (special 1) []))
        ∧ (d.boot.session = none → hdrCheck o hdr true false ≠ 0 → let r := hdrCheck o hdr true false
          Lands t (.updOpen t ch) s (mboxReply (updRecord o 10 0xFF ch.val r hdr) ch.val (special r) []))
        ∧ (d.boot.session = none → hdrCheck o hdr true false = 0 → d.boot.pending ≠ none →
          Lands t (.updOpen t ch) s (mboxReply (updRecord o 10 0xFF ch.val 7 hdr) ch.val (special 7) []))
        ∧ (d.boot.session = none → hdrCheck o hdr true false = 0 → d.boot.pending = none →
          let k := 1 - d.boot.active
          let e := setSlotSt (cnt o .upd 0x100 1) k 1
          let e1 := setBoot e fun b => { b with session := some { ch := ch.val, target := k, hdr := hdr, lastAt := e.now } }
          let e2 : Dev := { e1 with memOut := e1.memOut ++ [(slotBase k, hdr)] }
          Lands t (.updOpen t ch) s
            (mboxReply (irq (updRecord e2 1 k ch.val 0 hdr) .upd 0) ch.val 0 (leBytes 4 k ++ leBytes 4 (hdrBody hdr / 4096)))))
      ∧ (Served d ch.val 0x21 p → p.length = 4112 → d.boot.session = none →
        ∀ good, Lands t (.updBlock t ⟨ch, good⟩) s (mboxReply o ch.val (special 9) []))
      ∧ (∀ x, d.boot.session = some x → x.ch = ch.val →
        (Served d ch.val 0x21 p → p.length = 4112 → let off := leNat (p.take 4)
          (off % 4096 ≠ 0 ∨ hdrBody x.hdr ≤ off → ∀ good, Lands t (.updBlock t ⟨ch, good⟩) s (mboxReply o ch.val (special 10) []))
          ∧ (off % 4096 = 0 → off < hdrBody x.hdr → crc32 (p.drop 16) ≠ leNat (slice p 4 4) → ∀ good,
            Lands t (.updBlock t ⟨ch, good⟩) s (mboxReply o ch.val (special 11) []))
          ∧ (off % 4096 = 0 → off < hdrBody x.hdr → crc32 (p.drop 16) = leNat (slice p 4 4) → x.got.contains (off / 4096) = false →
            let e := setBoot o fun b => { b with session := some { x with got := x.got ++ [off / 4096], lastAt := o.now } }
            let e1 : Dev := { e with memOut := e.memOut ++ [(slotBase x.target + 8192 + off, p.drop 16)] }
            Lands t (.updBlock t ⟨ch, true⟩) s (mboxReply e1 ch.val 0 [])
            ∧ Lands t (.updBlock t ⟨ch, false⟩) s (mboxReply (raise (updRelease e1 0) .upd 2) ch.val (special 15) [])))
        ∧ (Served d ch.val 0x22 [] →
          (x.got.length < hdrBody x.hdr / 4096 → Lands t (.updFinish t ⟨ch, .clean⟩) s (mboxReply o ch.val (special 12) []))
          ∧ (hdrBody x.hdr / 4096 ≤ x.got.length → bodyOk s.mem x.target x.hdr = false → Lands t (.updFinish t ⟨ch, .clean⟩) s
            (mboxReply (updRecord (updRelease (cnt o .upd 0x120 1) 0) 3 x.target ch.val 13 x.hdr) ch.val (special 13) []))
          ∧ (hdrBody x.hdr / 4096 ≤ x.got.length → bodyOk s.mem x.target x.hdr = true → x.target ≠ 2 →
            Lands t (.updFinish t ⟨ch, .clean⟩) s (mboxReply (irq (updRecord (updRelease o 2) 2 x.target ch.val 0 x.hdr) .upd 1) ch.val 0 [])))
        ∧ (Served d ch.val 0x24 [] →
          Lands t (.updAbort t ch) s (mboxReply (updRecord (updRelease o 0) 4 x.target ch.val 0 x.hdr) ch.val 0 [])))
      ∧ (Served d ch.val 0x23 p → p.length = 2 →
        (1 < octetAt p 0 → Lands t (.updActivate t ⟨ch, .clean⟩) s (mboxReply o ch.val (special 14) []))
        ∧ (let r := activate s.mem o (octetAt p 0) ch.val
          (r.1 = 0 → octetAt p 1 = 1 → Lands t (.updActivate t ⟨ch, .clean⟩) s
            (mboxReply (setBoot r.2 fun b => { b with actAt := some r.2.now }) ch.val 0 []))
          ∧ (r.1 = 0 → octetAt p 1 ≠ 1 → Lands t (.updActivate t ⟨ch, .clean⟩) s (mboxReply r.2 ch.val 0 []))
          ∧ (r.1 ≠ 0 → Lands t (.updActivate t ⟨ch, .clean⟩) s (mboxReply r.2 ch.val (special r.1) [])))))
    ∧ (∀ m, Accepts d m .upd →
      (∀ p x, d.boot.pending = some p → d.boot.confirm = some x → d.now < x → let e := revoke d
        let e1 := if slotSt e d.boot.active = 3 then setSlotSt e d.boot.active 2 else e
        let e2 := setBoot (setSlotSt e1 p 3) fun b => { b with active := p, pending := none, attempts := 0, confirm := none, rollback := max b.rollback (imgRollback b.hdr) }
        Lands t (.updConfirm t m) s (updRecord e2 7 p 0xFF 0 e2.boot.hdr))
      ∧ (d.boot.pending = none ∨ d.boot.confirm = none → Lands t (.updConfirm t m) s d)
      ∧ (∀ x, d.boot.confirm = some x → x ≤ d.now → Lands t (.updConfirm t m) s d))
    ∧ (∀ x, d.boot.session = some x →
      (x.lastAt + 5000 * msTicks ≤ d.now →
        Lands t (.updLockTimeout t) s (updRecord (updRelease (cnt d .upd 0x110 1) 0) 5 x.target x.ch 0 x.hdr))
      ∧ (d.now < x.lastAt + 5000 * msTicks → Lands t (.updLockTimeout t) s d))

/-- Boot and resets (R200, R479 to R482, R489, R496 to R499): the deadlines of a pending image and of an activation reset the chip; the ROM
boots the chosen image, Chrysalis, or host load as the straps, the entropy source and the life cycle say; a power-up that has not ended
after 10 ms lets PWR_EN fall for 100 ms; a power-on reset samples the
straps and clears local time; RESET_N resets the chip, PERST_N the PCIe endpoint; a loss of supply loses the image and the core memories. -/
def Obligations.BootAndResetsAct : Prop :=
  ∀ (s : State) (t : Instant), let d := devAt s.dev t
    (halted d = false →
      (∀ x, d.boot.confirm = some x →
        (x ≤ d.now → Lands t (.confirmTimeout t) s (chipReset (setBoot d fun b => { b with late := true }) 3))
        ∧ (d.now < x → Lands t (.confirmTimeout t) s d))
      ∧ (∀ x, d.boot.actAt = some x →
        (x + 10 * msTicks ≤ d.now → Lands t (.activationReset t) s (chipReset d 4))
        ∧ (d.now < x + 10 * msTicks → Lands t (.activationReset t) s d))
      ∧ Lands t (.resetN t) s (chipReset (freeNat d).2 ((freeNat d).1 % 256)))
    ∧ (halted d = true → Lands t (.resetN t) s d)
    ∧ (let wipe : Dev → List Host.Cell → List Host.Cell := fun d1 m => if d.car.lcNext.isSome ∧ d1.car.lcNext.isNone then wipeSram m else m
      let goes := fun e : Dev => exec (.bootSelect ⟨t, .clean⟩) s = .next (landedM t s wipe e)
      (d.boot.due = false ∨ d.boot.outer = false → goes d)
      ∧ (d.boot.due = true → d.boot.outer = true → halted d = false → domUp d 2 = true →
        let r := rootDraw (lcApply (setScarab (digestStart d d.now) fun x => { x with testAt := locNow d }))
        let e := restoreWrapped (deriveDevice r.2)
        let trioOn := d.boot.trio && (lcOf e == 0 || lcOf e == 1 || lcOf e == 4)
        let e1 := wb (wf (wb e (.scarab 0) 0x80 9 d.boot.trio) (.scarab 0) 0x80 0 2 trioOn.toNat) (.scarab 0) 0x80 8 true
        e1.boot.late = false →
        (lcOf e = 5 → goes (scrapHalt e1))
        ∧ (lcOf e ≠ 5 → let f := setBoot e1 fun b => { b with boots := (b.boots + 1) % 2 ^ 32 }
          (r.1 = false → goes (chrysalisEnter f 3))
          ∧ (r.1 = true → d.boot.sel = 2 → goes (chrysalisEnter f 1))
          ∧ (r.1 = true → d.boot.sel = 1 → goes (setBoot (wf f .upd 0x80 10 2 1) fun b => { b with due := false }))
          ∧ (r.1 = true → d.boot.sel = 0 → goes (selectImage f s.mem .clean)))))
    ∧ (∀ x : Straps, d.fcn.safe = false →
      let e := powerOnResetOp d x
      exec (.powerOnReset t x) s = .next (landedM t s (fun _ m => wipeSram m) e)
      ∧ (d.car.vbatOk = true → e.time = {} ∧ e.fcn = {} ∧ e.boot.trio = x.scarabTrio ∧ e.boot.outer = true ∧ e.boot.due = true
        ∧ e.pair.strapEn = x.pairEn ∧ e.pair.unit = x.pairUnit ∧ e.boot.sel = if x.bootSel.val = 3 then 0 else x.bootSel.val))
    ∧ (d.fcn.safe = true → Lands t (.pciePerstN t) s d)
    ∧ (d.fcn.safe = false → LandsWith t (.pciePerstN t) s fun d' => d'.host.msixT = [] ∧ d'.host.pba = []
      ∧ ∀ i off, off < 0x1000 → off ≠ 0x60 → rd d' (.host i) off = rd resetDev (.host i) off)
    ∧ (d.boot.outer = true → Lands t (.powerUpTimeout t) s d)
    ∧ (d.boot.outer = false → d.now < d.pwr.enFrom + 10 * msTicks → Lands t (.powerUpTimeout t) s d)
    ∧ (d.boot.outer = false → d.pwr.enFrom + 10 * msTicks ≤ d.now → Lands t (.powerUpTimeout t) s
      (setPwr d fun x => { x with pwrEn := false, enFrom := d.now + 100 * msTicks, enAt := some (d.now + 100 * msTicks) }))
    ∧ (∀ aon vbatOk, let e := supplyLossOp d aon vbatOk
      exec (.supplyLoss t aon vbatOk) s = .next (landedM t s (fun _ m => wipeSram m) e)
      ∧ e.boot.image = none ∧ e.boot.confirm = none ∧ e.boot.session = none ∧ e.boot.due = true
      ∧ (vbatOk = false → e.car.root = none ∧ e.car.vbatOk = false))
end

