-- ==== Sys2Proof/Laws/Bits.lean ====
section
/-! SUPPORT. Laws of the fields of a word: a field read after it, or another field, was set. -/

namespace Sys2Proof.Machine

theorem getLsbD_maskOf (lo len i : Nat) (h : i < 64) :
    (maskOf lo len).getLsbD i = (decide (lo ≤ i) && decide (i < lo + len)) := by
  unfold maskOf
  rw [BitVec.getLsbD_shiftLeft, BitVec.getLsbD_ofNat, Nat.testBit_two_pow_sub_one]
  by_cases h1 : lo ≤ i <;> by_cases h2 : i < lo + len <;> simp [h, h1, h2] <;> omega

theorem getLsbD_mergeFld (v new : W64) (lo len i : Nat) (h : i < 64) :
    (mergeFld v new lo len).getLsbD i = if lo ≤ i ∧ i < lo + len then new.getLsbD i else v.getLsbD i := by
  unfold mergeFld
  rw [BitVec.getLsbD_or, BitVec.getLsbD_and, BitVec.getLsbD_and, BitVec.getLsbD_not, getLsbD_maskOf lo len i h]
  by_cases h1 : lo ≤ i <;> by_cases h2 : i < lo + len <;> simp [h, h1, h2]

/-- Two words whose bits agree on a field have the same field. -/
theorem fld_congr {v w : W64} {lo len : Nat} (h : ∀ i < len, v.getLsbD (lo + i) = w.getLsbD (lo + i)) : fld v lo len = fld w lo len := by
  unfold fld
  congr 1
  apply BitVec.eq_of_getLsbD_eq
  intro i hi
  simp [hi, h i hi]

theorem fld_mergeFld_other (v new : W64) {lo len lo' len' : Nat} (h : lo' + len' ≤ lo ∨ lo + len ≤ lo') :
    fld (mergeFld v new lo len) lo' len' = fld v lo' len' := by
  refine fld_congr fun i hi => ?_
  by_cases h64 : lo' + i < 64
  · rw [getLsbD_mergeFld _ _ _ _ _ h64, if_neg (by omega)]
  · simp [BitVec.getLsbD_of_ge _ _ (Nat.le_of_not_lt h64)]

theorem fld_mergeFld_same (v new : W64) (lo len : Nat) : fld (mergeFld v new lo len) lo len = fld new lo len := by
  refine fld_congr fun i hi => ?_
  by_cases h64 : lo + i < 64
  · rw [getLsbD_mergeFld _ _ _ _ _ h64, if_pos (by omega)]
  · simp [BitVec.getLsbD_of_ge _ _ (Nat.le_of_not_lt h64)]

@[simp] theorem fld_setFld_same (v : W64) (lo len x : Nat) (h : lo + len ≤ 64) : fld (setFld v lo len x) lo len = x % 2 ^ len := by
  unfold setFld
  rw [fld_mergeFld_same]
  unfold fld
  apply Nat.eq_of_testBit_eq
  intro i
  rw [BitVec.testBit_toNat, BitVec.getLsbD_extractLsb', Nat.testBit_mod_two_pow]
  by_cases hi : i < len
  · rw [BitVec.getLsbD_shiftLeft, BitVec.getLsbD_ofNat]
    have h1 : lo + i < 64 := by omega
    have h2 : i < 64 := by omega
    simp [hi, h1, h2]
  · simp [hi]

theorem fld_setFld_other (v : W64) {lo len lo' len' : Nat} (x : Nat) (h : lo' + len' ≤ lo ∨ lo + len ≤ lo') :
    fld (setFld v lo len x) lo' len' = fld v lo' len' := fld_mergeFld_other v _ h

theorem bit_setFld_other (v : W64) {lo len i : Nat} (x : Nat) (h : i < lo ∨ lo + len ≤ i) : bit (setFld v lo len x) i = bit v i := by
  unfold bit setFld
  by_cases h64 : i < 64
  · rw [getLsbD_mergeFld _ _ _ _ _ h64, if_neg (by omega)]
  · simp [BitVec.getLsbD_of_ge _ _ (Nat.le_of_not_lt h64)]

@[simp] theorem bit_setBit_same (v : W64) (i : Nat) (b : Bool) (h : i < 64) : bit (setBit v i b) i = b := by
  unfold bit setBit setFld
  rw [getLsbD_mergeFld _ _ _ _ _ h, if_pos (by omega), BitVec.getLsbD_shiftLeft, BitVec.getLsbD_ofNat]
  cases b <;> simp [h]

theorem bit_setBit_other (v : W64) {i j : Nat} (b : Bool) (h : i ≠ j) : bit (setBit v i b) j = bit v j :=
  bit_setFld_other v _ (by omega)

end Sys2Proof.Machine
end

