-- ==== Sys2Proof/Laws/Stores.lean ====
section
/-! SUPPORT. Laws of lists by key, of stores and of the memories: a read after a write, and the canonical form that every operation
keeps. -/

namespace Sys2Proof.Machine

variable {α : Type}

/-! ### Lists by key -/

@[simp] theorem kvGet_nil (a : Nat) : kvGet ([] : List (Nat × α)) a = none := rfl

@[simp] theorem kvGet_kvPut_same (l : List (Nat × α)) (a : Nat) (v : α) : kvGet (kvPut l a v) a = some v := by
  induction l with
  | nil => simp [kvPut, kvGet]
  | cons e l ih =>
    obtain ⟨k, w⟩ := e
    simp only [kvPut]
    split
    · simp [kvGet]
    · split
      · simp [kvGet]
      · rename_i h; simp [kvGet, h, ih]

theorem kvGet_kvPut_other (l : List (Nat × α)) {a b : Nat} (v : α) (h : a ≠ b) : kvGet (kvPut l a v) b = kvGet l b := by
  induction l with
  | nil => simp [kvPut, kvGet, h]
  | cons e l ih =>
    obtain ⟨k, w⟩ := e
    simp only [kvPut]
    split
    · simp [kvGet, h]
    · split
      · rename_i hk; subst hk; simp [kvGet, h]
      · simp [kvGet, ih]

@[simp] theorem kvGet_kvDel_same (l : List (Nat × α)) (a : Nat) : kvGet (kvDel l a) a = none := by
  induction l with
  | nil => rfl
  | cons e l ih =>
    obtain ⟨k, w⟩ := e
    simp only [kvDel]
    split
    · exact ih
    · rename_i h; simp [kvGet, h, ih]

theorem kvGet_kvDel_other (l : List (Nat × α)) {a b : Nat} (h : a ≠ b) : kvGet (kvDel l a) b = kvGet l b := by
  induction l with
  | nil => rfl
  | cons e l ih =>
    obtain ⟨k, w⟩ := e
    simp only [kvDel]
    split
    · rename_i hk; subst hk; simp [kvGet, h, ih]
    · simp [kvGet, ih]

theorem mem_kvPut {l : List (Nat × α)} {a : Nat} {v : α} {e : Nat × α} (h : e ∈ kvPut l a v) : e = (a, v) ∨ e ∈ l := by
  induction l with
  | nil => simpa [kvPut] using h
  | cons x l ih =>
    obtain ⟨k, w⟩ := x
    simp only [kvPut] at h
    split at h
    · simpa using h
    · split at h
      · rcases List.mem_cons.mp h with h | h
        · exact .inl h
        · exact .inr (List.mem_cons_of_mem _ h)
      · rcases List.mem_cons.mp h with h | h
        · exact .inr (h ▸ List.mem_cons_self ..)
        · rcases ih h with h | h
          · exact .inl h
          · exact .inr (List.mem_cons_of_mem _ h)

theorem mem_kvDel {l : List (Nat × α)} {a : Nat} {e : Nat × α} (h : e ∈ kvDel l a) : e ∈ l := by
  induction l with
  | nil => exact h
  | cons x l ih =>
    obtain ⟨k, w⟩ := x
    simp only [kvDel] at h
    split at h
    · exact List.mem_cons_of_mem _ (ih h)
    · rcases List.mem_cons.mp h with h | h
      · exact h ▸ List.mem_cons_self ..
      · exact List.mem_cons_of_mem _ (ih h)

theorem kvSorted_kvPut {l : List (Nat × α)} (h : kvSorted l) (a : Nat) (v : α) : kvSorted (kvPut l a v) := by
  induction l with
  | nil => simp [kvPut]
  | cons x l ih =>
    obtain ⟨k, w⟩ := x
    have hl := (List.pairwise_cons.mp h).2
    have hx := (List.pairwise_cons.mp h).1
    simp only [kvPut]
    split
    · rename_i hk
      refine List.pairwise_cons.mpr ⟨?_, h⟩
      intro e he
      rcases List.mem_cons.mp he with he | he
      · subst he; exact hk
      · exact Nat.lt_trans hk (hx e he)
    · split
      · rename_i hk; subst hk
        exact List.pairwise_cons.mpr ⟨fun e he => hx e he, hl⟩
      · rename_i h1 h2
        refine List.pairwise_cons.mpr ⟨?_, ih hl⟩
        intro e he
        rcases mem_kvPut he with he | he
        · subst he; show k < a; omega
        · exact hx e he

theorem kvSorted_kvDel {l : List (Nat × α)} (h : kvSorted l) (a : Nat) : kvSorted (kvDel l a) := by
  induction l with
  | nil => exact h
  | cons x l ih =>
    obtain ⟨k, w⟩ := x
    have hl := (List.pairwise_cons.mp h).2
    have hx := (List.pairwise_cons.mp h).1
    simp only [kvDel]
    split
    · exact ih hl
    · exact List.pairwise_cons.mpr ⟨fun e he => hx e (mem_kvDel he), ih hl⟩

/-! ### Stores -/

variable [DecidableEq α] (dflt : Nat → α)

@[simp] theorem stGet_stPut_same (l : List (Nat × α)) (a : Nat) (v : α) : stGet dflt (stPut dflt l a v) a = v := by
  unfold stGet stPut
  split
  · rename_i h; simp [h]
  · simp

theorem stGet_stPut_other (l : List (Nat × α)) {a b : Nat} (v : α) (h : a ≠ b) :
    stGet dflt (stPut dflt l a v) b = stGet dflt l b := by
  unfold stGet stPut
  split
  · rw [kvGet_kvDel_other l h]
  · rw [kvGet_kvPut_other l v h]

theorem stWf_stPut {l : List (Nat × α)} (h : stWf dflt l) (a : Nat) (v : α) : stWf dflt (stPut dflt l a v) := by
  unfold stPut
  split
  · exact ⟨kvSorted_kvDel h.1 a, fun e he => h.2 e (mem_kvDel he)⟩
  · rename_i hv
    refine ⟨kvSorted_kvPut h.1 a v, fun e he => ?_⟩
    rcases mem_kvPut he with he | he
    · subst he; exact hv
    · exact h.2 e he

omit [DecidableEq α] in
theorem stWf_filter {l : List (Nat × α)} (h : stWf dflt l) (p : Nat × α → Bool) : stWf dflt (l.filter p) :=
  ⟨h.1.filter p, fun e he => h.2 e (List.mem_filter.mp he).1⟩

/-! ### The memories -/

@[simp] theorem memByte_memPut_same (m : List Host.Cell) (a : Nat) (b : Byte) : memByte (memPut m a b) a = b :=
  stGet_stPut_same memDefault m a b

theorem memByte_memPut_other (m : List Host.Cell) {a c : Nat} (b : Byte) (h : a ≠ c) : memByte (memPut m a b) c = memByte m c :=
  stGet_stPut_other memDefault m b h

theorem memWf_memPut {m : List Host.Cell} (h : Memory.wf m) (a : Nat) (b : Byte) : Memory.wf (memPut m a b) :=
  stWf_stPut memDefault h a b

theorem memWf_memWrite (l : List Byte) : ∀ {m : List Host.Cell} (_ : Memory.wf m) (a : Nat), Memory.wf (memWrite m a l) := by
  induction l with
  | nil => intro m h a; exact h
  | cons b l ih => intro m h a; exact ih (memWf_memPut h a b) (a + 1)

theorem memWf_memWrites (ws : List (Nat × List Byte)) : ∀ {m : List Host.Cell} (_ : Memory.wf m), Memory.wf (memWrites m ws) := by
  induction ws with
  | nil => intro m h; exact h
  | cons w ws ih => intro m h; exact ih (memWf_memWrite w.2 h w.1)

/-- A write of octets leaves every byte outside them as it was. -/
theorem memByte_memWrite_outside (l : List Byte) : ∀ (m : List Host.Cell) (a c : Nat) (_ : c < a ∨ a + l.length ≤ c),
    memByte (memWrite m a l) c = memByte m c := by
  induction l with
  | nil => intro m a c _; rfl
  | cons b l ih =>
    intro m a c h
    simp only [List.length_cons] at h
    rw [memWrite, ih (memPut m a b) (a + 1) c (by omega), memByte_memPut_other m b (by omega)]

end Sys2Proof.Machine
end

