-- ==== Sys2Proof/Laws/Commands.lean ====
section
/-! SUPPORT. What the ways to run a command answer, once for all commands, and what they do to the queue and the memories. -/

namespace Sys2Proof.Machine

@[simp] theorem landedM_pending (t : Instant) (s : State) (w : Dev → List Host.Cell → List Host.Cell) (d : Dev) :
    (landedM t s w d).pending = s.pending := by unfold landedM; rfl

@[simp] theorem landed_pending (t : Instant) (s : State) (d : Dev) : (landed t s d).pending = s.pending := by unfold landed; exact landedM_pending ..

theorem landed_mem (t : Instant) (s : State) (d : Dev) :
    (landed t s d).mem = memWrites s.mem (settle (devAt s.dev t).buoy.cl s.mem d).memOut := by
  unfold landed landedM
  generalize settle (devAt s.dev t).buoy.cl s.mem d = d1
  rfl

/-- A command that can always arrive completes. -/
theorem cmd_lands (t : Instant) (f : List Host.Cell → Dev → Dev) (s : State) :
    cmd t f s = .next (landed t s (f s.mem (devAt s.dev t))) := rfl

/-- A command whose operands can arrive completes. -/
theorem cmdIf_lands {ok : Bool} (h : ok = true) (t : Instant) (f : List Host.Cell → Dev → Dev) (s : State) :
    cmdIf ok t f s = .next (landed t s (f s.mem (devAt s.dev t))) := by
  subst h; rfl

/-- A command whose operands spell nothing that can arrive: only time passes. -/
theorem cmdIf_passes {ok : Bool} (h : ok = false) (t : Instant) (f : List Host.Cell → Dev → Dev) (s : State) :
    cmdIf ok t f s = .next (landed t s (devAt s.dev t)) := by
  subst h; rfl

/-- A command with an effect of its own on the memories completes. -/
theorem cmdM_lands (t : Instant) (f : List Host.Cell → Dev → Dev) (w : Dev → Dev → List Host.Cell → List Host.Cell) (s : State) :
    cmdM t f w s = .next (landedM t s (w (devAt s.dev t)) (f s.mem (devAt s.dev t))) := rfl

/-- A command keeps the canonical form of the memories where its own effect on them does. -/
theorem memWf_landedM (t : Instant) {s : State} (h : Memory.wf s.mem) (w : Dev → List Host.Cell → List Host.Cell)
    (hw : ∀ d m, Memory.wf m → Memory.wf (w d m)) (d : Dev) : Memory.wf (landedM t s w d).mem := by
  unfold landedM
  generalize settle (devAt s.dev t).buoy.cl s.mem d = d1
  exact memWf_memWrites d1.memOut (hw d1 s.mem h)

theorem memWf_landed (t : Instant) {s : State} (h : Memory.wf s.mem) (d : Dev) : Memory.wf (landed t s d).mem := by
  unfold landed
  exact memWf_landedM t h _ (fun _ _ h => h) d

/-- The core memories lost: what is left has the canonical form. -/
theorem memWf_wipeSram {m : List Host.Cell} (h : Memory.wf m) : Memory.wf (wipeSram m) := stWf_filter memDefault h _

/-- What a command that can arrive does, whichever it is: it completes, keeps the queue, and its own effect on the memories, where it has
one, keeps their canonical form. -/
theorem exec_lands (i : Instr) (s : State) (h : WellFormed i) :
    ∃ t w d, exec i s = .next (landedM t s w d) ∧ ∀ d m, Memory.wf m → Memory.wf (w d m) := by
  have keep : ∀ (d : Dev) (m : List Host.Cell), Memory.wf m → Memory.wf ((fun (_ : Dev) m => m) d m) := fun _ _ h => h
  cases i with
  | registerWrite => exact ⟨_, _, _, cmdIf_lands h _ _ _, keep⟩
  | tableWindowWrite => exact ⟨_, _, _, cmdIf_lands h _ _ _, keep⟩
  | errForce => exact ⟨_, _, _, cmdIf_lands h _ _ _, keep⟩
  | irqForce => exact ⟨_, _, _, cmdIf_lands h _ _ _, keep⟩
  | pageLock => exact ⟨_, _, _, cmdIf_lands h _ _ _, keep⟩
  | blockEnable => exact ⟨_, _, _, cmdIf_lands h _ _ _, keep⟩
  | blockDisable => exact ⟨_, _, _, cmdIf_lands h _ _ _, keep⟩
  | blockQuiesced => exact ⟨_, _, _, cmdIf_lands h _ _ _, keep⟩
  | blockSoftReset => exact ⟨_, _, _, cmdIf_lands h _ _ _, keep⟩
  | softResetEnd => exact ⟨_, _, _, cmdIf_lands h _ _ _, keep⟩
  | resetTimeout => exact ⟨_, _, _, cmdIf_lands h _ _ _, keep⟩
  | freeze => exact ⟨_, _, _, cmdIf_lands h _ _ _, keep⟩
  | commitImmediate => exact ⟨_, _, _, cmdIf_lands h _ _ _, keep⟩
  | tideJoin => exact ⟨_, _, _, cmdIf_lands h _ _ _, keep⟩
  | commitSwitch => exact ⟨_, _, _, cmdIf_lands h _ _ _, keep⟩
  | mirrorRefillEnd => exact ⟨_, _, _, cmdIf_lands h _ _ _, keep⟩
  | signaturePass => exact ⟨_, _, _, cmdIf_lands h _ _ _, keep⟩
  | tideTimeWrite => exact ⟨_, _, _, cmd_lands _ _ _, keep⟩
  | tideArm => exact ⟨_, _, _, cmd_lands _ _ _, keep⟩
  | tideCancel => exact ⟨_, _, _, cmd_lands _ _ _, keep⟩
  | tideFire => exact ⟨_, _, _, cmd_lands _ _ _, keep⟩
  | scrubAccess => exact ⟨_, _, _, cmd_lands _ _ _, keep⟩
  | freeCellTest => exact ⟨_, _, _, cmd_lands _ _ _, keep⟩
  | quayReset => exact ⟨_, _, _, cmd_lands _ _ _, keep⟩
  | quayDrainEnd => exact ⟨_, _, _, cmd_lands _ _ _, keep⟩
  | clockMonitorWindow => exact ⟨_, _, _, cmd_lands _ _ _, keep⟩
  | clkBuoyMonitor => exact ⟨_, _, _, cmd_lands _ _ _, keep⟩
  | headerWindowComplete => exact ⟨_, _, _, cmdIf_lands h _ _ _, keep⟩
  | pipelineEntry => exact ⟨_, _, _, cmd_lands _ _ _, keep⟩
  | frameTail => exact ⟨_, _, _, cmd_lands _ _ _, keep⟩
  | pauseReceived => exact ⟨_, _, _, cmd_lands _ _ _, keep⟩
  | linkLoss => exact ⟨_, _, _, cmd_lands _ _ _, keep⟩
  | linkUp => exact ⟨_, _, _, cmdIf_lands h _ _ _, keep⟩
  | phyWarmSave => exact ⟨_, _, _, cmd_lands _ _ _, keep⟩
  | phyWarmFlush => exact ⟨_, _, _, cmd_lands _ _ _, keep⟩
  | warmFbPartner => exact ⟨_, _, _, cmd_lands _ _ _, keep⟩
  | fingerprintCheck => exact ⟨_, _, _, cmd_lands _ _ _, keep⟩
  | warmTimeout => exact ⟨_, _, _, cmd_lands _ _ _, keep⟩
  | blockLockTimeout => exact ⟨_, _, _, cmd_lands _ _ _, keep⟩
  | plcaBeacon => exact ⟨_, _, _, cmd_lands _ _ _, keep⟩
  | plcaBeaconLoss => exact ⟨_, _, _, cmd_lands _ _ _, keep⟩
  | plcaCollision => exact ⟨_, _, _, cmd_lands _ _ _, keep⟩
  | noiseEvent => exact ⟨_, _, _, cmd_lands _ _ _, keep⟩
  | jabberRx => exact ⟨_, _, _, cmd_lands _ _ _, keep⟩
  | jabberTx => exact ⟨_, _, _, cmd_lands _ _ _, keep⟩
  | lpiEntry => exact ⟨_, _, _, cmd_lands _ _ _, keep⟩
  | lpiWake => exact ⟨_, _, _, cmd_lands _ _ _, keep⟩
  | lpiGateWake => exact ⟨_, _, _, cmd_lands _ _ _, keep⟩
  | tc10SleepReq => exact ⟨_, _, _, cmd_lands _ _ _, keep⟩
  | tc10SleepAck => exact ⟨_, _, _, cmd_lands _ _ _, keep⟩
  | tc10SleepReject => exact ⟨_, _, _, cmd_lands _ _ _, keep⟩
  | tc10SleepTimeout => exact ⟨_, _, _, cmd_lands _ _ _, keep⟩
  | tc10PartnerSleepRequest => exact ⟨_, _, _, cmd_lands _ _ _, keep⟩
  | tc10Wur => exact ⟨_, _, _, cmd_lands _ _ _, keep⟩
  | phyDiagStart => exact ⟨_, _, _, cmd_lands _ _ _, keep⟩
  | diagDone => exact ⟨_, _, _, cmd_lands _ _ _, keep⟩
  | sqiUpdate => exact ⟨_, _, _, cmd_lands _ _ _, keep⟩
  | mergeVerify => exact ⟨_, _, _, cmd_lands _ _ _, keep⟩
  | agingSweep => exact ⟨_, _, _, cmd_lands _ _ _, keep⟩
  | sfBlockedClear => exact ⟨_, _, _, cmd_lands _ _ _, keep⟩
  | frerReset => exact ⟨_, _, _, cmd_lands _ _ _, keep⟩
  | flowSweep => exact ⟨_, _, _, cmd_lands _ _ _, keep⟩
  | flowDelete => exact ⟨_, _, _, cmd_lands _ _ _, keep⟩
  | flowFlushAll => exact ⟨_, _, _, cmd_lands _ _ _, keep⟩
  | flowFlushZone => exact ⟨_, _, _, cmd_lands _ _ _, keep⟩
  | flowFlushRule => exact ⟨_, _, _, cmd_lands _ _ _, keep⟩
  | flowFlushEnd => exact ⟨_, _, _, cmd_lands _ _ _, keep⟩
  | diagToken => exact ⟨_, _, _, cmd_lands _ _ _, keep⟩
  | diagClose => exact ⟨_, _, _, cmd_lands _ _ _, keep⟩
  | bwtDiagClose => exact ⟨_, _, _, cmd_lands _ _ _, keep⟩
  | diagSessionExpiry => exact ⟨_, _, _, cmd_lands _ _ _, keep⟩
  | portSelection => exact ⟨_, _, _, cmd_lands _ _ _, keep⟩
  | transmitEnd => exact ⟨_, _, _, cmd_lands _ _ _, keep⟩
  | gateEvent => exact ⟨_, _, _, cmd_lands _ _ _, keep⟩
  | gclConfigChange => exact ⟨_, _, _, cmd_lands _ _ _, keep⟩
  | shaperSlotRelease => exact ⟨_, _, _, cmd_lands _ _ _, keep⟩
  | coarseSlotMove => exact ⟨_, _, _, cmd_lands _ _ _, keep⟩
  | shaperBucketEval => exact ⟨_, _, _, cmd_lands _ _ _, keep⟩
  | samplingPass => exact ⟨_, _, _, cmd_lands _ _ _, keep⟩
  | apertureDrainRead => exact ⟨_, _, _, cmdIf_lands h _ _ _, keep⟩
  | rateWrite => exact ⟨_, _, _, cmd_lands _ _ _, keep⟩
  | domainEnable => exact ⟨_, _, _, cmd_lands _ _ _, keep⟩
  | domainDisable => exact ⟨_, _, _, cmd_lands _ _ _, keep⟩
  | syncSet => exact ⟨_, _, _, cmd_lands _ _ _, keep⟩
  | stepAbs => exact ⟨_, _, _, cmd_lands _ _ _, keep⟩
  | stepRel => exact ⟨_, _, _, cmd_lands _ _ _, keep⟩
  | timeStepApply => exact ⟨_, _, _, cmd_lands _ _ _, keep⟩
  | syncWatchdog => exact ⟨_, _, _, cmd_lands _ _ _, keep⟩
  | timeSnap => exact ⟨_, _, _, cmd_lands _ _ _, keep⟩
  | ctrMismatch => exact ⟨_, _, _, cmd_lands _ _ _, keep⟩
  | toutArm => exact ⟨_, _, _, cmd_lands _ _ _, keep⟩
  | toutStop => exact ⟨_, _, _, cmd_lands _ _ _, keep⟩
  | toutEdge => exact ⟨_, _, _, cmd_lands _ _ _, keep⟩
  | tcapEdge => exact ⟨_, _, _, cmd_lands _ _ _, keep⟩
  | canFrameReceived => exact ⟨_, _, _, cmdIf_lands h _ _ _, keep⟩
  | ferryStart => exact ⟨_, _, _, cmd_lands _ _ _, keep⟩
  | ferryVerdictReturn => exact ⟨_, _, _, cmd_lands _ _ _, keep⟩
  | aggWindowClose => exact ⟨_, _, _, cmd_lands _ _ _, keep⟩
  | carrierReceived => exact ⟨_, _, _, cmd_lands _ _ _, keep⟩
  | canLateError => exact ⟨_, _, _, cmd_lands _ _ _, keep⟩
  | canArbitrationLost => exact ⟨_, _, _, cmd_lands _ _ _, keep⟩
  | canTxComplete => exact ⟨_, _, _, cmd_lands _ _ _, keep⟩
  | canBusError => exact ⟨_, _, _, cmd_lands _ _ _, keep⟩
  | canTxAgeExpiry => exact ⟨_, _, _, cmd_lands _ _ _, keep⟩
  | canRecover => exact ⟨_, _, _, cmd_lands _ _ _, keep⟩
  | busOffRecovery => exact ⟨_, _, _, cmd_lands _ _ _, keep⟩
  | canProtocolException => exact ⟨_, _, _, cmd_lands _ _ _, keep⟩
  | busIntegrationEnd => exact ⟨_, _, _, cmd_lands _ _ _, keep⟩
  | canXcvrFault => exact ⟨_, _, _, cmd_lands _ _ _, keep⟩
  | linSlotStart => exact ⟨_, _, _, cmd_lands _ _ _, keep⟩
  | linHeaderReceived => exact ⟨_, _, _, cmd_lands _ _ _, keep⟩
  | linFrameReceived => exact ⟨_, _, _, cmdIf_lands h _ _ _, keep⟩
  | linNoResponse => exact ⟨_, _, _, cmd_lands _ _ _, keep⟩
  | linGotoSleep => exact ⟨_, _, _, cmd_lands _ _ _, keep⟩
  | linWake => exact ⟨_, _, _, cmd_lands _ _ _, keep⟩
  | linResume => exact ⟨_, _, _, cmd_lands _ _ _, keep⟩
  | linWakeRx => exact ⟨_, _, _, cmd_lands _ _ _, keep⟩
  | linBusStuck => exact ⟨_, _, _, cmd_lands _ _ _, keep⟩
  | ferryStall => exact ⟨_, _, _, cmd_lands _ _ _, keep⟩
  | xweTapProcess => exact ⟨_, _, _, cmd_lands _ _ _, keep⟩
  | xweTick => exact ⟨_, _, _, cmd_lands _ _ _, keep⟩
  | canWup => exact ⟨_, _, _, cmd_lands _ _ _, keep⟩
  | buoyFrameDecoded => exact ⟨_, _, _, cmdIf_lands h _ _ _, keep⟩
  | linWakePulse => exact ⟨_, _, _, cmd_lands _ _ _, keep⟩
  | phyWakeDetect => exact ⟨_, _, _, cmd_lands _ _ _, keep⟩
  | wakePinEvent => exact ⟨_, _, _, cmd_lands _ _ _, keep⟩
  | keepAlive => exact ⟨_, _, _, cmd_lands _ _ _, keep⟩
  | nmLocalWrite => exact ⟨_, _, _, cmd_lands _ _ _, keep⟩
  | nmTimeout => exact ⟨_, _, _, cmd_lands _ _ _, keep⟩
  | readySleepExpiry => exact ⟨_, _, _, cmd_lands _ _ _, keep⟩
  | falseWakeExpiry => exact ⟨_, _, _, cmd_lands _ _ _, keep⟩
  | sleepConditionsMet => exact ⟨_, _, _, cmd_lands _ _ _, keep⟩
  | modeChangeWindowEnd => exact ⟨_, _, _, cmd_lands _ _ _, keep⟩
  | keeperKick => exact ⟨_, _, _, cmd_lands _ _ _, keep⟩
  | keeperRelease => exact ⟨_, _, _, cmd_lands _ _ _, keep⟩
  | keeperPeriod => exact ⟨_, _, _, cmd_lands _ _ _, keep⟩
  | quayClockGate => exact ⟨_, _, _, cmd_lands _ _ _, keep⟩
  | quayPowerGate => exact ⟨_, _, _, cmd_lands _ _ _, keep⟩
  | quayRestore => exact ⟨_, _, _, cmd_lands _ _ _, keep⟩
  | quayRestoreDone => exact ⟨_, _, _, cmd_lands _ _ _, keep⟩
  | deepDelayExpiry => exact ⟨_, _, _, cmd_lands _ _ _, keep⟩
  | hostAccessWake => exact ⟨_, _, _, cmd_lands _ _ _, keep⟩
  | txDoorbell => exact ⟨_, _, _, cmdIf_lands h _ _ _, keep⟩
  | rxDoorbell => exact ⟨_, _, _, cmdIf_lands h _ _ _, keep⟩
  | pcieReadCompletion => exact ⟨_, _, _, cmdIf_lands h _ _ _, keep⟩
  | pcieCompletionTimeout => exact ⟨_, _, _, cmdIf_lands h _ _ _, keep⟩
  | coalesceTimeout => exact ⟨_, _, _, cmdIf_lands h _ _ _, keep⟩
  | hostQueueEnable => exact ⟨_, _, _, cmdIf_lands h _ _ _, keep⟩
  | pcieLinkChange => exact ⟨_, _, _, cmd_lands _ _ _, keep⟩
  | spiTransaction => exact ⟨_, _, _, cmd_lands _ _ _, keep⟩
  | inbandRequest => exact ⟨_, _, _, cmd_lands _ _ _, keep⟩
  | mboxReqWrite => exact ⟨_, _, _, cmd_lands _ _ _, keep⟩
  | mboxRing => exact ⟨_, _, _, cmd_lands _ _ _, keep⟩
  | mboxAck => exact ⟨_, _, _, cmd_lands _ _ _, keep⟩
  | version => exact ⟨_, _, _, cmd_lands _ _ _, keep⟩
  | keyWrite => exact ⟨_, _, _, cmd_lands _ _ _, keep⟩
  | keyGenerate => exact ⟨_, _, _, cmd_lands _ _ _, keep⟩
  | keyAttest => exact ⟨_, _, _, cmd_lands _ _ _, keep⟩
  | devAttest => exact ⟨_, _, _, cmd_lands _ _ _, keep⟩
  | updOpen => exact ⟨_, _, _, cmd_lands _ _ _, keep⟩
  | updBlock => exact ⟨_, _, _, cmd_lands _ _ _, keep⟩
  | updFinish => exact ⟨_, _, _, cmd_lands _ _ _, keep⟩
  | updActivate => exact ⟨_, _, _, cmd_lands _ _ _, keep⟩
  | updAbort => exact ⟨_, _, _, cmd_lands _ _ _, keep⟩
  | dbgChallenge => exact ⟨_, _, _, cmd_lands _ _ _, keep⟩
  | dbgUnlock => exact ⟨_, _, _, cmd_lands _ _ _, keep⟩
  | pairStatus => exact ⟨_, _, _, cmd_lands _ _ _, keep⟩
  | pairYield => exact ⟨_, _, _, cmd_lands _ _ _, keep⟩
  | manifestSeal => exact ⟨_, _, _, cmd_lands _ _ _, keep⟩
  | manifestRead => exact ⟨_, _, _, cmd_lands _ _ _, keep⟩
  | lcTransition => exact ⟨_, _, _, cmd_lands _ _ _, keep⟩
  | lcTransitionReset => exact ⟨_, _, _, cmd_lands _ _ _, keep⟩
  | lighterArm => exact ⟨_, _, _, cmd_lands _ _ _, keep⟩
  | lighterHandover => exact ⟨_, _, _, cmd_lands _ _ _, keep⟩
  | lighterBurst => exact ⟨_, _, _, cmd_lands _ _ _, keep⟩
  | lighterStop => exact ⟨_, _, _, cmd_lands _ _ _, keep⟩
  | lighterResume => exact ⟨_, _, _, cmd_lands _ _ _, keep⟩
  | lighterAbortNow => exact ⟨_, _, _, cmd_lands _ _ _, keep⟩
  | tamperDetect => exact ⟨_, _, _, cmd_lands _ _ _, keep⟩
  | carCmdWrite => exact ⟨_, _, _, cmd_lands _ _ _, keep⟩
  | carCmdGenerate => exact ⟨_, _, _, cmd_lands _ _ _, keep⟩
  | carCmdDestroy => exact ⟨_, _, _, cmd_lands _ _ _, keep⟩
  | carCmdWrapExport => exact ⟨_, _, _, cmd_lands _ _ _, keep⟩
  | carCmdUnwrapImport => exact ⟨_, _, _, cmd_lands _ _ _, keep⟩
  | carCmdDerive => exact ⟨_, _, _, cmd_lands _ _ _, keep⟩
  | carCmdDone => exact ⟨_, _, _, cmd_lands _ _ _, keep⟩
  | slotIntegrityPass => exact ⟨_, _, _, cmd_lands _ _ _, keep⟩
  | trngHealthFail => exact ⟨_, _, _, cmd_lands _ _ _, keep⟩
  | trngRecovery => exact ⟨_, _, _, cmd_lands _ _ _, keep⟩
  | drbgReseed => exact ⟨_, _, _, cmd_lands _ _ _, keep⟩
  | macsecKeyRecheck => exact ⟨_, _, _, cmd_lands _ _ _, keep⟩
  | manifestSubmit => exact ⟨_, _, _, cmd_lands _ _ _, keep⟩
  | manifestSubSeal => exact ⟨_, _, _, cmd_lands _ _ _, keep⟩
  | manifestRecordWrite => exact ⟨_, _, _, cmd_lands _ _ _, keep⟩
  | sealSigned => exact ⟨_, _, _, cmd_lands _ _ _, keep⟩
  | scarabOutputMinority => exact ⟨_, _, _, cmd_lands _ _ _, keep⟩
  | digestCompare => exact ⟨_, _, _, cmd_lands _ _ _, keep⟩
  | voterMismatch => exact ⟨_, _, _, cmd_lands _ _ _, keep⟩
  | voterSelftest => exact ⟨_, _, _, cmd_lands _ _ _, keep⟩
  | scarabSelftestNow => exact ⟨_, _, _, cmd_lands _ _ _, keep⟩
  | scarabModeReq => exact ⟨_, _, _, cmd_lands _ _ _, keep⟩
  | kcoreinfoRead => exact ⟨_, _, _, cmd_lands _ _ _, keep⟩
  | faultEvent => exact ⟨_, _, _, cmd_lands _ _ _, keep⟩
  | supplyOutOfWindow => exact ⟨_, _, _, cmd_lands _ _ _, keep⟩
  | tjThreshold => exact ⟨_, _, _, cmd_lands _ _ _, keep⟩
  | chipResetAssert => exact ⟨_, _, _, cmd_lands _ _ _, keep⟩
  | resetShadowClose => exact ⟨_, _, _, cmdIf_lands h _ _ _, keep⟩
  | faultnMinEnd => exact ⟨_, _, _, cmd_lands _ _ _, keep⟩
  | faultnRelease => exact ⟨_, _, _, cmd_lands _ _ _, keep⟩
  | faultnAssert => exact ⟨_, _, _, cmd_lands _ _ _, keep⟩
  | fcnSelftest => exact ⟨_, _, _, cmd_lands _ _ _, keep⟩
  | fcnSelftestNow => exact ⟨_, _, _, cmd_lands _ _ _, keep⟩
  | fcnSrcWrite => exact ⟨_, _, _, cmd_lands _ _ _, keep⟩
  | extest => exact ⟨_, _, _, cmd_lands _ _ _, keep⟩
  | idcode => exact ⟨_, _, _, cmd_lands _ _ _, keep⟩
  | samplePreload => exact ⟨_, _, _, cmd_lands _ _ _, keep⟩
  | clamp => exact ⟨_, _, _, cmd_lands _ _ _, keep⟩
  | dbgChal => exact ⟨_, _, _, cmd_lands _ _ _, keep⟩
  | dbgToken => exact ⟨_, _, _, cmd_lands _ _ _, keep⟩
  | dbgClose => exact ⟨_, _, _, cmd_lands _ _ _, keep⟩
  | dmi => exact ⟨_, _, _, cmd_lands _ _ _, keep⟩
  | bypass => exact ⟨_, _, _, cmd_lands _ _ _, keep⟩
  | dbgCtrlClose => exact ⟨_, _, _, cmd_lands _ _ _, keep⟩
  | dbgSessionExpiry => exact ⟨_, _, _, cmd_lands _ _ _, keep⟩
  | dbgNonceExpiry => exact ⟨_, _, _, cmd_lands _ _ _, keep⟩
  | dbgLockoutEnd => exact ⟨_, _, _, cmd_lands _ _ _, keep⟩
  | claimRoundStart => exact ⟨_, _, _, cmd_lands _ _ _, keep⟩
  | claimRoundEnd => exact ⟨_, _, _, cmdIf_lands h _ _ _, keep⟩
  | pairKick => exact ⟨_, _, _, cmd_lands _ _ _, keep⟩
  | heartbeatSend => exact ⟨_, _, _, cmd_lands _ _ _, keep⟩
  | heartbeatReceived => exact ⟨_, _, _, cmd_lands _ _ _, keep⟩
  | heartbeatMiss => exact ⟨_, _, _, cmd_lands _ _ _, keep⟩
  | digestIntervalClose => exact ⟨_, _, _, cmd_lands _ _ _, keep⟩
  | rotBankAdvance => exact ⟨_, _, _, cmd_lands _ _ _, keep⟩
  | rotBankTest => exact ⟨_, _, _, cmd_lands _ _ _, keep⟩
  | offlineTest => exact ⟨_, _, _, cmd_lands _ _ _, keep⟩
  | offlineTestEnd => exact ⟨_, _, _, cmd_lands _ _ _, keep⟩
  | yieldClaimRelease => exact ⟨_, _, _, cmd_lands _ _ _, keep⟩
  | pairNonceExpiry => exact ⟨_, _, _, cmd_lands _ _ _, keep⟩
  | bootSelect =>
    refine ⟨_, _, _, cmdM_lands _ _ _ _, fun _ _ h => ?_⟩
    split <;> first | exact h | exact memWf_wipeSram h
  | updConfirm => exact ⟨_, _, _, cmd_lands _ _ _, keep⟩
  | confirmTimeout => exact ⟨_, _, _, cmd_lands _ _ _, keep⟩
  | updLockTimeout => exact ⟨_, _, _, cmd_lands _ _ _, keep⟩
  | activationReset => exact ⟨_, _, _, cmd_lands _ _ _, keep⟩
  | powerOnReset =>
    refine ⟨_, _, _, cmdM_lands _ _ _ _, fun _ _ h => ?_⟩
    split <;> first | exact h | exact memWf_wipeSram h
  | resetN => exact ⟨_, _, _, cmd_lands _ _ _, keep⟩
  | pciePerstN => exact ⟨_, _, _, cmd_lands _ _ _, keep⟩
  | powerUpTimeout => exact ⟨_, _, _, cmd_lands _ _ _, keep⟩
  | supplyLoss => exact ⟨_, _, _, cmdM_lands _ _ _ _, fun _ _ h => memWf_wipeSram h⟩
  | registerRead => exact ⟨_, _, _, cmdIf_lands h _ _ _, keep⟩
  | resyncDone => exact ⟨_, _, _, cmd_lands _ _ _, keep⟩
  | powerStateReached =>
    refine ⟨_, _, _, cmdM_lands _ _ _ _, fun _ _ h => ?_⟩
    split <;> first | exact h | exact memWf_wipeSram h
  | exitDone => exact ⟨_, _, _, cmd_lands _ _ _, keep⟩
  | pauseExpiry => exact ⟨_, _, _, cmd_lands _ _ _, keep⟩
  | rxLpiChange => exact ⟨_, _, _, cmd_lands _ _ _, keep⟩
  | cbsCreditRecovered => exact ⟨_, _, _, cmd_lands _ _ _, keep⟩

/-- A command with operands that spell nothing that can arrive: only time passes (log 165). -/
theorem exec_passes (i : Instr) (s : State) (h : ¬ WellFormed i) : ∃ t, exec i s = .next (landed t s (devAt s.dev t)) := by
  cases i with
  | registerWrite => exact ⟨_, cmdIf_passes (Bool.eq_false_iff.mpr h) _ _ _⟩
  | tableWindowWrite => exact ⟨_, cmdIf_passes (Bool.eq_false_iff.mpr h) _ _ _⟩
  | errForce => exact ⟨_, cmdIf_passes (Bool.eq_false_iff.mpr h) _ _ _⟩
  | irqForce => exact ⟨_, cmdIf_passes (Bool.eq_false_iff.mpr h) _ _ _⟩
  | pageLock => exact ⟨_, cmdIf_passes (Bool.eq_false_iff.mpr h) _ _ _⟩
  | blockEnable => exact ⟨_, cmdIf_passes (Bool.eq_false_iff.mpr h) _ _ _⟩
  | blockDisable => exact ⟨_, cmdIf_passes (Bool.eq_false_iff.mpr h) _ _ _⟩
  | blockQuiesced => exact ⟨_, cmdIf_passes (Bool.eq_false_iff.mpr h) _ _ _⟩
  | blockSoftReset => exact ⟨_, cmdIf_passes (Bool.eq_false_iff.mpr h) _ _ _⟩
  | softResetEnd => exact ⟨_, cmdIf_passes (Bool.eq_false_iff.mpr h) _ _ _⟩
  | resetTimeout => exact ⟨_, cmdIf_passes (Bool.eq_false_iff.mpr h) _ _ _⟩
  | freeze => exact ⟨_, cmdIf_passes (Bool.eq_false_iff.mpr h) _ _ _⟩
  | commitImmediate => exact ⟨_, cmdIf_passes (Bool.eq_false_iff.mpr h) _ _ _⟩
  | tideJoin => exact ⟨_, cmdIf_passes (Bool.eq_false_iff.mpr h) _ _ _⟩
  | commitSwitch => exact ⟨_, cmdIf_passes (Bool.eq_false_iff.mpr h) _ _ _⟩
  | mirrorRefillEnd => exact ⟨_, cmdIf_passes (Bool.eq_false_iff.mpr h) _ _ _⟩
  | signaturePass => exact ⟨_, cmdIf_passes (Bool.eq_false_iff.mpr h) _ _ _⟩
  | tideTimeWrite => exact absurd rfl h
  | tideArm => exact absurd rfl h
  | tideCancel => exact absurd rfl h
  | tideFire => exact absurd rfl h
  | scrubAccess => exact absurd rfl h
  | freeCellTest => exact absurd rfl h
  | quayReset => exact absurd rfl h
  | quayDrainEnd => exact absurd rfl h
  | clockMonitorWindow => exact absurd rfl h
  | clkBuoyMonitor => exact absurd rfl h
  | headerWindowComplete => exact ⟨_, cmdIf_passes (Bool.eq_false_iff.mpr h) _ _ _⟩
  | pipelineEntry => exact absurd rfl h
  | frameTail => exact absurd rfl h
  | pauseReceived => exact absurd rfl h
  | linkLoss => exact absurd rfl h
  | linkUp => exact ⟨_, cmdIf_passes (Bool.eq_false_iff.mpr h) _ _ _⟩
  | phyWarmSave => exact absurd rfl h
  | phyWarmFlush => exact absurd rfl h
  | warmFbPartner => exact absurd rfl h
  | fingerprintCheck => exact absurd rfl h
  | warmTimeout => exact absurd rfl h
  | blockLockTimeout => exact absurd rfl h
  | plcaBeacon => exact absurd rfl h
  | plcaBeaconLoss => exact absurd rfl h
  | plcaCollision => exact absurd rfl h
  | noiseEvent => exact absurd rfl h
  | jabberRx => exact absurd rfl h
  | jabberTx => exact absurd rfl h
  | lpiEntry => exact absurd rfl h
  | lpiWake => exact absurd rfl h
  | lpiGateWake => exact absurd rfl h
  | tc10SleepReq => exact absurd rfl h
  | tc10SleepAck => exact absurd rfl h
  | tc10SleepReject => exact absurd rfl h
  | tc10SleepTimeout => exact absurd rfl h
  | tc10PartnerSleepRequest => exact absurd rfl h
  | tc10Wur => exact absurd rfl h
  | phyDiagStart => exact absurd rfl h
  | diagDone => exact absurd rfl h
  | sqiUpdate => exact absurd rfl h
  | mergeVerify => exact absurd rfl h
  | agingSweep => exact absurd rfl h
  | sfBlockedClear => exact absurd rfl h
  | frerReset => exact absurd rfl h
  | flowSweep => exact absurd rfl h
  | flowDelete => exact absurd rfl h
  | flowFlushAll => exact absurd rfl h
  | flowFlushZone => exact absurd rfl h
  | flowFlushRule => exact absurd rfl h
  | flowFlushEnd => exact absurd rfl h
  | diagToken => exact absurd rfl h
  | diagClose => exact absurd rfl h
  | bwtDiagClose => exact absurd rfl h
  | diagSessionExpiry => exact absurd rfl h
  | portSelection => exact absurd rfl h
  | transmitEnd => exact absurd rfl h
  | gateEvent => exact absurd rfl h
  | gclConfigChange => exact absurd rfl h
  | shaperSlotRelease => exact absurd rfl h
  | coarseSlotMove => exact absurd rfl h
  | shaperBucketEval => exact absurd rfl h
  | samplingPass => exact absurd rfl h
  | apertureDrainRead => exact ⟨_, cmdIf_passes (Bool.eq_false_iff.mpr h) _ _ _⟩
  | rateWrite => exact absurd rfl h
  | domainEnable => exact absurd rfl h
  | domainDisable => exact absurd rfl h
  | syncSet => exact absurd rfl h
  | stepAbs => exact absurd rfl h
  | stepRel => exact absurd rfl h
  | timeStepApply => exact absurd rfl h
  | syncWatchdog => exact absurd rfl h
  | timeSnap => exact absurd rfl h
  | ctrMismatch => exact absurd rfl h
  | toutArm => exact absurd rfl h
  | toutStop => exact absurd rfl h
  | toutEdge => exact absurd rfl h
  | tcapEdge => exact absurd rfl h
  | canFrameReceived => exact ⟨_, cmdIf_passes (Bool.eq_false_iff.mpr h) _ _ _⟩
  | ferryStart => exact absurd rfl h
  | ferryVerdictReturn => exact absurd rfl h
  | aggWindowClose => exact absurd rfl h
  | carrierReceived => exact absurd rfl h
  | canLateError => exact absurd rfl h
  | canArbitrationLost => exact absurd rfl h
  | canTxComplete => exact absurd rfl h
  | canBusError => exact absurd rfl h
  | canTxAgeExpiry => exact absurd rfl h
  | canRecover => exact absurd rfl h
  | busOffRecovery => exact absurd rfl h
  | canProtocolException => exact absurd rfl h
  | busIntegrationEnd => exact absurd rfl h
  | canXcvrFault => exact absurd rfl h
  | linSlotStart => exact absurd rfl h
  | linHeaderReceived => exact absurd rfl h
  | linFrameReceived => exact ⟨_, cmdIf_passes (Bool.eq_false_iff.mpr h) _ _ _⟩
  | linNoResponse => exact absurd rfl h
  | linGotoSleep => exact absurd rfl h
  | linWake => exact absurd rfl h
  | linResume => exact absurd rfl h
  | linWakeRx => exact absurd rfl h
  | linBusStuck => exact absurd rfl h
  | ferryStall => exact absurd rfl h
  | xweTapProcess => exact absurd rfl h
  | xweTick => exact absurd rfl h
  | canWup => exact absurd rfl h
  | buoyFrameDecoded => exact ⟨_, cmdIf_passes (Bool.eq_false_iff.mpr h) _ _ _⟩
  | linWakePulse => exact absurd rfl h
  | phyWakeDetect => exact absurd rfl h
  | wakePinEvent => exact absurd rfl h
  | keepAlive => exact absurd rfl h
  | nmLocalWrite => exact absurd rfl h
  | nmTimeout => exact absurd rfl h
  | readySleepExpiry => exact absurd rfl h
  | falseWakeExpiry => exact absurd rfl h
  | sleepConditionsMet => exact absurd rfl h
  | modeChangeWindowEnd => exact absurd rfl h
  | keeperKick => exact absurd rfl h
  | keeperRelease => exact absurd rfl h
  | keeperPeriod => exact absurd rfl h
  | quayClockGate => exact absurd rfl h
  | quayPowerGate => exact absurd rfl h
  | quayRestore => exact absurd rfl h
  | quayRestoreDone => exact absurd rfl h
  | deepDelayExpiry => exact absurd rfl h
  | hostAccessWake => exact absurd rfl h
  | txDoorbell => exact ⟨_, cmdIf_passes (Bool.eq_false_iff.mpr h) _ _ _⟩
  | rxDoorbell => exact ⟨_, cmdIf_passes (Bool.eq_false_iff.mpr h) _ _ _⟩
  | pcieReadCompletion => exact ⟨_, cmdIf_passes (Bool.eq_false_iff.mpr h) _ _ _⟩
  | pcieCompletionTimeout => exact ⟨_, cmdIf_passes (Bool.eq_false_iff.mpr h) _ _ _⟩
  | coalesceTimeout => exact ⟨_, cmdIf_passes (Bool.eq_false_iff.mpr h) _ _ _⟩
  | hostQueueEnable => exact ⟨_, cmdIf_passes (Bool.eq_false_iff.mpr h) _ _ _⟩
  | pcieLinkChange => exact absurd rfl h
  | spiTransaction => exact absurd rfl h
  | inbandRequest => exact absurd rfl h
  | mboxReqWrite => exact absurd rfl h
  | mboxRing => exact absurd rfl h
  | mboxAck => exact absurd rfl h
  | version => exact absurd rfl h
  | keyWrite => exact absurd rfl h
  | keyGenerate => exact absurd rfl h
  | keyAttest => exact absurd rfl h
  | devAttest => exact absurd rfl h
  | updOpen => exact absurd rfl h
  | updBlock => exact absurd rfl h
  | updFinish => exact absurd rfl h
  | updActivate => exact absurd rfl h
  | updAbort => exact absurd rfl h
  | dbgChallenge => exact absurd rfl h
  | dbgUnlock => exact absurd rfl h
  | pairStatus => exact absurd rfl h
  | pairYield => exact absurd rfl h
  | manifestSeal => exact absurd rfl h
  | manifestRead => exact absurd rfl h
  | lcTransition => exact absurd rfl h
  | lcTransitionReset => exact absurd rfl h
  | lighterArm => exact absurd rfl h
  | lighterHandover => exact absurd rfl h
  | lighterBurst => exact absurd rfl h
  | lighterStop => exact absurd rfl h
  | lighterResume => exact absurd rfl h
  | lighterAbortNow => exact absurd rfl h
  | tamperDetect => exact absurd rfl h
  | carCmdWrite => exact absurd rfl h
  | carCmdGenerate => exact absurd rfl h
  | carCmdDestroy => exact absurd rfl h
  | carCmdWrapExport => exact absurd rfl h
  | carCmdUnwrapImport => exact absurd rfl h
  | carCmdDerive => exact absurd rfl h
  | carCmdDone => exact absurd rfl h
  | slotIntegrityPass => exact absurd rfl h
  | trngHealthFail => exact absurd rfl h
  | trngRecovery => exact absurd rfl h
  | drbgReseed => exact absurd rfl h
  | macsecKeyRecheck => exact absurd rfl h
  | manifestSubmit => exact absurd rfl h
  | manifestSubSeal => exact absurd rfl h
  | manifestRecordWrite => exact absurd rfl h
  | sealSigned => exact absurd rfl h
  | scarabOutputMinority => exact absurd rfl h
  | digestCompare => exact absurd rfl h
  | voterMismatch => exact absurd rfl h
  | voterSelftest => exact absurd rfl h
  | scarabSelftestNow => exact absurd rfl h
  | scarabModeReq => exact absurd rfl h
  | kcoreinfoRead => exact absurd rfl h
  | faultEvent => exact absurd rfl h
  | supplyOutOfWindow => exact absurd rfl h
  | tjThreshold => exact absurd rfl h
  | chipResetAssert => exact absurd rfl h
  | resetShadowClose => exact ⟨_, cmdIf_passes (Bool.eq_false_iff.mpr h) _ _ _⟩
  | faultnMinEnd => exact absurd rfl h
  | faultnRelease => exact absurd rfl h
  | faultnAssert => exact absurd rfl h
  | fcnSelftest => exact absurd rfl h
  | fcnSelftestNow => exact absurd rfl h
  | fcnSrcWrite => exact absurd rfl h
  | extest => exact absurd rfl h
  | idcode => exact absurd rfl h
  | samplePreload => exact absurd rfl h
  | clamp => exact absurd rfl h
  | dbgChal => exact absurd rfl h
  | dbgToken => exact absurd rfl h
  | dbgClose => exact absurd rfl h
  | dmi => exact absurd rfl h
  | bypass => exact absurd rfl h
  | dbgCtrlClose => exact absurd rfl h
  | dbgSessionExpiry => exact absurd rfl h
  | dbgNonceExpiry => exact absurd rfl h
  | dbgLockoutEnd => exact absurd rfl h
  | claimRoundStart => exact absurd rfl h
  | claimRoundEnd => exact ⟨_, cmdIf_passes (Bool.eq_false_iff.mpr h) _ _ _⟩
  | pairKick => exact absurd rfl h
  | heartbeatSend => exact absurd rfl h
  | heartbeatReceived => exact absurd rfl h
  | heartbeatMiss => exact absurd rfl h
  | digestIntervalClose => exact absurd rfl h
  | rotBankAdvance => exact absurd rfl h
  | rotBankTest => exact absurd rfl h
  | offlineTest => exact absurd rfl h
  | offlineTestEnd => exact absurd rfl h
  | yieldClaimRelease => exact absurd rfl h
  | pairNonceExpiry => exact absurd rfl h
  | bootSelect => exact absurd rfl h
  | updConfirm => exact absurd rfl h
  | confirmTimeout => exact absurd rfl h
  | updLockTimeout => exact absurd rfl h
  | activationReset => exact absurd rfl h
  | powerOnReset => exact absurd rfl h
  | resetN => exact absurd rfl h
  | pciePerstN => exact absurd rfl h
  | powerUpTimeout => exact absurd rfl h
  | supplyLoss => exact absurd rfl h
  | registerRead => exact ⟨_, cmdIf_passes (Bool.eq_false_iff.mpr h) _ _ _⟩
  | resyncDone => exact absurd rfl h
  | powerStateReached => exact absurd rfl h
  | exitDone => exact absurd rfl h
  | pauseExpiry => exact absurd rfl h
  | rxLpiChange => exact absurd rfl h
  | cbsCreditRecovered => exact absurd rfl h

end Sys2Proof.Machine
end

