-- ==== Sys2Proof/Laws/Registers.lean ====
section
/-! SUPPORT. Laws of registers and their fields: a read after a write of the same register, of another one of the page, of another page;
and an accepted write, which the bus hands to the page. -/

namespace Sys2Proof.Machine

/-! ### Registers -/

@[simp] theorem rd_wr_same (d : Dev) (pg : Page) (off : Nat) (v : W64) : rd (wr d pg off v) pg off = v :=
  stGet_stPut_same regReset d.regs _ v

theorem rd_wr_far (d : Dev) {pg pg' : Page} {off off' : Nat} (v : W64) (h : pg.base + off ≠ pg'.base + off') :
    rd (wr d pg off v) pg' off' = rd d pg' off' :=
  stGet_stPut_other regReset d.regs v h

theorem rd_wr_off (d : Dev) (pg : Page) {off off' : Nat} (v : W64) (h : off ≠ off') : rd (wr d pg off v) pg off' = rd d pg off' :=
  rd_wr_far d v (by omega)

@[simp] theorem rf_wf_same (d : Dev) (pg : Page) (off lo len x : Nat) (h : lo + len ≤ 64) :
    rf (wf d pg off lo len x) pg off lo len = x % 2 ^ len := by
  simp [rf, wf, h]

@[simp] theorem rb_wb_same (d : Dev) (pg : Page) (off i : Nat) (b : Bool) (h : i < 64) : rb (wb d pg off i b) pg off i = b := by
  unfold rb wb wf
  rw [rd_wr_same]
  exact bit_setBit_same _ i b h

theorem rb_wb_bit (d : Dev) (pg : Page) (off : Nat) {i j : Nat} (b : Bool) (h : i ≠ j) : rb (wb d pg off i b) pg off j = rb d pg off j := by
  unfold rb wb wf
  rw [rd_wr_same]
  exact bit_setBit_other _ b h

theorem rd_wf_off (d : Dev) (pg : Page) {off off' : Nat} (lo len x : Nat) (h : off ≠ off') :
    rd (wf d pg off lo len x) pg off' = rd d pg off' := rd_wr_off d pg _ h

theorem rd_wb_off (d : Dev) (pg : Page) {off off' : Nat} (i : Nat) (b : Bool) (h : off ≠ off') :
    rd (wb d pg off i b) pg off' = rd d pg off' := rd_wr_off d pg _ h

theorem rd_cnt_off (d : Dev) (pg : Page) {off off' : Nat} (n : Nat) (h : off ≠ off') : rd (cnt d pg off n) pg off' = rd d pg off' :=
  rd_wr_off d pg _ h

/-- A counter counts up to its largest value. -/
theorem rd_cnt_same (d : Dev) (pg : Page) (off n : Nat) :
    rd (cnt d pg off n) pg off = BitVec.ofNat 64 (min ctrMax ((rd d pg off).toNat + n)) := rd_wr_same d pg off _

/-! ### Interrupts and error bits -/

/-- A memory request changes no register. -/
@[simp] theorem hostMem_regs (d : Dev) (o : Out) : (hostMem d o).regs = d.regs := by unfold hostMem; split <;> rfl

/-- The message of an interrupt changes no register. -/
@[simp] theorem msix_regs (d : Dev) (src : Nat) : (msix d src).regs = d.regs := by
  unfold msix msixVec
  dsimp only
  split
  · split
    · rfl
    · exact hostMem_regs d _
  · rfl

@[simp] theorem irqRawPut_regs (d : Dev) (pg : Page) (v : W64) : (irqRawPut d pg v).regs = (wr d pg 0x20 v).regs := by
  unfold irqRawPut
  dsimp only
  split <;> simp

theorem rd_of_regs {d e : Dev} (h : d.regs = e.regs) (pg : Page) (off : Nat) : rd d pg off = rd e pg off := by
  unfold rd; rw [h]

@[simp] theorem rd_irq_same (d : Dev) (pg : Page) (b : Nat) : rd (irq d pg b) pg 0x20 = setBit (rd d pg 0x20) b true := by
  unfold irq
  rw [rd_of_regs (irqRawPut_regs d pg _), rd_wr_same]

theorem rd_irq_far (d : Dev) {pg pg' : Page} (b : Nat) {off : Nat} (h : pg.base + 0x20 ≠ pg'.base + off) :
    rd (irq d pg b) pg' off = rd d pg' off := by
  unfold irq
  rw [rd_of_regs (irqRawPut_regs d pg _), rd_wr_far d _ h]

theorem rd_irq_off (d : Dev) (pg : Page) (b : Nat) {off : Nat} (h : 0x20 ≠ off) : rd (irq d pg b) pg off = rd d pg off :=
  rd_irq_far d b (by omega)

/-- An interrupt raised is pending in IRQ_RAW. -/
theorem rb_irq_same (d : Dev) (pg : Page) (b : Nat) (h : b < 64) : rb (irq d pg b) pg 0x20 b = true := by
  unfold rb
  rw [rd_irq_same, bit_setBit_same _ _ _ h]

/-! ### Addresses -/

/-- Every page that exists is the page at its own address (Table 2.1). -/
theorem pageAt_base (pg : Page) (h : pg.Exists = true) : pageAt (pg.base / 0x1000) = some pg := by
  cases pg with
  | fcn i => revert i; decide
  | quay n i => revert n i; decide
  | port p i => revert p i; decide
  | bwt i => revert i; decide
  | time i => revert i; decide
  | can k => revert k; decide
  | lin l => revert l; decide
  | buoy i => revert i; decide
  | lighter i => revert i; decide
  | host i => revert i; decide
  | mbox i => revert i; decide
  | scarab i => revert i; decide
  | pair i => revert i; decide
  | _ => decide

/-- Pages lie on multiples of 4 KiB below the table windows. -/
theorem base_range (pg : Page) : pg.base % 0x1000 = 0 ∧ pg.base < 0x00551000 := by
  cases pg <;> simp only [Page.base] <;> first | omega | decide

/-- An address inside a page that exists names that page. -/
theorem pageOf_base (pg : Page) (h : pg.Exists = true) (off : Nat) (ho : off < 0x1000) : pageOf (pg.base + off) = some pg := by
  unfold pageOf
  rw [show (pg.base + off) / 0x1000 = pg.base / 0x1000 by have := base_range pg; omega]
  exact pageAt_base pg h

/-- A quay that is on is not restored by an access. -/
theorem quayTouch_on (d : Dev) (pg : Page) (h : domCond d pg.domain = 1) : quayTouch d pg = d := by
  unfold quayTouch
  rw [if_neg]
  rintro ⟨-, -, -, -, h' | h'⟩ <;> omega

/-- A host access requests no exit while no state deeper than P2 holds or is being entered. -/
theorem hostAccessOp_awake (d : Dev) (h : pwrState d < 3 ∧ d.pwr.entry = none) : hostAccessOp d = d := by
  unfold hostAccessOp
  rw [if_neg]
  rintro ⟨-, h'⟩
  rw [h.2] at h'
  rcases h' with h' | h'
  · omega
  · simp at h'

/-- An accepted write reaches the register of its page. -/
theorem masterWrite_accepts (mem : List Host.Cell) (d : Dev) (m : Master) (pg : Page) (off : Nat) (v : W64)
    (h : Safety.Accepts d m pg) (h8 : off % 8 = 0) (hs : off < 0x800 ∨ off < 0x1000 ∧ pg.hasShadow = false) :
    masterWrite mem d m (pg.base + off) 3 v = regWrite mem d m pg off v := by
  have ho : off < 0x1000 := by omega
  have hb := base_range pg
  have hp := pageOf_base pg h.page off ho
  have hd : domOff d pg.domain = false := by simp [domOff, h.on]
  have hc : writeCause d m (pg.base + off) 3 = 0 := by
    unfold writeCause
    rw [h.live, if_neg (by simp), if_neg (by omega), if_neg (by omega), hp]
    dsimp only
    rw [hd, if_neg (by simp), if_neg, h.owner]
    · simp
    · rintro ⟨h1, h2⟩
      rcases hs with hs | hs
      · omega
      · simp [hs.2] at h1
  have hw : (if m = .host then hostAccessOp d else d) = d := by
    split
    · rename_i hm; exact hostAccessOp_awake d (h.awake hm)
    · rfl
  unfold masterWrite busWrite
  rw [hw, if_neg (by rintro ⟨-, hb2⟩; unfold inBar2 at hb2; rw [decide_eq_true_iff] at hb2; unfold bar2Base at hb2; omega), if_neg (by omega), hp]
  dsimp only
  rw [h.live, if_neg (by simp), quayTouch_on d pg h.on]
  unfold guarded
  dsimp only
  rw [hc, if_pos rfl, if_neg (by omega), show (pg.base + off) % 0x1000 = off by omega]

/-- A write below +0x080 is a write of the page header. -/
theorem regWrite_header (mem : List Host.Cell) (d : Dev) (m : Master) (pg : Page) (off : Nat) (v : W64) (h : off < 0x80) :
    regWrite mem d m pg off v = headerWrite mem d m pg off v := by
  unfold regWrite; exact if_pos h

/-- An accepted write of a register of a page, in the form in which commands make it. -/
theorem regPut_accepts (mem : List Host.Cell) (d : Dev) (m : Master) (pg : Page) (off : Nat) (v : W64)
    (h : Safety.Accepts d m pg) (h8 : off % 8 = 0) (hs : off < 0x800 ∨ off < 0x1000 ∧ pg.hasShadow = false) :
    regPut mem d m pg off v = regWrite mem d m pg off v := masterWrite_accepts mem d m pg off v h h8 hs

end Sys2Proof.Machine
end

