-- ==== Sys2Proof/Laws/Control.lean ====
section
/-! SUPPORT. Writes of PG_CTRL (Table 2.6): what the commands that set or clear its bits do, once for all of them. -/

namespace Sys2Proof.Machine

/-- A field taken from a word that agrees on it changes nothing. -/
theorem mergeFld_self (v w : W64) (lo len : Nat) (h : v &&& maskOf lo len = w &&& maskOf lo len) : mergeFld v w lo len = v := by
  unfold mergeFld; rw [← h]; ext i hi; simp; cases v[i] <;> simp

/-- Two words agree on a field of one bit if they agree on the bit. -/
theorem and_mask_iff (v w : W64) (lo : Nat) (hlo : lo < 64) : v &&& maskOf lo 1 = w &&& maskOf lo 1 ↔ bit v lo = bit w lo := by
  constructor
  · intro h
    have := congrArg (fun x => x.getLsbD lo) h
    simpa [BitVec.getLsbD_and, getLsbD_maskOf _ _ _ hlo, bit] using this
  · intro h
    apply BitVec.eq_of_getLsbD_eq
    intro i hi
    rw [BitVec.getLsbD_and, BitVec.getLsbD_and, getLsbD_maskOf _ _ _ hi]
    by_cases h1 : i = lo
    · subst h1; unfold bit at h; rw [h]
    · have : ¬ (lo ≤ i ∧ i < lo + 1) := by omega
      rcases not_and_or.mp this with h2 | h2 <;> simp [h2]

/-- The row of PG_CTRL. -/
theorem rowAt_ctrl (pg : Page) : pg.rowAt 0x10 = some ⟨0x10, 1, 0x8, [⟨0, 1, .rw, 0⟩, ⟨1, 1, .w1s, 0⟩, ⟨2, 1, .rw, 0⟩, ⟨3, 1, .rws, 0⟩]⟩ := rfl

/-- A write of PG_CTRL that keeps its writable fields stores what it held. -/
theorem writeFields_ctrl (d : Dev) (pg : Page) (x : W64) (h0 : bit x 0 = rb d pg 0x10 0) (h2 : bit x 2 = rb d pg 0x10 2) (h3 : bit x 3 = rb d pg 0x10 3) :
    writeFields d pg 0x10 x = wr d pg 0x10 (rd d pg 0x10) := by
  have e0 : rd d pg 0x10 &&& maskOf 0 1 = x &&& maskOf 0 1 := (and_mask_iff _ _ _ (by decide)).mpr h0.symm
  have e2 : rd d pg 0x10 &&& maskOf 2 1 = x &&& maskOf 2 1 := (and_mask_iff _ _ _ (by decide)).mpr h2.symm
  have e3 : rd d pg 0x10 &&& maskOf 3 1 = x &&& maskOf 3 1 := (and_mask_iff _ _ _ (by decide)).mpr h3.symm
  unfold writeFields
  rw [rowAt_ctrl]
  simp only [List.foldl, fieldWrite, List.any, beq_iff_eq]
  rw [mergeFld_self _ _ _ _ e0, mergeFld_self _ _ _ _ e2, mergeFld_self _ _ _ _ e3, e3]
  simp

/-- ENABLE, FREEZE and SIG_EN keep their values. -/
theorem keepBits_ctrl (pg : Page) : keepBits pg 0x10 = 0xd := by
  unfold keepBits; rw [rowAt_ctrl]; decide

/-- Setting and clearing bits of PG_CTRL by an accepted write: a refused ENABLE, the snapshot, ENABLE, SRST. -/
theorem regBits_ctrl (mem : List Host.Cell) (d : Dev) (m : Master) (pg : Page) (h : Safety.Accepts d m pg) (set clear : W64)
    (hs3 : bit set 3 = false) (hc3 : bit clear 3 = false) :
    regBits mem d m pg 0x10 set clear =
      (if bit set 0 && !bit clear 0 && !enabled d pg && enableRefused d pg then invalidValue d pg else
        let e := wr d pg 0x10 (rd d pg 0x10)
        let f := ((rb d pg 0x10 2 || bit set 2) && !bit clear 2)
        let d2 := if f = rb d pg 0x10 2 then e else freezeOp mem e pg f
        let d3 := if (enabled d pg || bit set 0) && !bit clear 0 then enablePage d2 pg else disablePage d2 pg
        if bit set 1 && !bit clear 1 then softResetOp d3 pg else d3) := by
  have mb : ∀ (v : W64) (i : Nat), i < 64 → bit (mergeFld (mergeFld v (rd d pg 0x10) 0 1) (rd d pg 0x10) 2 1) i = if i = 0 ∨ i = 2 then rb d pg 0x10 i else bit v i := by
    intro v i hi
    unfold bit rb
    rw [getLsbD_mergeFld _ _ _ _ _ hi, getLsbD_mergeFld _ _ _ _ _ hi]
    by_cases h1 : i = 2
    · subst h1; rw [if_pos (by omega), if_pos (by omega)]; rfl
    · by_cases h2 : i = 0
      · subst h2; rw [if_neg (by omega), if_pos (by omega), if_pos (by omega)]; rfl
      · rw [if_neg (by omega), if_neg (by omega), if_neg (by omega)]
  unfold regBits
  rw [regPut_accepts _ _ _ _ _ _ h (by decide) (.inl (by decide)), regWrite_header _ _ _ _ _ _ (by decide), keepBits_ctrl]
  generalize hv : (rd d pg 16 &&& 13 ||| set) &&& ~~~clear = v
  have vb : ∀ i, i < 64 → bit v i = (((rb d pg 0x10 i && bit 13 i) || bit set i) && !bit clear i) := by
    intro i hi; subst hv; simp [bit, rb, hi]
  have v0 := vb 0 (by decide)
  have v1 := vb 1 (by decide)
  have v2 := vb 2 (by decide)
  have v3 := vb 3 (by decide)
  rw [show bit 13 0 = true by decide] at v0
  rw [show bit 13 1 = false by decide] at v1
  rw [show bit 13 2 = true by decide] at v2
  rw [show bit 13 3 = true by decide, hs3, hc3] at v3
  simp only [Bool.and_true, Bool.and_false, Bool.or_false, Bool.false_or, Bool.not_false, Bool.false_and] at v0 v1 v2 v3
  have hw : headerWrite mem d m pg 0x10 v = pgCtrlWrite mem d pg v := by unfold headerWrite; simp
  rw [hw]
  unfold pgCtrlWrite
  have hcond : (bit v 0 && !enabled d pg && enableRefused d pg) = (bit set 0 && !bit clear 0 && !enabled d pg && enableRefused d pg) := by
    rw [v0]; unfold enabled; cases rb d pg 0x10 0 <;> simp
  rw [hcond]
  dsimp only
  split
  · rfl
  · rw [writeFields_ctrl d pg _ (by rw [mb _ _ (by decide)]; simp) (by rw [mb _ _ (by decide)]; simp) (by rw [mb _ _ (by decide), v3]; simp)]
    rw [v1, v0, v2]
    simp only [enabled]
    rfl

/-- ENABLE is as it was after PG_CTRL is stored again. -/
theorem enabled_rewritten (d : Dev) (pg : Page) : enabled (wr d pg 0x10 (rd d pg 0x10)) pg = enabled d pg := by
  unfold enabled rb; rw [rd_wr_same]

/-- An accepted write of SRST: a block soft reset, PG_CTRL stored again. -/
theorem regBits_srst (mem : List Host.Cell) (d : Dev) (m : Master) (pg : Page) (h : Safety.Accepts d m pg) :
    regBits mem d m pg 0x10 2 0 = softResetOp (wr d pg 0x10 (rd d pg 0x10)) pg := by
  rw [regBits_ctrl mem d m pg h 2 0 (by decide) (by decide)]
  rw [show bit (2 : W64) 0 = false by decide, show bit (0 : W64) 0 = false by decide, show bit (2 : W64) 2 = false by decide,
    show bit (0 : W64) 2 = false by decide, show bit (2 : W64) 1 = true by decide, show bit (0 : W64) 1 = false by decide]
  simp only [Bool.false_and, Bool.or_false, Bool.not_false, Bool.and_true, Bool.false_eq_true, if_false, if_true]
  congr 1
  split
  · rename_i h'; unfold enablePage; rw [enabled_rewritten, h', if_pos rfl]
  · rename_i h'; unfold disablePage; rw [enabled_rewritten]; simp [h']

/-! ### Registers written back with a bit that only acts -/

/-- The kinds of fields that keep their value when software writes back what it read. -/
def keeps (k : Kind) : Bool := k == .rw || k == .rws || k == .rwd || k == .rwl

/-- Clearing no bit. -/
theorem and_not_zero (v : W64) : v &&& ~~~(0 : W64) = v := by
  rw [show ~~~(0 : W64) = BitVec.allOnes 64 by decide, BitVec.and_allOnes]

/-- A field whose value is written back, or that a write cannot change, keeps its value and records no refusal. -/
theorem fieldWrite_same (d : Dev) (pg : Page) (old x : W64) (f : Fld)
    (h1 : f.kind = .w1c → x &&& maskOf f.lo f.len = 0) (h2 : keeps f.kind = true → old &&& maskOf f.lo f.len = x &&& maskOf f.lo f.len) :
    fieldWrite d pg old x f (old, none) = (old, none) := by
  unfold fieldWrite
  dsimp only
  cases hk : f.kind with
  | w1c => show (old &&& ~~~(x &&& maskOf f.lo f.len), none) = (old, none); rw [h1 hk, and_not_zero]
  | ro => rfl
  | w1s => rfl
  | wo => rfl
  | ctr => rfl
  | rw => have h := h2 (by rw [hk]; rfl); simp [mergeFld_self _ _ _ _ h]
  | rws => have h := h2 (by rw [hk]; rfl); simp [mergeFld_self _ _ _ _ h, h]
  | rwd => have h := h2 (by rw [hk]; rfl); simp [mergeFld_self _ _ _ _ h, h]
  | rwl => have h := h2 (by rw [hk]; rfl); simp [mergeFld_self _ _ _ _ h, h]

/-- A register whose writable fields are written back is stored as it was. -/
theorem writeFields_same (d : Dev) (pg : Page) (off : Nat) (x : W64) (r : Row) (hr : pg.rowAt off = some r)
    (hc : ∀ f ∈ r.flds, f.kind ≠ .ctr) (h1 : ∀ f ∈ r.flds, f.kind = .w1c → x &&& maskOf f.lo f.len = 0)
    (h2 : ∀ f ∈ r.flds, keeps f.kind = true → rd d pg off &&& maskOf f.lo f.len = x &&& maskOf f.lo f.len) :
    writeFields d pg off x = Safety.rewritten d pg off := by
  have key : ∀ l : List Fld, (∀ f ∈ l, f ∈ r.flds) →
      l.foldl (fun acc f => fieldWrite d pg (rd d pg off) x f acc) (rd d pg off, none) = (rd d pg off, none) := by
    intro l
    induction l with
    | nil => intro _; rfl
    | cons f l ih =>
      intro hl
      rw [List.foldl_cons, fieldWrite_same d pg _ x f (h1 f (hl f (by simp))) (h2 f (hl f (by simp)))]
      exact ih fun g hg => hl g (by simp [hg])
  unfold writeFields
  rw [hr]
  dsimp only
  rw [if_neg (by simpa using hc), key r.flds fun f hf => hf]
  rfl

/-- What `regBits` writes to set bits that only act, on a row whose other writable fields it keeps. -/
theorem writeFields_act (d : Dev) (pg : Page) (off : Nat) (set : W64) (r : Row) (hr : pg.rowAt off = some r)
    (h : r.flds.all (fun f => f.kind != .ctr && f.kind != .w1c && (!keeps f.kind ||
      (r.bits keeps &&& maskOf f.lo f.len == maskOf f.lo f.len && set &&& maskOf f.lo f.len == 0))) = true) :
    writeFields d pg off ((((rd d pg off) &&& keepBits pg off) ||| set) &&& ~~~0) = Safety.rewritten d pg off := by
  have hk : keepBits pg off = r.bits keeps := by unfold keepBits; rw [hr]; rfl
  rw [List.all_eq_true] at h
  refine writeFields_same d pg off _ r hr ?_ ?_ ?_
  · intro f hf; have := h f hf; simp at this; exact this.1.1
  · intro f hf hw; have := h f hf; simp at this; exact absurd hw this.1.2
  · intro f hf hw
    have h' := h f hf
    simp [hw] at h'
    obtain ⟨-, h3, h4⟩ := h'
    rw [hk, and_not_zero]
    ext i hi
    have e3 := congrArg (fun v : W64 => v[i]) h3
    have e4 := congrArg (fun v : W64 => v[i]) h4
    simp at e3 e4 ⊢
    revert e3 e4
    cases (maskOf f.lo f.len)[i] <;> cases (rd d pg off)[i] <;> cases set[i] <;> cases (r.bits keeps)[i] <;> simp

/-- An accepted write that sets bits of a register above the header, its other writable fields as they are. -/
theorem regBits_set (mem : List Host.Cell) (d : Dev) (m : Master) (pg : Page) (off : Nat) (set : W64) (h : Safety.Accepts d m pg)
    (h8 : off % 8 = 0) (hs : off < 0x800 ∨ off < 0x1000 ∧ pg.hasShadow = false) :
    regBits mem d m pg off set 0 = regWrite mem d m pg off (((rd d pg off &&& keepBits pg off) ||| set) &&& ~~~0) :=
  regPut_accepts mem d m pg off _ h h8 hs

/-- A bit of what `regBits` writes: set, or kept. -/
theorem bit_act (v k set : W64) (i : Nat) : bit ((v &&& k ||| set) &&& ~~~0) i = ((bit v i && bit k i) || bit set i) := by
  rw [and_not_zero]; simp [bit]

end Sys2Proof.Machine
end

