-- ==== Sys2Proof/Laws/Lands.lean ====
section
/-! SUPPORT. For every command, what its own effect leaves of the device: one lemma per constructor, in the order of the table's rows as
`exec` dispatches them. -/

namespace Sys2Proof.Machine

open Sys2Proof.Safety

/-- A command whose effect leaves e completes with every description of e. -/
theorem lands_congr {t : Instant} {i : Instr} {s : State} {d e : Dev} (h : Lands t i s e) (he : e = d) : Lands t i s d := he ▸ h

theorem lands_registerWrite (t : Instant) (m : Master) (addr : Nat) (width : Nat) (v : W64) (s : State) (h : width ≤ 3) :
    Lands t (.registerWrite t m addr width v) s (masterWrite s.mem (devAt s.dev t) m addr width v) :=
  cmdIf_lands (by simpa using h) _ _ _

theorem lands_tableWindowWrite (t : Instant) (m : Master) (addr : Nat) (width : Nat) (v : W64) (s : State) (h : width ≤ 3) :
    Lands t (.tableWindowWrite t m addr width v) s (masterWrite s.mem (devAt s.dev t) m addr width v) :=
  cmdIf_lands (by simpa using h) _ _ _

theorem lands_errForce (t : Instant) (m : Master) (pg : Page) (v : W64) (s : State) (h : pg.Exists = true) :
    Lands t (.errForce t m pg v) s (regPut s.mem (devAt s.dev t) m pg 0x48 v) :=
  cmdIf_lands h _ _ _

theorem lands_irqForce (t : Instant) (m : Master) (pg : Page) (v : W64) (s : State) (h : pg.Exists = true) :
    Lands t (.irqForce t m pg v) s (regPut s.mem (devAt s.dev t) m pg 0x38 v) :=
  cmdIf_lands h _ _ _

theorem lands_pageLock (t : Instant) (m : Master) (pg : Page) (s : State) (h : pg.Exists = true) :
    Lands t (.pageLock t m pg) s (regPut s.mem (devAt s.dev t) m pg 0x60 1) :=
  cmdIf_lands h _ _ _

theorem lands_blockEnable (t : Instant) (m : Master) (pg : Page) (s : State) (h : pg.Exists = true) :
    Lands t (.blockEnable t m pg) s (regBits s.mem (devAt s.dev t) m pg 0x10 1 0) :=
  cmdIf_lands h _ _ _

theorem lands_blockDisable (t : Instant) (m : Master) (pg : Page) (s : State) (h : pg.Exists = true) :
    Lands t (.blockDisable t m pg) s (regBits s.mem (devAt s.dev t) m pg 0x10 0 1) :=
  cmdIf_lands h _ _ _

theorem lands_blockQuiesced (t : Instant) (pg : Page) (s : State) (h : pg.Exists = true) :
    Lands t (.blockQuiesced t pg) s (quiescePage (devAt s.dev t) pg) :=
  cmdIf_lands h _ _ _

theorem lands_blockSoftReset (t : Instant) (m : Option Master) (pg : Page) (s : State) (h : pg.Exists = true) :
    Lands t (.blockSoftReset t m pg) s (match m with | some m => regBits s.mem (devAt s.dev t) m pg 0x10 2 0 | none => softResetOp (devAt s.dev t) pg) :=
  cmdIf_lands h _ _ _

theorem lands_softResetEnd (t : Instant) (pg : Page) (s : State) (h : pg.Exists = true) :
    Lands t (.softResetEnd t pg) s (softResetEndOp (devAt s.dev t) pg) :=
  cmdIf_lands h _ _ _

theorem lands_resetTimeout (t : Instant) (pg : Page) (s : State) (h : pg.Exists = true) :
    Lands t (.resetTimeout t pg) s (resetTimeoutOp (devAt s.dev t) pg) :=
  cmdIf_lands h _ _ _

theorem lands_freeze (t : Instant) (m : Master) (pg : Page) (on : Bool) (s : State) (h : pg.Exists = true) :
    Lands t (.freeze t m pg on) s (regBits s.mem (devAt s.dev t) m pg 0x10 (if on then 4 else 0) (if on then 0 else 4)) :=
  cmdIf_lands h _ _ _

theorem lands_commitImmediate (t : Instant) (m : Master) (pg : Page) (gen : BitVec 32) (s : State) (h : pg.Exists = true) :
    Lands t (.commitImmediate t m pg gen) s (regPut s.mem (devAt s.dev t) m pg 0x58 (mkWord [(0, gen.toNat)])) :=
  cmdIf_lands h _ _ _

theorem lands_tideJoin (t : Instant) (m : Master) (pg : Page) (gen : BitVec 32) (slot : Fin 8) (s : State) (h : pg.Exists = true) :
    Lands t (.tideJoin t m pg gen slot) s (regPut s.mem (devAt s.dev t) m pg 0x58 (mkWord [(0, gen.toNat), (32, 1), (33, slot.val)])) :=
  cmdIf_lands h _ _ _

theorem lands_commitSwitch (t : Instant) (pg : Page) (s : State) (h : pg.Exists = true) :
    Lands t (.commitSwitch t pg) s (commitSwitchOp (devAt s.dev t) pg) :=
  cmdIf_lands h _ _ _

theorem lands_mirrorRefillEnd (t : Instant) (pg : Page) (s : State) (h : pg.Exists = true) :
    Lands t (.mirrorRefillEnd t pg) s (mirrorRefillEndOp (devAt s.dev t) pg) :=
  cmdIf_lands h _ _ _

theorem lands_signaturePass (t : Instant) (pg : Page) (s : State) (h : pg.Exists = true) :
    Lands t (.signaturePass t pg) s (sigPassOp (devAt s.dev t) pg) :=
  cmdIf_lands h _ _ _

theorem lands_tideTimeWrite (t : Instant) (m : Master) (slot : Fin 8) (isNs : Bool) (v : W64) (s : State) :
    Lands t (.tideTimeWrite t m slot isNs v) s (regPut s.mem (devAt s.dev t) m .chip (0x400 + slot.val * 0x20 + (if isNs then 8 else 0)) v) :=
  cmd_lands _ _ _

theorem lands_tideArm (t : Instant) (m : Master) (slot : Fin 8) (v : W64) (s : State) :
    Lands t (.tideArm t m slot v) s (regPut s.mem (devAt s.dev t) m .chip (0x410 + slot.val * 0x20) (setBit v 0 true)) :=
  cmd_lands _ _ _

theorem lands_tideCancel (t : Instant) (m : Master) (slot : Fin 8) (v : W64) (s : State) :
    Lands t (.tideCancel t m slot v) s (regPut s.mem (devAt s.dev t) m .chip (0x410 + slot.val * 0x20) (setBit v 1 true)) :=
  cmd_lands _ _ _

theorem lands_tideFire (t : Instant) (slot : Fin 8) (s : State) :
    Lands t (.tideFire t slot) s (tideFireOp (devAt s.dev t) slot.val) :=
  cmd_lands _ _ _

theorem lands_scrubAccess (t : Instant) (region : Fin 15) (word : Nat) (e : EccEvent) (s : State) :
    Lands t (.scrubAccess t region word e) s (scrubOp (devAt s.dev t) region.val word e) :=
  cmd_lands _ _ _

theorem lands_freeCellTest (t : Instant) (q : Fin 4) (cell : Nat) (ok : Bool) (s : State) :
    Lands t (.freeCellTest t q cell ok) s (freeCellOp (devAt s.dev t) q.val cell ok) :=
  cmd_lands _ _ _

theorem lands_quayReset (t : Instant) (m : Option Master) (q : Fin 4) (s : State) :
    Lands t (.quayReset t m q) s (match m with | some m => regBits s.mem (devAt s.dev t) m (.quay q 0) 0x10 2 0 | none => quayResetOp (devAt s.dev t) q.val) :=
  cmd_lands _ _ _

theorem lands_quayDrainEnd (t : Instant) (q : Fin 4) (s : State) :
    Lands t (.quayDrainEnd t q) s (quayDrainOp (devAt s.dev t) q.val) :=
  cmd_lands _ _ _

theorem lands_clockMonitorWindow (t : Instant) (clock : Fin 7) (count : Nat) (s : State) :
    Lands t (.clockMonitorWindow t clock count) s (clockWindowOp (devAt s.dev t) clock.val count) :=
  cmd_lands _ _ _

theorem lands_clkBuoyMonitor (t : Instant) (stopped : Bool) (ppm : Nat) (s : State) :
    Lands t (.clkBuoyMonitor t stopped ppm) s (buoyMonitorOp (devAt s.dev t) stopped ppm) :=
  cmd_lands _ _ _

theorem lands_headerWindowComplete (t : Instant) (p : Fin 29) (f : EthFrame) (s : State) (h : f.octets.length ≤ 16384) :
    Lands t (.headerWindowComplete t p f) s (headerOp (devAt s.dev t) p.val f) :=
  cmdIf_lands (by simpa using h) _ _ _

theorem lands_pipelineEntry (t : Instant) (q : Fin 4) (s : State) :
    Lands t (.pipelineEntry t q) s (entryOp (devAt s.dev t) q.val) :=
  cmd_lands _ _ _

theorem lands_frameTail (t : Instant) (p : Fin 26) (fcsOk : Bool) (s : State) :
    Lands t (.frameTail t p fcsOk) s (tailOp (devAt s.dev t) p.val fcsOk) :=
  cmd_lands _ _ _

theorem lands_pauseReceived (t : Instant) (p : Fin 26) (quanta : Nat) (s : State) :
    Lands t (.pauseReceived t p quanta) s (pauseOp (devAt s.dev t) p.val quanta) :=
  cmd_lands _ _ _

theorem lands_linkLoss (t : Instant) (x : LostLink) (s : State) :
    Lands t (.linkLoss t x) s (linkLossOp (devAt s.dev t) x.port.val x.remote) :=
  cmd_lands _ _ _

theorem lands_linkUp (t : Instant) (p : Fin 26) (speed : Nat) (isMaster warm : Bool) (lat : W64) (s : State) (h : speed ≤ 6) :
    Lands t (.linkUp t p speed isMaster warm lat) s (linkUpOp (devAt s.dev t) p.val speed isMaster warm lat) :=
  cmdIf_lands (by simpa using h) _ _ _

theorem lands_phyWarmSave (t : Instant) (m : Master) (p : Fin 26) (s : State) :
    Lands t (.phyWarmSave t m p) s (regBits s.mem (devAt s.dev t) m (phyPage p.val) 0xa0 2 0) :=
  cmd_lands _ _ _

theorem lands_phyWarmFlush (t : Instant) (m : Master) (p : Fin 26) (s : State) :
    Lands t (.phyWarmFlush t m p) s (regBits s.mem (devAt s.dev t) m (phyPage p.val) 0xa0 4 0) :=
  cmd_lands _ _ _

theorem lands_warmFbPartner (t : Instant) (p : Fin 26) (s : State) :
    Lands t (.warmFbPartner t p) s (warmFbPartnerOp (devAt s.dev t) p.val) :=
  cmd_lands _ _ _

theorem lands_fingerprintCheck (t : Instant) (p : Fin 26) (echoDiff sqi ppm : Nat) (s : State) :
    Lands t (.fingerprintCheck t p echoDiff sqi ppm) s (fingerprintOp (devAt s.dev t) p.val echoDiff sqi ppm) :=
  cmd_lands _ _ _

theorem lands_warmTimeout (t : Instant) (p : Fin 26) (s : State) :
    Lands t (.warmTimeout t p) s (warmTimeoutOp (devAt s.dev t) p.val) :=
  cmd_lands _ _ _

theorem lands_blockLockTimeout (t : Instant) (p : Fin 26) (s : State) :
    Lands t (.blockLockTimeout t p) s (blockLockOp (devAt s.dev t) p.val) :=
  cmd_lands _ _ _

theorem lands_plcaBeacon (t : Instant) (p : Fin 26) (s : State) :
    Lands t (.plcaBeacon t p) s (beaconOp (devAt s.dev t) p.val) :=
  cmd_lands _ _ _

theorem lands_plcaBeaconLoss (t : Instant) (p : Fin 26) (s : State) :
    Lands t (.plcaBeaconLoss t p) s (beaconLossOp (devAt s.dev t) p.val) :=
  cmd_lands _ _ _

theorem lands_plcaCollision (t : Instant) (p : Fin 26) (late : Bool) (s : State) :
    Lands t (.plcaCollision t p late) s (collisionOp (devAt s.dev t) p.val late) :=
  cmd_lands _ _ _

theorem lands_noiseEvent (t : Instant) (p : Fin 26) (k : NoiseKind) (s : State) :
    Lands t (.noiseEvent t p k) s (noiseOp (devAt s.dev t) p.val k) :=
  cmd_lands _ _ _

theorem lands_jabberRx (t : Instant) (p : Fin 26) (s : State) :
    Lands t (.jabberRx t p) s (jabberRxOp (devAt s.dev t) p.val) :=
  cmd_lands _ _ _

theorem lands_jabberTx (t : Instant) (p : Fin 26) (s : State) :
    Lands t (.jabberTx t p) s (jabberTxOp (devAt s.dev t) p.val) :=
  cmd_lands _ _ _

theorem lands_lpiEntry (t : Instant) (p : Fin 26) (s : State) :
    Lands t (.lpiEntry t p) s (lpiEntryOp (devAt s.dev t) p.val) :=
  cmd_lands _ _ _

theorem lands_lpiWake (t : Instant) (p : Fin 26) (s : State) :
    Lands t (.lpiWake t p) s (lpiWakeOp (devAt s.dev t) p.val) :=
  cmd_lands _ _ _

theorem lands_lpiGateWake (t : Instant) (p : Fin 26) (s : State) :
    Lands t (.lpiGateWake t p) s (lpiGateWakeOp (devAt s.dev t) p.val) :=
  cmd_lands _ _ _

theorem lands_tc10SleepReq (t : Instant) (m : Master) (p : Fin 26) (s : State) :
    Lands t (.tc10SleepReq t m p) s (regBits s.mem (devAt s.dev t) m (phyPage p.val) 0xc0 1 0) :=
  cmd_lands _ _ _

theorem lands_tc10SleepAck (t : Instant) (p : Fin 26) (s : State) :
    Lands t (.tc10SleepAck t p) s (tc10AckOp (devAt s.dev t) p.val) :=
  cmd_lands _ _ _

theorem lands_tc10SleepReject (t : Instant) (p : Fin 26) (s : State) :
    Lands t (.tc10SleepReject t p) s (tc10RejectOp (devAt s.dev t) p.val) :=
  cmd_lands _ _ _

theorem lands_tc10SleepTimeout (t : Instant) (p : Fin 26) (s : State) :
    Lands t (.tc10SleepTimeout t p) s (tc10TimeoutOp (devAt s.dev t) p.val) :=
  cmd_lands _ _ _

theorem lands_tc10PartnerSleepRequest (t : Instant) (p : Fin 26) (s : State) :
    Lands t (.tc10PartnerSleepRequest t p) s (tc10PartnerOp (devAt s.dev t) p.val) :=
  cmd_lands _ _ _

theorem lands_tc10Wur (t : Instant) (m : Master) (p : Fin 26) (s : State) :
    Lands t (.tc10Wur t m p) s (regBits s.mem (devAt s.dev t) m (phyPage p.val) 0xc0 4 0) :=
  cmd_lands _ _ _

theorem lands_phyDiagStart (t : Instant) (m : Master) (p : Fin 26) (s : State) :
    Lands t (.phyDiagStart t m p) s (regBits s.mem (devAt s.dev t) m (phyPage p.val) 0xb0 1 0) :=
  cmd_lands _ _ _

theorem lands_diagDone (t : Instant) (p : Fin 26) (r : DiagOutcome) (distance loss : Nat) (s : State) :
    Lands t (.diagDone t p r distance loss) s (diagDoneOp (devAt s.dev t) p.val r distance loss) :=
  cmd_lands _ _ _

theorem lands_sqiUpdate (t : Instant) (p : Fin 26) (sqi : Nat) (s : State) :
    Lands t (.sqiUpdate t p sqi) s (sqiOp (devAt s.dev t) p.val sqi) :=
  cmd_lands _ _ _

theorem lands_mergeVerify (t : Instant) (p : Fin 26) (ok : Bool) (s : State) :
    Lands t (.mergeVerify t p ok) s (mergeVerifyOp (devAt s.dev t) p.val ok) :=
  cmd_lands _ _ _

theorem lands_agingSweep (t : Instant) (s : State) :
    Lands t (.agingSweep t) s (agingOp (devAt s.dev t)) :=
  cmd_lands _ _ _

theorem lands_sfBlockedClear (t : Instant) (m : Master) (q : Fin 4) (v : W64) (s : State) :
    Lands t (.sfBlockedClear t m q v) s (regPut s.mem (devAt s.dev t) m (.quay q 0) 0xc0 v) :=
  cmd_lands _ _ _

theorem lands_frerReset (t : Instant) (fn : Fin 1024) (s : State) :
    Lands t (.frerReset t fn) s (frerResetOp (devAt s.dev t) fn.val) :=
  cmd_lands _ _ _

theorem lands_flowSweep (t : Instant) (s : State) :
    Lands t (.flowSweep t) s (flowSweepOp (devAt s.dev t)) :=
  cmd_lands _ _ _

theorem lands_flowDelete (t : Instant) (m : Master) (v : W64) (s : State) :
    Lands t (.flowDelete t m v) s (regPut s.mem (devAt s.dev t) m (.bwt 0) 0xb8 (setFld v 0 3 1)) :=
  cmd_lands _ _ _

theorem lands_flowFlushAll (t : Instant) (m : Master) (v : W64) (s : State) :
    Lands t (.flowFlushAll t m v) s (regPut s.mem (devAt s.dev t) m (.bwt 0) 0xb8 (setFld v 0 3 2)) :=
  cmd_lands _ _ _

theorem lands_flowFlushZone (t : Instant) (m : Master) (v : W64) (s : State) :
    Lands t (.flowFlushZone t m v) s (regPut s.mem (devAt s.dev t) m (.bwt 0) 0xb8 (setFld v 0 3 3)) :=
  cmd_lands _ _ _

theorem lands_flowFlushRule (t : Instant) (m : Master) (v : W64) (s : State) :
    Lands t (.flowFlushRule t m v) s (regPut s.mem (devAt s.dev t) m (.bwt 0) 0xb8 (setFld v 0 3 4)) :=
  cmd_lands _ _ _

theorem lands_flowFlushEnd (t : Instant) (s : State) :
    Lands t (.flowFlushEnd t) s (flushEndOp (devAt s.dev t)) :=
  cmd_lands _ _ _

theorem lands_diagToken (t : Instant) (ch : Fin 4) (s : State) :
    Lands t (.diagToken t ch) s (diagTokenOp (devAt s.dev t) ch.val) :=
  cmd_lands _ _ _

theorem lands_diagClose (t : Instant) (ch : Fin 4) (s : State) :
    Lands t (.diagClose t ch) s (mboxDiagCloseOp (devAt s.dev t) ch.val) :=
  cmd_lands _ _ _

theorem lands_bwtDiagClose (t : Instant) (m : Master) (i : Fin 4) (s : State) :
    Lands t (.bwtDiagClose t m i) s (regBits s.mem (devAt s.dev t) m (.bwt 1) (0x110 + i.val * 0x18) 2 0) :=
  cmd_lands _ _ _

theorem lands_diagSessionExpiry (t : Instant) (i : Fin 4) (s : State) :
    Lands t (.diagSessionExpiry t i) s (diagExpireOp (devAt s.dev t) i.val) :=
  cmd_lands _ _ _

theorem lands_portSelection (t : Instant) (p : Fin 29) (x : Selection) (s : State) :
    Lands t (.portSelection t p x) s (selectOp (devAt s.dev t) p.val x.ecc x.op) :=
  cmd_lands _ _ _

theorem lands_transmitEnd (t : Instant) (p : Fin 29) (e : EccEvent) (s : State) :
    Lands t (.transmitEnd t p e) s (endTx (devAt s.dev t) p.val e) :=
  cmd_lands _ _ _

theorem lands_gateEvent (t : Instant) (p : Fin 27) (s : State) :
    Lands t (.gateEvent t p) s (gateEventOp (devAt s.dev t) p.val) :=
  cmd_lands _ _ _

theorem lands_gclConfigChange (t : Instant) (p : Fin 27) (s : State) :
    Lands t (.gclConfigChange t p) s (gateConfigOp (devAt s.dev t) p.val) :=
  cmd_lands _ _ _

theorem lands_shaperSlotRelease (t : Instant) (q : Fin 4) (s : State) :
    Lands t (.shaperSlotRelease t q) s (slotReleaseOp (devAt s.dev t) q.val) :=
  cmd_lands _ _ _

theorem lands_coarseSlotMove (t : Instant) (q : Fin 4) (s : State) :
    Lands t (.coarseSlotMove t q) s (coarseMoveOp (devAt s.dev t) q.val) :=
  cmd_lands _ _ _

theorem lands_shaperBucketEval (t : Instant) (q : Fin 4) (s : State) :
    Lands t (.shaperBucketEval t q) s (bucketEvalOp (devAt s.dev t) q.val) :=
  cmd_lands _ _ _

theorem lands_samplingPass (t : Instant) (q : Fin 4) (s : State) :
    Lands t (.samplingPass t q) s (samplingOp (devAt s.dev t) q.val) :=
  cmd_lands _ _ _

theorem lands_apertureDrainRead (t : Instant) (m : Master) (addr : Nat) (width : Nat) (s : State) (h : width ≤ 3) :
    Lands t (.apertureDrainRead t m addr width) s (masterRead s.mem (devAt s.dev t) m addr width) :=
  cmdIf_lands (by simpa using h) _ _ _

theorem lands_rateWrite (t : Instant) (m : Master) (dom : Fin 4) (v : W64) (s : State) :
    Lands t (.rateWrite t m dom v) s (regPut s.mem (devAt s.dev t) m (.time 0) (0x108 + dom.val * 0x40) v) :=
  cmd_lands _ _ _

theorem lands_domainEnable (t : Instant) (m : Master) (dom : Fin 4) (v : W64) (s : State) :
    Lands t (.domainEnable t m dom v) s (regPut s.mem (devAt s.dev t) m (.time 0) (0x100 + dom.val * 0x40) (setBit v 0 true)) :=
  cmd_lands _ _ _

theorem lands_domainDisable (t : Instant) (m : Master) (dom : Fin 4) (v : W64) (s : State) :
    Lands t (.domainDisable t m dom v) s (regPut s.mem (devAt s.dev t) m (.time 0) (0x100 + dom.val * 0x40) (setBit v 0 false)) :=
  cmd_lands _ _ _

theorem lands_syncSet (t : Instant) (m : Master) (dom : Fin 4) (v : W64) (s : State) :
    Lands t (.syncSet t m dom v) s (regPut s.mem (devAt s.dev t) m (.time 0) (0x100 + dom.val * 0x40) (setBit v 1 true)) :=
  cmd_lands _ _ _

theorem lands_stepAbs (t : Instant) (m : Master) (dom : Fin 4) (v : W64) (s : State) :
    Lands t (.stepAbs t m dom v) s (regPut s.mem (devAt s.dev t) m (.time 0) (0x128 + dom.val * 0x40) (setBit v 0 true)) :=
  cmd_lands _ _ _

theorem lands_stepRel (t : Instant) (m : Master) (dom : Fin 4) (v : W64) (s : State) :
    Lands t (.stepRel t m dom v) s (regPut s.mem (devAt s.dev t) m (.time 0) (0x128 + dom.val * 0x40) (setBit v 1 true)) :=
  cmd_lands _ _ _

theorem lands_timeStepApply (t : Instant) (dom : Fin 4) (s : State) :
    Lands t (.timeStepApply t dom) s (stepApplyOp (devAt s.dev t) dom.val) :=
  cmd_lands _ _ _

theorem lands_syncWatchdog (t : Instant) (dom : Fin 4) (s : State) :
    Lands t (.syncWatchdog t dom) s (syncWatchdogOp (devAt s.dev t) dom.val) :=
  cmd_lands _ _ _

theorem lands_timeSnap (t : Instant) (m : Master) (v : W64) (s : State) :
    Lands t (.timeSnap t m v) s (regPut s.mem (devAt s.dev t) m (.time 0) 0x90 v) :=
  cmd_lands _ _ _

theorem lands_ctrMismatch (t : Instant) (s : State) :
    Lands t (.ctrMismatch t) s (ctrMismatchOp (devAt s.dev t)) :=
  cmd_lands _ _ _

theorem lands_toutArm (t : Instant) (m : Master) (n : Fin 8) (v : W64) (s : State) :
    Lands t (.toutArm t m n v) s (regPut s.mem (devAt s.dev t) m (.time 1) (0x80 + n.val * 0x30) (setBit v 0 true)) :=
  cmd_lands _ _ _

theorem lands_toutStop (t : Instant) (m : Master) (n : Fin 8) (v : W64) (s : State) :
    Lands t (.toutStop t m n v) s (regPut s.mem (devAt s.dev t) m (.time 1) (0x80 + n.val * 0x30) (setBit v 1 true)) :=
  cmd_lands _ _ _

theorem lands_toutEdge (t : Instant) (n : Fin 8) (s : State) :
    Lands t (.toutEdge t n) s (toutEdgeOp (devAt s.dev t) n.val) :=
  cmd_lands _ _ _

theorem lands_tcapEdge (t : Instant) (n : Fin 8) (rising : Bool) (s : State) :
    Lands t (.tcapEdge t n rising) s (tcapEdgeOp (devAt s.dev t) n.val rising) :=
  cmd_lands _ _ _

theorem lands_canFrameReceived (t : Instant) (k : Fin 24) (f : CanFrame) (sof : Instant) (s : State) (h : f.ok = true) :
    Lands t (.canFrameReceived t k f sof) s (canRxOp (devAt s.dev t) k.val f sof) :=
  cmdIf_lands h _ _ _

theorem lands_ferryStart (t : Instant) (e : EccEvent) (s : State) :
    Lands t (.ferryStart t e) s (ferryStartOp (devAt s.dev t) e) :=
  cmd_lands _ _ _

theorem lands_ferryVerdictReturn (t : Instant) (s : State) :
    Lands t (.ferryVerdictReturn t) s (verdictReturnOp (devAt s.dev t)) :=
  cmd_lands _ _ _

theorem lands_aggWindowClose (t : Instant) (i : Fin 64) (s : State) :
    Lands t (.aggWindowClose t i) s (aggCloseOp (devAt s.dev t) i.val) :=
  cmd_lands _ _ _

theorem lands_carrierReceived (t : Instant) (s : State) :
    Lands t (.carrierReceived t) s (carrierReceivedOp (devAt s.dev t)) :=
  cmd_lands _ _ _

theorem lands_canLateError (t : Instant) (k : Fin 24) (onBus : List (Fin 24)) (s : State) :
    Lands t (.canLateError t k onBus) s (lateErrorOp (devAt s.dev t) k.val onBus) :=
  cmd_lands _ _ _

theorem lands_canArbitrationLost (t : Instant) (_k : Fin 24) (s : State) :
    Lands t (.canArbitrationLost t _k) s (devAt s.dev t) :=
  cmd_lands _ _ _

theorem lands_canTxComplete (t : Instant) (k : Fin 24) (x : CanSent) (s : State) :
    Lands t (.canTxComplete t k x) s (canTxCompleteOp (devAt s.dev t) k.val x.sof x.ecc) :=
  cmd_lands _ _ _

theorem lands_canBusError (t : Instant) (k : Fin 24) (e : CanErr) (transmitter : Bool) (s : State) :
    Lands t (.canBusError t k e transmitter) s (canBusErrorOp (devAt s.dev t) k.val e transmitter) :=
  cmd_lands _ _ _

theorem lands_canTxAgeExpiry (t : Instant) (k : Fin 24) (sof : Option Instant) (s : State) :
    Lands t (.canTxAgeExpiry t k sof) s (canAgeOp (devAt s.dev t) k.val sof) :=
  cmd_lands _ _ _

theorem lands_canRecover (t : Instant) (m : Master) (k : Fin 24) (s : State) :
    Lands t (.canRecover t m k) s (regPut s.mem (devAt s.dev t) m (.can k) 0xb8 1) :=
  cmd_lands _ _ _

theorem lands_busOffRecovery (t : Instant) (k : Fin 24) (s : State) :
    Lands t (.busOffRecovery t k) s (busOffRecoveryOp (devAt s.dev t) k.val) :=
  cmd_lands _ _ _

theorem lands_canProtocolException (t : Instant) (k : Fin 24) (s : State) :
    Lands t (.canProtocolException t k) s (protocolExceptionOp (devAt s.dev t) k.val) :=
  cmd_lands _ _ _

theorem lands_busIntegrationEnd (t : Instant) (k : Fin 24) (s : State) :
    Lands t (.busIntegrationEnd t k) s (integrationEndOp (devAt s.dev t) k.val) :=
  cmd_lands _ _ _

theorem lands_canXcvrFault (t : Instant) (k : Fin 24) (s : State) :
    Lands t (.canXcvrFault t k) s (xcvrFaultOp (devAt s.dev t) k.val) :=
  cmd_lands _ _ _

theorem lands_linSlotStart (t : Instant) (l : Fin 8) (s : State) :
    Lands t (.linSlotStart t l) s (linSlotOp (devAt s.dev t) l.val) :=
  cmd_lands _ _ _

theorem lands_linHeaderReceived (t : Instant) (l : Fin 8) (fid : Fin 64) (baud : Nat) (s : State) :
    Lands t (.linHeaderReceived t l fid baud) s (linHeaderOp (devAt s.dev t) l.val fid.val baud) :=
  cmd_lands _ _ _

theorem lands_linFrameReceived (t : Instant) (l : Fin 8) (f : LinFrame) (e : Option LinErr) (start : Instant) (s : State) (h : f.ok = true) :
    Lands t (.linFrameReceived t l f e start) s (linRxOp (devAt s.dev t) l.val f e start) :=
  cmdIf_lands h _ _ _

theorem lands_linNoResponse (t : Instant) (l : Fin 8) (s : State) :
    Lands t (.linNoResponse t l) s (linNoRespOp (devAt s.dev t) l.val) :=
  cmd_lands _ _ _

theorem lands_linGotoSleep (t : Instant) (m : Master) (l : Fin 8) (s : State) :
    Lands t (.linGotoSleep t m l) s (regPut s.mem (devAt s.dev t) m (.lin l) 0x90 1) :=
  cmd_lands _ _ _

theorem lands_linWake (t : Instant) (m : Master) (l : Fin 8) (s : State) :
    Lands t (.linWake t m l) s (regPut s.mem (devAt s.dev t) m (.lin l) 0x90 2) :=
  cmd_lands _ _ _

theorem lands_linResume (t : Instant) (l : Fin 8) (s : State) :
    Lands t (.linResume t l) s (linResumeOp (devAt s.dev t) l.val) :=
  cmd_lands _ _ _

theorem lands_linWakeRx (t : Instant) (l : Fin 8) (s : State) :
    Lands t (.linWakeRx t l) s (linWakeRxOp (devAt s.dev t) l.val) :=
  cmd_lands _ _ _

theorem lands_linBusStuck (t : Instant) (l : Fin 8) (s : State) :
    Lands t (.linBusStuck t l) s (linStuckOp (devAt s.dev t) l.val) :=
  cmd_lands _ _ _

theorem lands_ferryStall (t : Instant) (s : State) :
    Lands t (.ferryStall t) s (ferryStallOp (devAt s.dev t)) :=
  cmd_lands _ _ _

theorem lands_xweTapProcess (t : Instant) (s : State) :
    Lands t (.xweTapProcess t) s (xweTapOp (devAt s.dev t)) :=
  cmd_lands _ _ _

theorem lands_xweTick (t : Instant) (dom : Fin 5) (s : State) :
    Lands t (.xweTick t dom) s (xweTickOp (devAt s.dev t) dom.val) :=
  cmd_lands _ _ _

theorem lands_canWup (t : Instant) (k : Fin 24) (us : Nat) (s : State) :
    Lands t (.canWup t k us) s (canWupOp (devAt s.dev t) k.val us) :=
  cmd_lands _ _ _

theorem lands_buoyFrameDecoded (t : Instant) (k : Fin 24) (r : Decoded) (s : State) (h : r.ok = true) :
    Lands t (.buoyFrameDecoded t k r) s (frameDecodedOp (devAt s.dev t) k.val r) :=
  cmdIf_lands h _ _ _

theorem lands_linWakePulse (t : Instant) (l : Fin 8) (us : Nat) (s : State) :
    Lands t (.linWakePulse t l us) s (linPulseOp (devAt s.dev t) l.val us) :=
  cmd_lands _ _ _

theorem lands_phyWakeDetect (t : Instant) (p : Fin 26) (s : State) :
    Lands t (.phyWakeDetect t p) s (phyWakeOp (devAt s.dev t) p.val) :=
  cmd_lands _ _ _

theorem lands_wakePinEvent (t : Instant) (n : Fin 8) (active : Bool) (s : State) :
    Lands t (.wakePinEvent t n active) s (wakePinOp (devAt s.dev t) n.val active) :=
  cmd_lands _ _ _

theorem lands_keepAlive (t : Instant) (n : Fin 32) (s : State) :
    Lands t (.keepAlive t n) s (keepAliveIn (devAt s.dev t) n.val) :=
  cmd_lands _ _ _

theorem lands_nmLocalWrite (t : Instant) (m : Master) (v : W64) (s : State) :
    Lands t (.nmLocalWrite t m v) s (regPut s.mem (devAt s.dev t) m (.buoy 0) 0x400 v) :=
  cmd_lands _ _ _

theorem lands_nmTimeout (t : Instant) (n : Fin 32) (s : State) :
    Lands t (.nmTimeout t n) s (nmTimeoutOp (devAt s.dev t) n.val) :=
  cmd_lands _ _ _

theorem lands_readySleepExpiry (t : Instant) (n : Fin 32) (s : State) :
    Lands t (.readySleepExpiry t n) s (readySleepOp (devAt s.dev t) n.val) :=
  cmd_lands _ _ _

theorem lands_falseWakeExpiry (t : Instant) (n : Fin 32) (s : State) :
    Lands t (.falseWakeExpiry t n) s (falseWakeOp (devAt s.dev t) n.val) :=
  cmd_lands _ _ _

theorem lands_sleepConditionsMet (t : Instant) (n : Fin 32) (s : State) :
    Lands t (.sleepConditionsMet t n) s (sleepMetOp (devAt s.dev t) n.val) :=
  cmd_lands _ _ _

theorem lands_modeChangeWindowEnd (t : Instant) (n : Fin 32) (s : State) :
    Lands t (.modeChangeWindowEnd t n) s (windowEndOp (devAt s.dev t) n.val) :=
  cmd_lands _ _ _

theorem lands_keeperKick (t : Instant) (m : Master) (s : State) :
    Lands t (.keeperKick t m) s (regBits s.mem (devAt s.dev t) m (.buoy 0) 0x280 2 0) :=
  cmd_lands _ _ _

theorem lands_keeperRelease (t : Instant) (m : Master) (s : State) :
    Lands t (.keeperRelease t m) s (regBits s.mem (devAt s.dev t) m (.buoy 0) 0x280 4 0) :=
  cmd_lands _ _ _

theorem lands_keeperPeriod (t : Instant) (s : State) :
    Lands t (.keeperPeriod t) s (keeperPeriodOp (devAt s.dev t)) :=
  cmd_lands _ _ _

theorem lands_quayClockGate (t : Instant) (q : Fin 4) (s : State) :
    Lands t (.quayClockGate t q) s (quayClockGateOp (devAt s.dev t) q.val) :=
  cmd_lands _ _ _

theorem lands_quayPowerGate (t : Instant) (q : Fin 4) (s : State) :
    Lands t (.quayPowerGate t q) s (quayPowerGateOp (devAt s.dev t) q.val) :=
  cmd_lands _ _ _

theorem lands_quayRestore (t : Instant) (q : Fin 4) (s : State) :
    Lands t (.quayRestore t q) s (quayRestoreOp (devAt s.dev t) q.val) :=
  cmd_lands _ _ _

theorem lands_quayRestoreDone (t : Instant) (q : Fin 4) (s : State) :
    Lands t (.quayRestoreDone t q) s (quayRestoreDoneOp (devAt s.dev t) q.val) :=
  cmd_lands _ _ _

theorem lands_deepDelayExpiry (t : Instant) (s : State) :
    Lands t (.deepDelayExpiry t) s (deepDelayOp (devAt s.dev t)) :=
  cmd_lands _ _ _

theorem lands_hostAccessWake (t : Instant) (_addr : Nat) (s : State) :
    Lands t (.hostAccessWake t _addr) s (hostAccessOp (devAt s.dev t)) :=
  cmd_lands _ _ _

theorem lands_txDoorbell (t : Instant) (q : QueueRef) (v : W64) (s : State) (h : q.ok = true) :
    Lands t (.txDoorbell t q v) s (doorbell s.mem (devAt s.dev t) q false v) :=
  cmdIf_lands h _ _ _

theorem lands_rxDoorbell (t : Instant) (q : QueueRef) (v : W64) (s : State) (h : q.ok = true) :
    Lands t (.rxDoorbell t q v) s (doorbell s.mem (devAt s.dev t) q true v) :=
  cmdIf_lands h _ _ _

theorem lands_pcieReadCompletion (t : Instant) (q : QueueRef) (c : Completion) (s : State) (h : q.ok = true) :
    Lands t (.pcieReadCompletion t q c) s (completionOp (devAt s.dev t) (QueueRef.idx q) c) :=
  cmdIf_lands h _ _ _

theorem lands_pcieCompletionTimeout (t : Instant) (r : PcieRequester) (s : State) (h : r.ok = true) :
    Lands t (.pcieCompletionTimeout t r) s (pcieTimeoutOp (devAt s.dev t) r) :=
  cmdIf_lands h _ _ _

theorem lands_coalesceTimeout (t : Instant) (q : QueueRef) (isRx : Bool) (s : State) (h : q.ok = true) :
    Lands t (.coalesceTimeout t q isRx) s (coalesceOp (devAt s.dev t) (QueueRef.idx q) isRx) :=
  cmdIf_lands h _ _ _

theorem lands_hostQueueEnable (t : Instant) (m : Master) (q : QueueRef) (isRx : Bool) (v : W64) (s : State) (h : q.ok = true) :
    Lands t (.hostQueueEnable t m q isRx v) s (regPut s.mem (devAt s.dev t) m (if q.portC then .scarab 1 else .host 1) (0x108 + q.q.val * 0x40 + (if isRx then 0x20 else 0)) (setBit v 4 true)) :=
  cmdIf_lands h _ _ _

theorem lands_pcieLinkChange (t : Instant) (k : PcieLink) (s : State) :
    Lands t (.pcieLinkChange t k) s (pcieLinkOp (devAt s.dev t) k) :=
  cmd_lands _ _ _

theorem lands_spiTransaction (t : Instant) (mosi : List Byte) (words : Nat) (s : State) :
    Lands t (.spiTransaction t mosi words) s (spiOp s.mem (devAt s.dev t) mosi words) :=
  cmd_lands _ _ _

theorem lands_inbandRequest (t : Instant) (octets : List Byte) (s : State) :
    Lands t (.inbandRequest t octets) s (inbandOp s.mem (devAt s.dev t) octets) :=
  cmd_lands _ _ _

theorem lands_mboxReqWrite (t : Instant) (m : Master) (ch : Fin 4) (v : W64) (s : State) :
    Lands t (.mboxReqWrite t m ch v) s (regPut s.mem (devAt s.dev t) m (mboxPg ch.val) 0x800 v) :=
  cmd_lands _ _ _

theorem lands_mboxRing (t : Instant) (m : Master) (ch : Fin 4) (s : State) :
    Lands t (.mboxRing t m ch) s (regPut s.mem (devAt s.dev t) m (mboxPg ch.val) 0x80 1) :=
  cmd_lands _ _ _

theorem lands_mboxAck (t : Instant) (m : Master) (ch : Fin 4) (s : State) :
    Lands t (.mboxAck t m ch) s (regPut s.mem (devAt s.dev t) m (mboxPg ch.val) 0x80 2) :=
  cmd_lands _ _ _

theorem lands_version (t : Instant) (ch : Fin 4) (s : State) :
    Lands t (.version t ch) s (versionOp (devAt s.dev t) ch.val) :=
  cmd_lands _ _ _

theorem lands_keyWrite (t : Instant) (ch : Fin 4) (s : State) :
    Lands t (.keyWrite t ch) s (mboxKeyWriteOp (devAt s.dev t) ch.val) :=
  cmd_lands _ _ _

theorem lands_keyGenerate (t : Instant) (ch : Fin 4) (s : State) :
    Lands t (.keyGenerate t ch) s (mboxKeyGenOp (devAt s.dev t) ch.val) :=
  cmd_lands _ _ _

theorem lands_keyAttest (t : Instant) (ch : Fin 4) (s : State) :
    Lands t (.keyAttest t ch) s (keyAttestOp (devAt s.dev t) ch.val) :=
  cmd_lands _ _ _

theorem lands_devAttest (t : Instant) (ch : Fin 4) (s : State) :
    Lands t (.devAttest t ch) s (devAttestOp (devAt s.dev t) ch.val) :=
  cmd_lands _ _ _

theorem lands_updOpen (t : Instant) (ch : Fin 4) (s : State) :
    Lands t (.updOpen t ch) s (updOpenOp (devAt s.dev t) ch.val) :=
  cmd_lands _ _ _

theorem lands_updBlock (t : Instant) (x : BlockStart) (s : State) :
    Lands t (.updBlock t x) s (updBlockOp (devAt s.dev t) x.ch.val x.readOk) :=
  cmd_lands _ _ _

theorem lands_updFinish (t : Instant) (x : ReadStart) (s : State) :
    Lands t (.updFinish t x) s (updFinishOp s.mem (devAt s.dev t) x.ch.val x.ecc) :=
  cmd_lands _ _ _

theorem lands_updActivate (t : Instant) (x : ReadStart) (s : State) :
    Lands t (.updActivate t x) s (updActivateOp s.mem (devAt s.dev t) x.ch.val x.ecc) :=
  cmd_lands _ _ _

theorem lands_updAbort (t : Instant) (ch : Fin 4) (s : State) :
    Lands t (.updAbort t ch) s (updAbortOp (devAt s.dev t) ch.val) :=
  cmd_lands _ _ _

theorem lands_dbgChallenge (t : Instant) (ch : Fin 4) (s : State) :
    Lands t (.dbgChallenge t ch) s (dbgChallengeOp (devAt s.dev t) ch.val) :=
  cmd_lands _ _ _

theorem lands_dbgUnlock (t : Instant) (ch : Fin 4) (s : State) :
    Lands t (.dbgUnlock t ch) s (dbgUnlockOp (devAt s.dev t) ch.val) :=
  cmd_lands _ _ _

theorem lands_pairStatus (t : Instant) (ch : Fin 4) (s : State) :
    Lands t (.pairStatus t ch) s (pairStatusOp (devAt s.dev t) ch.val) :=
  cmd_lands _ _ _

theorem lands_pairYield (t : Instant) (ch : Fin 4) (s : State) :
    Lands t (.pairYield t ch) s (pairYieldOp (devAt s.dev t) ch.val) :=
  cmd_lands _ _ _

theorem lands_manifestSeal (t : Instant) (ch : Fin 4) (s : State) :
    Lands t (.manifestSeal t ch) s (manifestSealOp (devAt s.dev t) ch.val) :=
  cmd_lands _ _ _

theorem lands_manifestRead (t : Instant) (x : ReadStart) (s : State) :
    Lands t (.manifestRead t x) s (manifestReadOp (devAt s.dev t) x.ch.val x.ecc) :=
  cmd_lands _ _ _

theorem lands_lcTransition (t : Instant) (ch : Fin 4) (s : State) :
    Lands t (.lcTransition t ch) s (lcTransitionOp (devAt s.dev t) ch.val) :=
  cmd_lands _ _ _

theorem lands_lcTransitionReset (t : Instant) (s : State) :
    Lands t (.lcTransitionReset t) s (lcResetOp (devAt s.dev t)) :=
  cmd_lands _ _ _

theorem lands_lighterArm (t : Instant) (m : Master) (c : Fin 32) (s : State) :
    Lands t (.lighterArm t m c) s (regPut s.mem (devAt s.dev t) m (ltPg c.val) (ltOff c.val 0x60) 1) :=
  cmd_lands _ _ _

theorem lands_lighterHandover (t : Instant) (c : Fin 32) (s : State) :
    Lands t (.lighterHandover t c) s (ltHandoverOp (devAt s.dev t) c.val) :=
  cmd_lands _ _ _

theorem lands_lighterBurst (t : Instant) (c : Fin 32) (hostData : Option (List Byte)) (s : State) :
    Lands t (.lighterBurst t c hostData) s (lighterBurstOp s.mem (devAt s.dev t) c.val hostData) :=
  cmd_lands _ _ _

theorem lands_lighterStop (t : Instant) (m : Master) (c : Fin 32) (s : State) :
    Lands t (.lighterStop t m c) s (regPut s.mem (devAt s.dev t) m (ltPg c.val) (ltOff c.val 0x20) 2) :=
  cmd_lands _ _ _

theorem lands_lighterResume (t : Instant) (m : Master) (c : Fin 32) (s : State) :
    Lands t (.lighterResume t m c) s (regPut s.mem (devAt s.dev t) m (ltPg c.val) (ltOff c.val 0x20) 4) :=
  cmd_lands _ _ _

theorem lands_lighterAbortNow (t : Instant) (m : Master) (c : Fin 32) (s : State) :
    Lands t (.lighterAbortNow t m c) s (regPut s.mem (devAt s.dev t) m (ltPg c.val) (ltOff c.val 0x20) 1) :=
  cmd_lands _ _ _

theorem lands_tamperDetect (t : Instant) (b : Fin 16) (s : State) :
    Lands t (.tamperDetect t b) s (tamperDetectOp (devAt s.dev t) b.val) :=
  cmd_lands _ _ _

theorem lands_carCmdWrite (t : Instant) (m : Master) (slot : Fin 256) (s : State) :
    Lands t (.carCmdWrite t m slot) s (regPut s.mem (devAt s.dev t) m .carapace 0x100 (mkWord [(0, 1), (4, slot.val), (12, 1)])) :=
  cmd_lands _ _ _

theorem lands_carCmdGenerate (t : Instant) (m : Master) (slot : Fin 256) (s : State) :
    Lands t (.carCmdGenerate t m slot) s (regPut s.mem (devAt s.dev t) m .carapace 0x100 (mkWord [(0, 2), (4, slot.val), (12, 1)])) :=
  cmd_lands _ _ _

theorem lands_carCmdDestroy (t : Instant) (m : Master) (slot : Fin 256) (s : State) :
    Lands t (.carCmdDestroy t m slot) s (regPut s.mem (devAt s.dev t) m .carapace 0x100 (mkWord [(0, 3), (4, slot.val), (12, 1)])) :=
  cmd_lands _ _ _

theorem lands_carCmdWrapExport (t : Instant) (m : Master) (slot : Fin 256) (s : State) :
    Lands t (.carCmdWrapExport t m slot) s (regPut s.mem (devAt s.dev t) m .carapace 0x100 (mkWord [(0, 4), (4, slot.val), (12, 1)])) :=
  cmd_lands _ _ _

theorem lands_carCmdUnwrapImport (t : Instant) (m : Master) (slot : Fin 256) (s : State) :
    Lands t (.carCmdUnwrapImport t m slot) s (regPut s.mem (devAt s.dev t) m .carapace 0x100 (mkWord [(0, 5), (4, slot.val), (12, 1)])) :=
  cmd_lands _ _ _

theorem lands_carCmdDerive (t : Instant) (m : Master) (slot : Fin 256) (s : State) :
    Lands t (.carCmdDerive t m slot) s (regPut s.mem (devAt s.dev t) m .carapace 0x100 (mkWord [(0, 6), (4, slot.val), (12, 1)])) :=
  cmd_lands _ _ _

theorem lands_carCmdDone (t : Instant) (s : State) :
    Lands t (.carCmdDone t) s (carDone (devAt s.dev t)) :=
  cmd_lands _ _ _

theorem lands_slotIntegrityPass (t : Instant) (bad : Option (Fin 256)) (s : State) :
    Lands t (.slotIntegrityPass t bad) s (match bad with | some x => slotBad (devAt s.dev t) x.val | none => (devAt s.dev t)) :=
  cmd_lands _ _ _

theorem lands_trngHealthFail (t : Instant) (s : State) :
    Lands t (.trngHealthFail t) s (trngFailOp (devAt s.dev t)) :=
  cmd_lands _ _ _

theorem lands_trngRecovery (t : Instant) (s : State) :
    Lands t (.trngRecovery t) s (trngRecoverOp (devAt s.dev t)) :=
  cmd_lands _ _ _

theorem lands_drbgReseed (t : Instant) (s : State) :
    Lands t (.drbgReseed t) s (reseedOp (devAt s.dev t)) :=
  cmd_lands _ _ _

theorem lands_macsecKeyRecheck (t : Instant) (p : Fin 26) (s : State) :
    Lands t (.macsecKeyRecheck t p) s (macsecRecheck (devAt s.dev t) p.val) :=
  cmd_lands _ _ _

theorem lands_manifestSubmit (t : Instant) (m : Master) (s : State) :
    Lands t (.manifestSubmit t m) s (regPut s.mem (devAt s.dev t) m .manifest 0xe0 1) :=
  cmd_lands _ _ _

theorem lands_manifestSubSeal (t : Instant) (m : Master) (s : State) :
    Lands t (.manifestSubSeal t m) s (regPut s.mem (devAt s.dev t) m .manifest 0xe0 2) :=
  cmd_lands _ _ _

theorem lands_manifestRecordWrite (t : Instant) (ok : Bool) (s : State) :
    Lands t (.manifestRecordWrite t ok) s (manWriteOp (devAt s.dev t) ok) :=
  cmd_lands _ _ _

theorem lands_sealSigned (t : Instant) (s : State) :
    Lands t (.sealSigned t) s (sealSignedOp (devAt s.dev t)) :=
  cmd_lands _ _ _

theorem lands_scarabOutputMinority (t : Instant) (o0 o1 o2 : W64) (s : State) :
    Lands t (.scarabOutputMinority t o0 o1 o2) s (voteOp (devAt s.dev t) o0 o1 o2 1) :=
  cmd_lands _ _ _

theorem lands_digestCompare (t : Instant) (d0 d1 d2 : W64) (s : State) :
    Lands t (.digestCompare t d0 d1 d2) s (digestVoteOp (devAt s.dev t) d0 d1 d2) :=
  cmd_lands _ _ _

theorem lands_voterMismatch (t : Instant) (s : State) :
    Lands t (.voterMismatch t) s (voterMismatchOp (devAt s.dev t)) :=
  cmd_lands _ _ _

theorem lands_voterSelftest (t : Instant) (ok : Bool) (s : State) :
    Lands t (.voterSelftest t ok) s (selftestDueOp (devAt s.dev t) ok) :=
  cmd_lands _ _ _

theorem lands_scarabSelftestNow (t : Instant) (m : Master) (ok : Bool) (s : State) :
    Lands t (.scarabSelftestNow t m ok) s (guardedAt (quayTouch (devAt s.dev t) (.scarab 0)) m (.scarab 0) 0x88 fun d => selftestOp d ok) :=
  cmd_lands _ _ _

theorem lands_scarabModeReq (t : Instant) (m : Master) (s : State) :
    Lands t (.scarabModeReq t m) s (regPut s.mem (devAt s.dev t) m (.scarab 0) 0x90 1) :=
  cmd_lands _ _ _

theorem lands_kcoreinfoRead (t : Instant) (core : Fin 3) (s : State) :
    Lands t (.kcoreinfoRead t core) s (kcoreinfoOp (devAt s.dev t) core.val) :=
  cmd_lands _ _ _

theorem lands_faultEvent (t : Instant) (src : Fin 512) (s : State) :
    Lands t (.faultEvent t src) s (faultEventOp (devAt s.dev t) src.val) :=
  cmd_lands _ _ _

theorem lands_supplyOutOfWindow (t : Instant) (r : Rail) (s : State) :
    Lands t (.supplyOutOfWindow t r) s (railOp (devAt s.dev t) r) :=
  cmd_lands _ _ _

theorem lands_tjThreshold (t : Instant) (crit : Bool) (s : State) :
    Lands t (.tjThreshold t crit) s (tjOp (devAt s.dev t) crit) :=
  cmd_lands _ _ _

theorem lands_chipResetAssert (t : Instant) (s : State) :
    Lands t (.chipResetAssert t) s (chipResetAssertOp (devAt s.dev t)) :=
  cmd_lands _ _ _

theorem lands_resetShadowClose (t : Instant) (pg : Page) (s : State) (h : pg.Exists = true) :
    Lands t (.resetShadowClose t pg) s (closeShadowOp (devAt s.dev t) pg) :=
  cmdIf_lands h _ _ _

theorem lands_faultnMinEnd (t : Instant) (s : State) :
    Lands t (.faultnMinEnd t) s (faultMinOp (devAt s.dev t)) :=
  cmd_lands _ _ _

theorem lands_faultnRelease (t : Instant) (m : Master) (v : W64) (s : State) :
    Lands t (.faultnRelease t m v) s (regPut s.mem (devAt s.dev t) m (.fcn 0) 0x90 (setBit v 0 true)) :=
  cmd_lands _ _ _

theorem lands_faultnAssert (t : Instant) (m : Master) (v : W64) (s : State) :
    Lands t (.faultnAssert t m v) s (regPut s.mem (devAt s.dev t) m (.fcn 0) 0x90 (setBit v 1 true)) :=
  cmd_lands _ _ _

theorem lands_fcnSelftest (t : Instant) (ok : Bool) (s : State) :
    Lands t (.fcnSelftest t ok) s (if fcnSelftestDue (devAt s.dev t) then fcnSelftestOp (devAt s.dev t) ok else (devAt s.dev t)) :=
  cmd_lands _ _ _

theorem lands_fcnSelftestNow (t : Instant) (m : Master) (ok : Bool) (s : State) :
    Lands t (.fcnSelftestNow t m ok) s (guardedAt (devAt s.dev t) m (.fcn 0) 0xa8 fun d => fcnSelftestOp d ok) :=
  cmd_lands _ _ _

theorem lands_fcnSrcWrite (t : Instant) (m : Master) (src : Fin 512) (v : W64) (s : State) :
    Lands t (.fcnSrcWrite t m src v) s (regPut s.mem (devAt s.dev t) m (.fcn (if src.val < 256 then 1 else 2)) (0x800 + src.val % 256 * 8) v) :=
  cmd_lands _ _ _

theorem lands_extest (t : Instant) (bsr : List Bool) (s : State) :
    Lands t (.extest t bsr) s (extestOp (devAt s.dev t) bsr) :=
  cmd_lands _ _ _

theorem lands_idcode (t : Instant) (s : State) :
    Lands t (.idcode t) s (idcodeOp (devAt s.dev t)) :=
  cmd_lands _ _ _

theorem lands_samplePreload (t : Instant) (bsr : List Bool) (s : State) :
    Lands t (.samplePreload t bsr) s (sampleOp (devAt s.dev t) bsr) :=
  cmd_lands _ _ _

theorem lands_clamp (t : Instant) (s : State) :
    Lands t (.clamp t) s (clampOp (devAt s.dev t)) :=
  cmd_lands _ _ _

theorem lands_dbgChal (t : Instant) (s : State) :
    Lands t (.dbgChal t) s (dbgChalOp (devAt s.dev t)) :=
  cmd_lands _ _ _

theorem lands_dbgToken (t : Instant) (octets : List Byte) (s : State) :
    Lands t (.dbgToken t octets) s (tapTokenOp (devAt s.dev t) octets) :=
  cmd_lands _ _ _

theorem lands_dbgClose (t : Instant) (s : State) :
    Lands t (.dbgClose t) s (tapCloseOp (devAt s.dev t)) :=
  cmd_lands _ _ _

theorem lands_dmi (t : Instant) (r : DmiReq) (s : State) :
    Lands t (.dmi t r) s (dmiOp s.mem (devAt s.dev t) r) :=
  cmd_lands _ _ _

theorem lands_bypass (t : Instant) (s : State) :
    Lands t (.bypass t) s (bypassOp (devAt s.dev t)) :=
  cmd_lands _ _ _

theorem lands_dbgCtrlClose (t : Instant) (m : Master) (s : State) :
    Lands t (.dbgCtrlClose t m) s (regBits s.mem (devAt s.dev t) m .dbg 0x90 1 0) :=
  cmd_lands _ _ _

theorem lands_dbgSessionExpiry (t : Instant) (s : State) :
    Lands t (.dbgSessionExpiry t) s (sessionExpiryOp (devAt s.dev t)) :=
  cmd_lands _ _ _

theorem lands_dbgNonceExpiry (t : Instant) (s : State) :
    Lands t (.dbgNonceExpiry t) s (dbgNonceOp (devAt s.dev t)) :=
  cmd_lands _ _ _

theorem lands_dbgLockoutEnd (t : Instant) (s : State) :
    Lands t (.dbgLockoutEnd t) s (lockoutEndOp (devAt s.dev t)) :=
  cmd_lands _ _ _

theorem lands_claimRoundStart (t : Instant) (s : State) :
    Lands t (.claimRoundStart t) s (roundStartOp (devAt s.dev t)) :=
  cmd_lands _ _ _

theorem lands_claimRoundEnd (t : Instant) (bus : List Bool) (s : State) (h : (bus.length == 8) = true) :
    Lands t (.claimRoundEnd t bus) s (roundEndOp (devAt s.dev t) bus) :=
  cmdIf_lands h _ _ _

theorem lands_pairKick (t : Instant) (m : Master) (s : State) :
    Lands t (.pairKick t m) s (regPut s.mem (devAt s.dev t) m (.pair 0) 0x90 1) :=
  cmd_lands _ _ _

theorem lands_heartbeatSend (t : Instant) (s : State) :
    Lands t (.heartbeatSend t) s (hbSendOp (devAt s.dev t)) :=
  cmd_lands _ _ _

theorem lands_heartbeatReceived (t : Instant) (path : Fin 2) (octets : List Byte) (s : State) :
    Lands t (.heartbeatReceived t path octets) s (hbRxOp (devAt s.dev t) path.val octets) :=
  cmd_lands _ _ _

theorem lands_heartbeatMiss (t : Instant) (path : Fin 2) (s : State) :
    Lands t (.heartbeatMiss t path) s (hbMissOp (devAt s.dev t) path.val) :=
  cmd_lands _ _ _

theorem lands_digestIntervalClose (t : Instant) (syncOk : Bool) (s : State) :
    Lands t (.digestIntervalClose t syncOk) s (digestCloseOp (devAt s.dev t) syncOk) :=
  cmd_lands _ _ _

theorem lands_rotBankAdvance (t : Instant) (s : State) :
    Lands t (.rotBankAdvance t) s (rotAdvanceOp (devAt s.dev t)) :=
  cmd_lands _ _ _

theorem lands_rotBankTest (t : Instant) (failing : Option Nat) (s : State) :
    Lands t (.rotBankTest t failing) s (rotTestOp (devAt s.dev t) failing) :=
  cmd_lands _ _ _

theorem lands_offlineTest (t : Instant) (m : Master) (s : State) :
    Lands t (.offlineTest t m) s (regPut s.mem (devAt s.dev t) m (.pair 0) 0x98 1) :=
  cmd_lands _ _ _

theorem lands_offlineTestEnd (t : Instant) (s : State) :
    Lands t (.offlineTestEnd t) s (offlineEnd (devAt s.dev t)) :=
  cmd_lands _ _ _

theorem lands_yieldClaimRelease (t : Instant) (s : State) :
    Lands t (.yieldClaimRelease t) s (yieldReleaseOp (devAt s.dev t)) :=
  cmd_lands _ _ _

theorem lands_pairNonceExpiry (t : Instant) (s : State) :
    Lands t (.pairNonceExpiry t) s (pairNonceOp (devAt s.dev t)) :=
  cmd_lands _ _ _

theorem lands_bootSelect (x : BootStart) (s : State) :
    exec (.bootSelect x) s = .next (landedM x.at0 s ((fun d0 d1 m => if d0.car.lcNext.isSome ∧ d1.car.lcNext.isNone then wipeSram m else m) (devAt s.dev x.at0)) (bootSelectOp s.mem (devAt s.dev x.at0) x.ecc)) :=
  cmdM_lands _ _ _ _

theorem lands_updConfirm (t : Instant) (m : Master) (s : State) :
    Lands t (.updConfirm t m) s (regPut s.mem (devAt s.dev t) m .upd 0xb8 1) :=
  cmd_lands _ _ _

theorem lands_confirmTimeout (t : Instant) (s : State) :
    Lands t (.confirmTimeout t) s (confirmTimeoutOp (devAt s.dev t)) :=
  cmd_lands _ _ _

theorem lands_updLockTimeout (t : Instant) (s : State) :
    Lands t (.updLockTimeout t) s (updTimeoutOp (devAt s.dev t)) :=
  cmd_lands _ _ _

theorem lands_activationReset (t : Instant) (s : State) :
    Lands t (.activationReset t) s (activationOp (devAt s.dev t)) :=
  cmd_lands _ _ _

theorem lands_powerOnReset (t : Instant) (straps : Straps) (s : State) :
    exec (.powerOnReset t straps) s = .next (landedM t s ((fun d0 _ m => if d0.fcn.safe then m else wipeSram m) (devAt s.dev t)) (powerOnResetOp (devAt s.dev t) straps)) :=
  cmdM_lands _ _ _ _

theorem lands_resetN (t : Instant) (s : State) :
    Lands t (.resetN t) s (resetNOp (devAt s.dev t)) :=
  cmd_lands _ _ _

theorem lands_pciePerstN (t : Instant) (s : State) :
    Lands t (.pciePerstN t) s (perstOp (devAt s.dev t)) :=
  cmd_lands _ _ _

theorem lands_powerUpTimeout (t : Instant) (s : State) :
    Lands t (.powerUpTimeout t) s (powerUpTimeoutOp (devAt s.dev t)) :=
  cmd_lands _ _ _

theorem lands_supplyLoss (t : Instant) (aon : Bool) (vbatOk : Bool) (s : State) :
    exec (.supplyLoss t aon vbatOk) s = .next (landedM t s ((fun _ _ m => wipeSram m) (devAt s.dev t)) (supplyLossOp (devAt s.dev t) aon vbatOk)) :=
  cmdM_lands _ _ _ _

theorem lands_registerRead (t : Instant) (m : Master) (addr : Nat) (width : Nat) (s : State) (h : width ≤ 3) :
    Lands t (.registerRead t m addr width) s (masterRead s.mem (devAt s.dev t) m addr width) :=
  cmdIf_lands (by simpa using h) _ _ _

theorem lands_resyncDone (t : Instant) (s : State) :
    Lands t (.resyncDone t) s (resyncDoneOp (devAt s.dev t)) :=
  cmd_lands _ _ _

theorem lands_powerStateReached (t : Instant) (s : State) :
    exec (.powerStateReached t) s = .next (landedM t s ((fun d0 d1 m => if 4 ≤ pwrState d1 ∧ pwrState d0 < 4 then wipeSram m else m) (devAt s.dev t)) (stateReachedOp (devAt s.dev t))) :=
  cmdM_lands _ _ _ _

theorem lands_exitDone (t : Instant) (s : State) :
    Lands t (.exitDone t) s (exitDoneOp (devAt s.dev t)) :=
  cmd_lands _ _ _

theorem lands_pauseExpiry (t : Instant) (p : Fin 26) (s : State) :
    Lands t (.pauseExpiry t p) s (pauseExpiryOp (devAt s.dev t) p.val) :=
  cmd_lands _ _ _

theorem lands_rxLpiChange (t : Instant) (p : Fin 26) (on : Bool) (s : State) :
    Lands t (.rxLpiChange t p on) s (rxLpiOp (devAt s.dev t) p.val on) :=
  cmd_lands _ _ _

theorem lands_cbsCreditRecovered (t : Instant) (p : Fin 26) (tc : Fin 8) (s : State) :
    Lands t (.cbsCreditRecovered t p tc) s (cbsOne (devAt s.dev t) p.val tc.val) :=
  cmd_lands _ _ _

end Sys2Proof.Machine
end

