-- ==== Sys2Proof/Laws/State.lean ====
section
/-! SUPPORT. Each field of the device after each of the plain updates: a register written, a field or a bit of it, a counter, a word of
a table window, something that leaves the device, one part of the device changed. -/

namespace Sys2Proof.Machine

@[simp] theorem State.reset_pending : State.reset.pending = [] := rfl
@[simp] theorem State.reset_mem : State.reset.mem = [] := rfl

/-! ### `wr` -/

@[simp] theorem wr_now (d : Dev) (pg : Page) (off : Nat) (v : W64) : (wr d pg off v).now = d.now := rfl
@[simp] theorem wr_act (d : Dev) (pg : Page) (off : Nat) (v : W64) : (wr d pg off v).act = d.act := rfl
@[simp] theorem wr_frz (d : Dev) (pg : Page) (off : Nat) (v : W64) : (wr d pg off v).frz = d.frz := rfl
@[simp] theorem wr_frzSel (d : Dev) (pg : Page) (off : Nat) (v : W64) : (wr d pg off v).frzSel = d.frzSel := rfl
@[simp] theorem wr_tbl (d : Dev) (pg : Page) (off : Nat) (v : W64) : (wr d pg off v).tbl = d.tbl := rfl
@[simp] theorem wr_epoch (d : Dev) (pg : Page) (off : Nat) (v : W64) : (wr d pg off v).epoch = d.epoch := rfl
@[simp] theorem wr_retired (d : Dev) (pg : Page) (off : Nat) (v : W64) : (wr d pg off v).retired = d.retired := rfl
@[simp] theorem wr_srst (d : Dev) (pg : Page) (off : Nat) (v : W64) : (wr d pg off v).srst = d.srst := rfl
@[simp] theorem wr_commitAt (d : Dev) (pg : Page) (off : Nat) (v : W64) : (wr d pg off v).commitAt = d.commitAt := rfl
@[simp] theorem wr_refillAt (d : Dev) (pg : Page) (off : Nat) (v : W64) : (wr d pg off v).refillAt = d.refillAt := rfl
@[simp] theorem wr_tideRef (d : Dev) (pg : Page) (off : Nat) (v : W64) : (wr d pg off v).tideRef = d.tideRef := rfl
@[simp] theorem wr_sigFrom (d : Dev) (pg : Page) (off : Nat) (v : W64) : (wr d pg off v).sigFrom = d.sigFrom := rfl
@[simp] theorem wr_frees (d : Dev) (pg : Page) (off : Nat) (v : W64) : (wr d pg off v).frees = d.frees := rfl
@[simp] theorem wr_evq (d : Dev) (pg : Page) (off : Nat) (v : W64) : (wr d pg off v).evq = d.evq := rfl
@[simp] theorem wr_out (d : Dev) (pg : Page) (off : Nat) (v : W64) : (wr d pg off v).out = d.out := rfl
@[simp] theorem wr_memOut (d : Dev) (pg : Page) (off : Nat) (v : W64) : (wr d pg off v).memOut = d.memOut := rfl
@[simp] theorem wr_fcn (d : Dev) (pg : Page) (off : Nat) (v : W64) : (wr d pg off v).fcn = d.fcn := rfl
@[simp] theorem wr_time (d : Dev) (pg : Page) (off : Nat) (v : W64) : (wr d pg off v).time = d.time := rfl
@[simp] theorem wr_quays (d : Dev) (pg : Page) (off : Nat) (v : W64) : (wr d pg off v).quays = d.quays := rfl
@[simp] theorem wr_ports (d : Dev) (pg : Page) (off : Nat) (v : W64) : (wr d pg off v).ports = d.ports := rfl
@[simp] theorem wr_tx (d : Dev) (pg : Page) (off : Nat) (v : W64) : (wr d pg off v).tx = d.tx := rfl
@[simp] theorem wr_susp (d : Dev) (pg : Page) (off : Nat) (v : W64) : (wr d pg off v).susp = d.susp := rfl
@[simp] theorem wr_gates (d : Dev) (pg : Page) (off : Nat) (v : W64) : (wr d pg off v).gates = d.gates := rfl
@[simp] theorem wr_credits (d : Dev) (pg : Page) (off : Nat) (v : W64) : (wr d pg off v).credits = d.credits := rfl
@[simp] theorem wr_filters (d : Dev) (pg : Page) (off : Nat) (v : W64) : (wr d pg off v).filters = d.filters := rfl
@[simp] theorem wr_meters (d : Dev) (pg : Page) (off : Nat) (v : W64) : (wr d pg off v).meters = d.meters := rfl
@[simp] theorem wr_pend (d : Dev) (pg : Page) (off : Nat) (v : W64) : (wr d pg off v).pend = d.pend := rfl
@[simp] theorem wr_agedAt (d : Dev) (pg : Page) (off : Nat) (v : W64) : (wr d pg off v).agedAt = d.agedAt := rfl
@[simp] theorem wr_nextFid (d : Dev) (pg : Page) (off : Nat) (v : W64) : (wr d pg off v).nextFid = d.nextFid := rfl
@[simp] theorem wr_frerQ (d : Dev) (pg : Page) (off : Nat) (v : W64) : (wr d pg off v).frerQ = d.frerQ := rfl
@[simp] theorem wr_flush (d : Dev) (pg : Page) (off : Nat) (v : W64) : (wr d pg off v).flush = d.flush := rfl
@[simp] theorem wr_diagSer (d : Dev) (pg : Page) (off : Nat) (v : W64) : (wr d pg off v).diagSer = d.diagSer := rfl
@[simp] theorem wr_evidAt (d : Dev) (pg : Page) (off : Nat) (v : W64) : (wr d pg off v).evidAt = d.evidAt := rfl
@[simp] theorem wr_rateRem (d : Dev) (pg : Page) (off : Nat) (v : W64) : (wr d pg off v).rateRem = d.rateRem := rfl
@[simp] theorem wr_logAt (d : Dev) (pg : Page) (off : Nat) (v : W64) : (wr d pg off v).logAt = d.logAt := rfl
@[simp] theorem wr_retired1 (d : Dev) (pg : Page) (off : Nat) (v : W64) : (wr d pg off v).retired1 = d.retired1 := rfl
@[simp] theorem wr_scrub (d : Dev) (pg : Page) (off : Nat) (v : W64) : (wr d pg off v).scrub = d.scrub := rfl
@[simp] theorem wr_ferryIn (d : Dev) (pg : Page) (off : Nat) (v : W64) : (wr d pg off v).ferryIn = d.ferryIn := rfl
@[simp] theorem wr_ferry (d : Dev) (pg : Page) (off : Nat) (v : W64) : (wr d pg off v).ferry = d.ferry := rfl
@[simp] theorem wr_cans (d : Dev) (pg : Page) (off : Nat) (v : W64) : (wr d pg off v).cans = d.cans := rfl
@[simp] theorem wr_lins (d : Dev) (pg : Page) (off : Nat) (v : W64) : (wr d pg off v).lins = d.lins := rfl
@[simp] theorem wr_tapQ (d : Dev) (pg : Page) (off : Nat) (v : W64) : (wr d pg off v).tapQ = d.tapQ := rfl
@[simp] theorem wr_manQ (d : Dev) (pg : Page) (off : Nat) (v : W64) : (wr d pg off v).manQ = d.manQ := rfl
@[simp] theorem wr_car (d : Dev) (pg : Page) (off : Nat) (v : W64) : (wr d pg off v).car = d.car := rfl
@[simp] theorem wr_man (d : Dev) (pg : Page) (off : Nat) (v : W64) : (wr d pg off v).man = d.man := rfl
@[simp] theorem wr_diagPrev (d : Dev) (pg : Page) (off : Nat) (v : W64) : (wr d pg off v).diagPrev = d.diagPrev := rfl
@[simp] theorem wr_commitBy (d : Dev) (pg : Page) (off : Nat) (v : W64) : (wr d pg off v).commitBy = d.commitBy := rfl
@[simp] theorem wr_host (d : Dev) (pg : Page) (off : Nat) (v : W64) : (wr d pg off v).host = d.host := rfl
@[simp] theorem wr_xwe (d : Dev) (pg : Page) (off : Nat) (v : W64) : (wr d pg off v).xwe = d.xwe := rfl
@[simp] theorem wr_pair (d : Dev) (pg : Page) (off : Nat) (v : W64) : (wr d pg off v).pair = d.pair := rfl
@[simp] theorem wr_buoy (d : Dev) (pg : Page) (off : Nat) (v : W64) : (wr d pg off v).buoy = d.buoy := rfl
@[simp] theorem wr_pwr (d : Dev) (pg : Page) (off : Nat) (v : W64) : (wr d pg off v).pwr = d.pwr := rfl
@[simp] theorem wr_scarab (d : Dev) (pg : Page) (off : Nat) (v : W64) : (wr d pg off v).scarab = d.scarab := rfl
@[simp] theorem wr_dbg (d : Dev) (pg : Page) (off : Nat) (v : W64) : (wr d pg off v).dbg = d.dbg := rfl
@[simp] theorem wr_boot (d : Dev) (pg : Page) (off : Nat) (v : W64) : (wr d pg off v).boot = d.boot := rfl

/-! ### `wf` -/

@[simp] theorem wf_now (d : Dev) (pg : Page) (off lo len x : Nat) : (wf d pg off lo len x).now = d.now := rfl
@[simp] theorem wf_act (d : Dev) (pg : Page) (off lo len x : Nat) : (wf d pg off lo len x).act = d.act := rfl
@[simp] theorem wf_frz (d : Dev) (pg : Page) (off lo len x : Nat) : (wf d pg off lo len x).frz = d.frz := rfl
@[simp] theorem wf_frzSel (d : Dev) (pg : Page) (off lo len x : Nat) : (wf d pg off lo len x).frzSel = d.frzSel := rfl
@[simp] theorem wf_tbl (d : Dev) (pg : Page) (off lo len x : Nat) : (wf d pg off lo len x).tbl = d.tbl := rfl
@[simp] theorem wf_epoch (d : Dev) (pg : Page) (off lo len x : Nat) : (wf d pg off lo len x).epoch = d.epoch := rfl
@[simp] theorem wf_retired (d : Dev) (pg : Page) (off lo len x : Nat) : (wf d pg off lo len x).retired = d.retired := rfl
@[simp] theorem wf_srst (d : Dev) (pg : Page) (off lo len x : Nat) : (wf d pg off lo len x).srst = d.srst := rfl
@[simp] theorem wf_commitAt (d : Dev) (pg : Page) (off lo len x : Nat) : (wf d pg off lo len x).commitAt = d.commitAt := rfl
@[simp] theorem wf_refillAt (d : Dev) (pg : Page) (off lo len x : Nat) : (wf d pg off lo len x).refillAt = d.refillAt := rfl
@[simp] theorem wf_tideRef (d : Dev) (pg : Page) (off lo len x : Nat) : (wf d pg off lo len x).tideRef = d.tideRef := rfl
@[simp] theorem wf_sigFrom (d : Dev) (pg : Page) (off lo len x : Nat) : (wf d pg off lo len x).sigFrom = d.sigFrom := rfl
@[simp] theorem wf_frees (d : Dev) (pg : Page) (off lo len x : Nat) : (wf d pg off lo len x).frees = d.frees := rfl
@[simp] theorem wf_evq (d : Dev) (pg : Page) (off lo len x : Nat) : (wf d pg off lo len x).evq = d.evq := rfl
@[simp] theorem wf_out (d : Dev) (pg : Page) (off lo len x : Nat) : (wf d pg off lo len x).out = d.out := rfl
@[simp] theorem wf_memOut (d : Dev) (pg : Page) (off lo len x : Nat) : (wf d pg off lo len x).memOut = d.memOut := rfl
@[simp] theorem wf_fcn (d : Dev) (pg : Page) (off lo len x : Nat) : (wf d pg off lo len x).fcn = d.fcn := rfl
@[simp] theorem wf_time (d : Dev) (pg : Page) (off lo len x : Nat) : (wf d pg off lo len x).time = d.time := rfl
@[simp] theorem wf_quays (d : Dev) (pg : Page) (off lo len x : Nat) : (wf d pg off lo len x).quays = d.quays := rfl
@[simp] theorem wf_ports (d : Dev) (pg : Page) (off lo len x : Nat) : (wf d pg off lo len x).ports = d.ports := rfl
@[simp] theorem wf_tx (d : Dev) (pg : Page) (off lo len x : Nat) : (wf d pg off lo len x).tx = d.tx := rfl
@[simp] theorem wf_susp (d : Dev) (pg : Page) (off lo len x : Nat) : (wf d pg off lo len x).susp = d.susp := rfl
@[simp] theorem wf_gates (d : Dev) (pg : Page) (off lo len x : Nat) : (wf d pg off lo len x).gates = d.gates := rfl
@[simp] theorem wf_credits (d : Dev) (pg : Page) (off lo len x : Nat) : (wf d pg off lo len x).credits = d.credits := rfl
@[simp] theorem wf_filters (d : Dev) (pg : Page) (off lo len x : Nat) : (wf d pg off lo len x).filters = d.filters := rfl
@[simp] theorem wf_meters (d : Dev) (pg : Page) (off lo len x : Nat) : (wf d pg off lo len x).meters = d.meters := rfl
@[simp] theorem wf_pend (d : Dev) (pg : Page) (off lo len x : Nat) : (wf d pg off lo len x).pend = d.pend := rfl
@[simp] theorem wf_agedAt (d : Dev) (pg : Page) (off lo len x : Nat) : (wf d pg off lo len x).agedAt = d.agedAt := rfl
@[simp] theorem wf_nextFid (d : Dev) (pg : Page) (off lo len x : Nat) : (wf d pg off lo len x).nextFid = d.nextFid := rfl
@[simp] theorem wf_frerQ (d : Dev) (pg : Page) (off lo len x : Nat) : (wf d pg off lo len x).frerQ = d.frerQ := rfl
@[simp] theorem wf_flush (d : Dev) (pg : Page) (off lo len x : Nat) : (wf d pg off lo len x).flush = d.flush := rfl
@[simp] theorem wf_diagSer (d : Dev) (pg : Page) (off lo len x : Nat) : (wf d pg off lo len x).diagSer = d.diagSer := rfl
@[simp] theorem wf_evidAt (d : Dev) (pg : Page) (off lo len x : Nat) : (wf d pg off lo len x).evidAt = d.evidAt := rfl
@[simp] theorem wf_rateRem (d : Dev) (pg : Page) (off lo len x : Nat) : (wf d pg off lo len x).rateRem = d.rateRem := rfl
@[simp] theorem wf_logAt (d : Dev) (pg : Page) (off lo len x : Nat) : (wf d pg off lo len x).logAt = d.logAt := rfl
@[simp] theorem wf_retired1 (d : Dev) (pg : Page) (off lo len x : Nat) : (wf d pg off lo len x).retired1 = d.retired1 := rfl
@[simp] theorem wf_scrub (d : Dev) (pg : Page) (off lo len x : Nat) : (wf d pg off lo len x).scrub = d.scrub := rfl
@[simp] theorem wf_ferryIn (d : Dev) (pg : Page) (off lo len x : Nat) : (wf d pg off lo len x).ferryIn = d.ferryIn := rfl
@[simp] theorem wf_ferry (d : Dev) (pg : Page) (off lo len x : Nat) : (wf d pg off lo len x).ferry = d.ferry := rfl
@[simp] theorem wf_cans (d : Dev) (pg : Page) (off lo len x : Nat) : (wf d pg off lo len x).cans = d.cans := rfl
@[simp] theorem wf_lins (d : Dev) (pg : Page) (off lo len x : Nat) : (wf d pg off lo len x).lins = d.lins := rfl
@[simp] theorem wf_tapQ (d : Dev) (pg : Page) (off lo len x : Nat) : (wf d pg off lo len x).tapQ = d.tapQ := rfl
@[simp] theorem wf_manQ (d : Dev) (pg : Page) (off lo len x : Nat) : (wf d pg off lo len x).manQ = d.manQ := rfl
@[simp] theorem wf_car (d : Dev) (pg : Page) (off lo len x : Nat) : (wf d pg off lo len x).car = d.car := rfl
@[simp] theorem wf_man (d : Dev) (pg : Page) (off lo len x : Nat) : (wf d pg off lo len x).man = d.man := rfl
@[simp] theorem wf_diagPrev (d : Dev) (pg : Page) (off lo len x : Nat) : (wf d pg off lo len x).diagPrev = d.diagPrev := rfl
@[simp] theorem wf_commitBy (d : Dev) (pg : Page) (off lo len x : Nat) : (wf d pg off lo len x).commitBy = d.commitBy := rfl
@[simp] theorem wf_host (d : Dev) (pg : Page) (off lo len x : Nat) : (wf d pg off lo len x).host = d.host := rfl
@[simp] theorem wf_xwe (d : Dev) (pg : Page) (off lo len x : Nat) : (wf d pg off lo len x).xwe = d.xwe := rfl
@[simp] theorem wf_pair (d : Dev) (pg : Page) (off lo len x : Nat) : (wf d pg off lo len x).pair = d.pair := rfl
@[simp] theorem wf_buoy (d : Dev) (pg : Page) (off lo len x : Nat) : (wf d pg off lo len x).buoy = d.buoy := rfl
@[simp] theorem wf_pwr (d : Dev) (pg : Page) (off lo len x : Nat) : (wf d pg off lo len x).pwr = d.pwr := rfl
@[simp] theorem wf_scarab (d : Dev) (pg : Page) (off lo len x : Nat) : (wf d pg off lo len x).scarab = d.scarab := rfl
@[simp] theorem wf_dbg (d : Dev) (pg : Page) (off lo len x : Nat) : (wf d pg off lo len x).dbg = d.dbg := rfl
@[simp] theorem wf_boot (d : Dev) (pg : Page) (off lo len x : Nat) : (wf d pg off lo len x).boot = d.boot := rfl

/-! ### `wb` -/

@[simp] theorem wb_now (d : Dev) (pg : Page) (off i : Nat) (b : Bool) : (wb d pg off i b).now = d.now := rfl
@[simp] theorem wb_act (d : Dev) (pg : Page) (off i : Nat) (b : Bool) : (wb d pg off i b).act = d.act := rfl
@[simp] theorem wb_frz (d : Dev) (pg : Page) (off i : Nat) (b : Bool) : (wb d pg off i b).frz = d.frz := rfl
@[simp] theorem wb_frzSel (d : Dev) (pg : Page) (off i : Nat) (b : Bool) : (wb d pg off i b).frzSel = d.frzSel := rfl
@[simp] theorem wb_tbl (d : Dev) (pg : Page) (off i : Nat) (b : Bool) : (wb d pg off i b).tbl = d.tbl := rfl
@[simp] theorem wb_epoch (d : Dev) (pg : Page) (off i : Nat) (b : Bool) : (wb d pg off i b).epoch = d.epoch := rfl
@[simp] theorem wb_retired (d : Dev) (pg : Page) (off i : Nat) (b : Bool) : (wb d pg off i b).retired = d.retired := rfl
@[simp] theorem wb_srst (d : Dev) (pg : Page) (off i : Nat) (b : Bool) : (wb d pg off i b).srst = d.srst := rfl
@[simp] theorem wb_commitAt (d : Dev) (pg : Page) (off i : Nat) (b : Bool) : (wb d pg off i b).commitAt = d.commitAt := rfl
@[simp] theorem wb_refillAt (d : Dev) (pg : Page) (off i : Nat) (b : Bool) : (wb d pg off i b).refillAt = d.refillAt := rfl
@[simp] theorem wb_tideRef (d : Dev) (pg : Page) (off i : Nat) (b : Bool) : (wb d pg off i b).tideRef = d.tideRef := rfl
@[simp] theorem wb_sigFrom (d : Dev) (pg : Page) (off i : Nat) (b : Bool) : (wb d pg off i b).sigFrom = d.sigFrom := rfl
@[simp] theorem wb_frees (d : Dev) (pg : Page) (off i : Nat) (b : Bool) : (wb d pg off i b).frees = d.frees := rfl
@[simp] theorem wb_evq (d : Dev) (pg : Page) (off i : Nat) (b : Bool) : (wb d pg off i b).evq = d.evq := rfl
@[simp] theorem wb_out (d : Dev) (pg : Page) (off i : Nat) (b : Bool) : (wb d pg off i b).out = d.out := rfl
@[simp] theorem wb_memOut (d : Dev) (pg : Page) (off i : Nat) (b : Bool) : (wb d pg off i b).memOut = d.memOut := rfl
@[simp] theorem wb_fcn (d : Dev) (pg : Page) (off i : Nat) (b : Bool) : (wb d pg off i b).fcn = d.fcn := rfl
@[simp] theorem wb_time (d : Dev) (pg : Page) (off i : Nat) (b : Bool) : (wb d pg off i b).time = d.time := rfl
@[simp] theorem wb_quays (d : Dev) (pg : Page) (off i : Nat) (b : Bool) : (wb d pg off i b).quays = d.quays := rfl
@[simp] theorem wb_ports (d : Dev) (pg : Page) (off i : Nat) (b : Bool) : (wb d pg off i b).ports = d.ports := rfl
@[simp] theorem wb_tx (d : Dev) (pg : Page) (off i : Nat) (b : Bool) : (wb d pg off i b).tx = d.tx := rfl
@[simp] theorem wb_susp (d : Dev) (pg : Page) (off i : Nat) (b : Bool) : (wb d pg off i b).susp = d.susp := rfl
@[simp] theorem wb_gates (d : Dev) (pg : Page) (off i : Nat) (b : Bool) : (wb d pg off i b).gates = d.gates := rfl
@[simp] theorem wb_credits (d : Dev) (pg : Page) (off i : Nat) (b : Bool) : (wb d pg off i b).credits = d.credits := rfl
@[simp] theorem wb_filters (d : Dev) (pg : Page) (off i : Nat) (b : Bool) : (wb d pg off i b).filters = d.filters := rfl
@[simp] theorem wb_meters (d : Dev) (pg : Page) (off i : Nat) (b : Bool) : (wb d pg off i b).meters = d.meters := rfl
@[simp] theorem wb_pend (d : Dev) (pg : Page) (off i : Nat) (b : Bool) : (wb d pg off i b).pend = d.pend := rfl
@[simp] theorem wb_agedAt (d : Dev) (pg : Page) (off i : Nat) (b : Bool) : (wb d pg off i b).agedAt = d.agedAt := rfl
@[simp] theorem wb_nextFid (d : Dev) (pg : Page) (off i : Nat) (b : Bool) : (wb d pg off i b).nextFid = d.nextFid := rfl
@[simp] theorem wb_frerQ (d : Dev) (pg : Page) (off i : Nat) (b : Bool) : (wb d pg off i b).frerQ = d.frerQ := rfl
@[simp] theorem wb_flush (d : Dev) (pg : Page) (off i : Nat) (b : Bool) : (wb d pg off i b).flush = d.flush := rfl
@[simp] theorem wb_diagSer (d : Dev) (pg : Page) (off i : Nat) (b : Bool) : (wb d pg off i b).diagSer = d.diagSer := rfl
@[simp] theorem wb_evidAt (d : Dev) (pg : Page) (off i : Nat) (b : Bool) : (wb d pg off i b).evidAt = d.evidAt := rfl
@[simp] theorem wb_rateRem (d : Dev) (pg : Page) (off i : Nat) (b : Bool) : (wb d pg off i b).rateRem = d.rateRem := rfl
@[simp] theorem wb_logAt (d : Dev) (pg : Page) (off i : Nat) (b : Bool) : (wb d pg off i b).logAt = d.logAt := rfl
@[simp] theorem wb_retired1 (d : Dev) (pg : Page) (off i : Nat) (b : Bool) : (wb d pg off i b).retired1 = d.retired1 := rfl
@[simp] theorem wb_scrub (d : Dev) (pg : Page) (off i : Nat) (b : Bool) : (wb d pg off i b).scrub = d.scrub := rfl
@[simp] theorem wb_ferryIn (d : Dev) (pg : Page) (off i : Nat) (b : Bool) : (wb d pg off i b).ferryIn = d.ferryIn := rfl
@[simp] theorem wb_ferry (d : Dev) (pg : Page) (off i : Nat) (b : Bool) : (wb d pg off i b).ferry = d.ferry := rfl
@[simp] theorem wb_cans (d : Dev) (pg : Page) (off i : Nat) (b : Bool) : (wb d pg off i b).cans = d.cans := rfl
@[simp] theorem wb_lins (d : Dev) (pg : Page) (off i : Nat) (b : Bool) : (wb d pg off i b).lins = d.lins := rfl
@[simp] theorem wb_tapQ (d : Dev) (pg : Page) (off i : Nat) (b : Bool) : (wb d pg off i b).tapQ = d.tapQ := rfl
@[simp] theorem wb_manQ (d : Dev) (pg : Page) (off i : Nat) (b : Bool) : (wb d pg off i b).manQ = d.manQ := rfl
@[simp] theorem wb_car (d : Dev) (pg : Page) (off i : Nat) (b : Bool) : (wb d pg off i b).car = d.car := rfl
@[simp] theorem wb_man (d : Dev) (pg : Page) (off i : Nat) (b : Bool) : (wb d pg off i b).man = d.man := rfl
@[simp] theorem wb_diagPrev (d : Dev) (pg : Page) (off i : Nat) (b : Bool) : (wb d pg off i b).diagPrev = d.diagPrev := rfl
@[simp] theorem wb_commitBy (d : Dev) (pg : Page) (off i : Nat) (b : Bool) : (wb d pg off i b).commitBy = d.commitBy := rfl
@[simp] theorem wb_host (d : Dev) (pg : Page) (off i : Nat) (b : Bool) : (wb d pg off i b).host = d.host := rfl
@[simp] theorem wb_xwe (d : Dev) (pg : Page) (off i : Nat) (b : Bool) : (wb d pg off i b).xwe = d.xwe := rfl
@[simp] theorem wb_pair (d : Dev) (pg : Page) (off i : Nat) (b : Bool) : (wb d pg off i b).pair = d.pair := rfl
@[simp] theorem wb_buoy (d : Dev) (pg : Page) (off i : Nat) (b : Bool) : (wb d pg off i b).buoy = d.buoy := rfl
@[simp] theorem wb_pwr (d : Dev) (pg : Page) (off i : Nat) (b : Bool) : (wb d pg off i b).pwr = d.pwr := rfl
@[simp] theorem wb_scarab (d : Dev) (pg : Page) (off i : Nat) (b : Bool) : (wb d pg off i b).scarab = d.scarab := rfl
@[simp] theorem wb_dbg (d : Dev) (pg : Page) (off i : Nat) (b : Bool) : (wb d pg off i b).dbg = d.dbg := rfl
@[simp] theorem wb_boot (d : Dev) (pg : Page) (off i : Nat) (b : Bool) : (wb d pg off i b).boot = d.boot := rfl

/-! ### `cnt` -/

@[simp] theorem cnt_now (d : Dev) (pg : Page) (off n : Nat) : (cnt d pg off n).now = d.now := rfl
@[simp] theorem cnt_act (d : Dev) (pg : Page) (off n : Nat) : (cnt d pg off n).act = d.act := rfl
@[simp] theorem cnt_frz (d : Dev) (pg : Page) (off n : Nat) : (cnt d pg off n).frz = d.frz := rfl
@[simp] theorem cnt_frzSel (d : Dev) (pg : Page) (off n : Nat) : (cnt d pg off n).frzSel = d.frzSel := rfl
@[simp] theorem cnt_tbl (d : Dev) (pg : Page) (off n : Nat) : (cnt d pg off n).tbl = d.tbl := rfl
@[simp] theorem cnt_epoch (d : Dev) (pg : Page) (off n : Nat) : (cnt d pg off n).epoch = d.epoch := rfl
@[simp] theorem cnt_retired (d : Dev) (pg : Page) (off n : Nat) : (cnt d pg off n).retired = d.retired := rfl
@[simp] theorem cnt_srst (d : Dev) (pg : Page) (off n : Nat) : (cnt d pg off n).srst = d.srst := rfl
@[simp] theorem cnt_commitAt (d : Dev) (pg : Page) (off n : Nat) : (cnt d pg off n).commitAt = d.commitAt := rfl
@[simp] theorem cnt_refillAt (d : Dev) (pg : Page) (off n : Nat) : (cnt d pg off n).refillAt = d.refillAt := rfl
@[simp] theorem cnt_tideRef (d : Dev) (pg : Page) (off n : Nat) : (cnt d pg off n).tideRef = d.tideRef := rfl
@[simp] theorem cnt_sigFrom (d : Dev) (pg : Page) (off n : Nat) : (cnt d pg off n).sigFrom = d.sigFrom := rfl
@[simp] theorem cnt_frees (d : Dev) (pg : Page) (off n : Nat) : (cnt d pg off n).frees = d.frees := rfl
@[simp] theorem cnt_evq (d : Dev) (pg : Page) (off n : Nat) : (cnt d pg off n).evq = d.evq := rfl
@[simp] theorem cnt_out (d : Dev) (pg : Page) (off n : Nat) : (cnt d pg off n).out = d.out := rfl
@[simp] theorem cnt_memOut (d : Dev) (pg : Page) (off n : Nat) : (cnt d pg off n).memOut = d.memOut := rfl
@[simp] theorem cnt_fcn (d : Dev) (pg : Page) (off n : Nat) : (cnt d pg off n).fcn = d.fcn := rfl
@[simp] theorem cnt_time (d : Dev) (pg : Page) (off n : Nat) : (cnt d pg off n).time = d.time := rfl
@[simp] theorem cnt_quays (d : Dev) (pg : Page) (off n : Nat) : (cnt d pg off n).quays = d.quays := rfl
@[simp] theorem cnt_ports (d : Dev) (pg : Page) (off n : Nat) : (cnt d pg off n).ports = d.ports := rfl
@[simp] theorem cnt_tx (d : Dev) (pg : Page) (off n : Nat) : (cnt d pg off n).tx = d.tx := rfl
@[simp] theorem cnt_susp (d : Dev) (pg : Page) (off n : Nat) : (cnt d pg off n).susp = d.susp := rfl
@[simp] theorem cnt_gates (d : Dev) (pg : Page) (off n : Nat) : (cnt d pg off n).gates = d.gates := rfl
@[simp] theorem cnt_credits (d : Dev) (pg : Page) (off n : Nat) : (cnt d pg off n).credits = d.credits := rfl
@[simp] theorem cnt_filters (d : Dev) (pg : Page) (off n : Nat) : (cnt d pg off n).filters = d.filters := rfl
@[simp] theorem cnt_meters (d : Dev) (pg : Page) (off n : Nat) : (cnt d pg off n).meters = d.meters := rfl
@[simp] theorem cnt_pend (d : Dev) (pg : Page) (off n : Nat) : (cnt d pg off n).pend = d.pend := rfl
@[simp] theorem cnt_agedAt (d : Dev) (pg : Page) (off n : Nat) : (cnt d pg off n).agedAt = d.agedAt := rfl
@[simp] theorem cnt_nextFid (d : Dev) (pg : Page) (off n : Nat) : (cnt d pg off n).nextFid = d.nextFid := rfl
@[simp] theorem cnt_frerQ (d : Dev) (pg : Page) (off n : Nat) : (cnt d pg off n).frerQ = d.frerQ := rfl
@[simp] theorem cnt_flush (d : Dev) (pg : Page) (off n : Nat) : (cnt d pg off n).flush = d.flush := rfl
@[simp] theorem cnt_diagSer (d : Dev) (pg : Page) (off n : Nat) : (cnt d pg off n).diagSer = d.diagSer := rfl
@[simp] theorem cnt_evidAt (d : Dev) (pg : Page) (off n : Nat) : (cnt d pg off n).evidAt = d.evidAt := rfl
@[simp] theorem cnt_rateRem (d : Dev) (pg : Page) (off n : Nat) : (cnt d pg off n).rateRem = d.rateRem := rfl
@[simp] theorem cnt_logAt (d : Dev) (pg : Page) (off n : Nat) : (cnt d pg off n).logAt = d.logAt := rfl
@[simp] theorem cnt_retired1 (d : Dev) (pg : Page) (off n : Nat) : (cnt d pg off n).retired1 = d.retired1 := rfl
@[simp] theorem cnt_scrub (d : Dev) (pg : Page) (off n : Nat) : (cnt d pg off n).scrub = d.scrub := rfl
@[simp] theorem cnt_ferryIn (d : Dev) (pg : Page) (off n : Nat) : (cnt d pg off n).ferryIn = d.ferryIn := rfl
@[simp] theorem cnt_ferry (d : Dev) (pg : Page) (off n : Nat) : (cnt d pg off n).ferry = d.ferry := rfl
@[simp] theorem cnt_cans (d : Dev) (pg : Page) (off n : Nat) : (cnt d pg off n).cans = d.cans := rfl
@[simp] theorem cnt_lins (d : Dev) (pg : Page) (off n : Nat) : (cnt d pg off n).lins = d.lins := rfl
@[simp] theorem cnt_tapQ (d : Dev) (pg : Page) (off n : Nat) : (cnt d pg off n).tapQ = d.tapQ := rfl
@[simp] theorem cnt_manQ (d : Dev) (pg : Page) (off n : Nat) : (cnt d pg off n).manQ = d.manQ := rfl
@[simp] theorem cnt_car (d : Dev) (pg : Page) (off n : Nat) : (cnt d pg off n).car = d.car := rfl
@[simp] theorem cnt_man (d : Dev) (pg : Page) (off n : Nat) : (cnt d pg off n).man = d.man := rfl
@[simp] theorem cnt_diagPrev (d : Dev) (pg : Page) (off n : Nat) : (cnt d pg off n).diagPrev = d.diagPrev := rfl
@[simp] theorem cnt_commitBy (d : Dev) (pg : Page) (off n : Nat) : (cnt d pg off n).commitBy = d.commitBy := rfl
@[simp] theorem cnt_host (d : Dev) (pg : Page) (off n : Nat) : (cnt d pg off n).host = d.host := rfl
@[simp] theorem cnt_xwe (d : Dev) (pg : Page) (off n : Nat) : (cnt d pg off n).xwe = d.xwe := rfl
@[simp] theorem cnt_pair (d : Dev) (pg : Page) (off n : Nat) : (cnt d pg off n).pair = d.pair := rfl
@[simp] theorem cnt_buoy (d : Dev) (pg : Page) (off n : Nat) : (cnt d pg off n).buoy = d.buoy := rfl
@[simp] theorem cnt_pwr (d : Dev) (pg : Page) (off n : Nat) : (cnt d pg off n).pwr = d.pwr := rfl
@[simp] theorem cnt_scarab (d : Dev) (pg : Page) (off n : Nat) : (cnt d pg off n).scarab = d.scarab := rfl
@[simp] theorem cnt_dbg (d : Dev) (pg : Page) (off n : Nat) : (cnt d pg off n).dbg = d.dbg := rfl
@[simp] theorem cnt_boot (d : Dev) (pg : Page) (off n : Nat) : (cnt d pg off n).boot = d.boot := rfl

/-! ### `twr` -/

@[simp] theorem twr_now (d : Dev) (a : Nat) (v : W64) : (twr d a v).now = d.now := rfl
@[simp] theorem twr_regs (d : Dev) (a : Nat) (v : W64) : (twr d a v).regs = d.regs := rfl
@[simp] theorem twr_act (d : Dev) (a : Nat) (v : W64) : (twr d a v).act = d.act := rfl
@[simp] theorem twr_frz (d : Dev) (a : Nat) (v : W64) : (twr d a v).frz = d.frz := rfl
@[simp] theorem twr_frzSel (d : Dev) (a : Nat) (v : W64) : (twr d a v).frzSel = d.frzSel := rfl
@[simp] theorem twr_epoch (d : Dev) (a : Nat) (v : W64) : (twr d a v).epoch = d.epoch := rfl
@[simp] theorem twr_retired (d : Dev) (a : Nat) (v : W64) : (twr d a v).retired = d.retired := rfl
@[simp] theorem twr_srst (d : Dev) (a : Nat) (v : W64) : (twr d a v).srst = d.srst := rfl
@[simp] theorem twr_commitAt (d : Dev) (a : Nat) (v : W64) : (twr d a v).commitAt = d.commitAt := rfl
@[simp] theorem twr_refillAt (d : Dev) (a : Nat) (v : W64) : (twr d a v).refillAt = d.refillAt := rfl
@[simp] theorem twr_tideRef (d : Dev) (a : Nat) (v : W64) : (twr d a v).tideRef = d.tideRef := rfl
@[simp] theorem twr_sigFrom (d : Dev) (a : Nat) (v : W64) : (twr d a v).sigFrom = d.sigFrom := rfl
@[simp] theorem twr_frees (d : Dev) (a : Nat) (v : W64) : (twr d a v).frees = d.frees := rfl
@[simp] theorem twr_evq (d : Dev) (a : Nat) (v : W64) : (twr d a v).evq = d.evq := rfl
@[simp] theorem twr_out (d : Dev) (a : Nat) (v : W64) : (twr d a v).out = d.out := rfl
@[simp] theorem twr_memOut (d : Dev) (a : Nat) (v : W64) : (twr d a v).memOut = d.memOut := rfl
@[simp] theorem twr_fcn (d : Dev) (a : Nat) (v : W64) : (twr d a v).fcn = d.fcn := rfl
@[simp] theorem twr_time (d : Dev) (a : Nat) (v : W64) : (twr d a v).time = d.time := rfl
@[simp] theorem twr_quays (d : Dev) (a : Nat) (v : W64) : (twr d a v).quays = d.quays := rfl
@[simp] theorem twr_ports (d : Dev) (a : Nat) (v : W64) : (twr d a v).ports = d.ports := rfl
@[simp] theorem twr_tx (d : Dev) (a : Nat) (v : W64) : (twr d a v).tx = d.tx := rfl
@[simp] theorem twr_susp (d : Dev) (a : Nat) (v : W64) : (twr d a v).susp = d.susp := rfl
@[simp] theorem twr_gates (d : Dev) (a : Nat) (v : W64) : (twr d a v).gates = d.gates := rfl
@[simp] theorem twr_credits (d : Dev) (a : Nat) (v : W64) : (twr d a v).credits = d.credits := rfl
@[simp] theorem twr_filters (d : Dev) (a : Nat) (v : W64) : (twr d a v).filters = d.filters := rfl
@[simp] theorem twr_meters (d : Dev) (a : Nat) (v : W64) : (twr d a v).meters = d.meters := rfl
@[simp] theorem twr_pend (d : Dev) (a : Nat) (v : W64) : (twr d a v).pend = d.pend := rfl
@[simp] theorem twr_agedAt (d : Dev) (a : Nat) (v : W64) : (twr d a v).agedAt = d.agedAt := rfl
@[simp] theorem twr_nextFid (d : Dev) (a : Nat) (v : W64) : (twr d a v).nextFid = d.nextFid := rfl
@[simp] theorem twr_frerQ (d : Dev) (a : Nat) (v : W64) : (twr d a v).frerQ = d.frerQ := rfl
@[simp] theorem twr_flush (d : Dev) (a : Nat) (v : W64) : (twr d a v).flush = d.flush := rfl
@[simp] theorem twr_diagSer (d : Dev) (a : Nat) (v : W64) : (twr d a v).diagSer = d.diagSer := rfl
@[simp] theorem twr_evidAt (d : Dev) (a : Nat) (v : W64) : (twr d a v).evidAt = d.evidAt := rfl
@[simp] theorem twr_rateRem (d : Dev) (a : Nat) (v : W64) : (twr d a v).rateRem = d.rateRem := rfl
@[simp] theorem twr_logAt (d : Dev) (a : Nat) (v : W64) : (twr d a v).logAt = d.logAt := rfl
@[simp] theorem twr_retired1 (d : Dev) (a : Nat) (v : W64) : (twr d a v).retired1 = d.retired1 := rfl
@[simp] theorem twr_scrub (d : Dev) (a : Nat) (v : W64) : (twr d a v).scrub = d.scrub := rfl
@[simp] theorem twr_ferryIn (d : Dev) (a : Nat) (v : W64) : (twr d a v).ferryIn = d.ferryIn := rfl
@[simp] theorem twr_ferry (d : Dev) (a : Nat) (v : W64) : (twr d a v).ferry = d.ferry := rfl
@[simp] theorem twr_cans (d : Dev) (a : Nat) (v : W64) : (twr d a v).cans = d.cans := rfl
@[simp] theorem twr_lins (d : Dev) (a : Nat) (v : W64) : (twr d a v).lins = d.lins := rfl
@[simp] theorem twr_tapQ (d : Dev) (a : Nat) (v : W64) : (twr d a v).tapQ = d.tapQ := rfl
@[simp] theorem twr_manQ (d : Dev) (a : Nat) (v : W64) : (twr d a v).manQ = d.manQ := rfl
@[simp] theorem twr_car (d : Dev) (a : Nat) (v : W64) : (twr d a v).car = d.car := rfl
@[simp] theorem twr_man (d : Dev) (a : Nat) (v : W64) : (twr d a v).man = d.man := rfl
@[simp] theorem twr_diagPrev (d : Dev) (a : Nat) (v : W64) : (twr d a v).diagPrev = d.diagPrev := rfl
@[simp] theorem twr_commitBy (d : Dev) (a : Nat) (v : W64) : (twr d a v).commitBy = d.commitBy := rfl
@[simp] theorem twr_host (d : Dev) (a : Nat) (v : W64) : (twr d a v).host = d.host := rfl
@[simp] theorem twr_xwe (d : Dev) (a : Nat) (v : W64) : (twr d a v).xwe = d.xwe := rfl
@[simp] theorem twr_pair (d : Dev) (a : Nat) (v : W64) : (twr d a v).pair = d.pair := rfl
@[simp] theorem twr_buoy (d : Dev) (a : Nat) (v : W64) : (twr d a v).buoy = d.buoy := rfl
@[simp] theorem twr_pwr (d : Dev) (a : Nat) (v : W64) : (twr d a v).pwr = d.pwr := rfl
@[simp] theorem twr_scarab (d : Dev) (a : Nat) (v : W64) : (twr d a v).scarab = d.scarab := rfl
@[simp] theorem twr_dbg (d : Dev) (a : Nat) (v : W64) : (twr d a v).dbg = d.dbg := rfl
@[simp] theorem twr_boot (d : Dev) (a : Nat) (v : W64) : (twr d a v).boot = d.boot := rfl

/-! ### `emit` -/

@[simp] theorem emit_now (d : Dev) (o : Out) : (emit d o).now = d.now := rfl
@[simp] theorem emit_regs (d : Dev) (o : Out) : (emit d o).regs = d.regs := rfl
@[simp] theorem emit_act (d : Dev) (o : Out) : (emit d o).act = d.act := rfl
@[simp] theorem emit_frz (d : Dev) (o : Out) : (emit d o).frz = d.frz := rfl
@[simp] theorem emit_frzSel (d : Dev) (o : Out) : (emit d o).frzSel = d.frzSel := rfl
@[simp] theorem emit_tbl (d : Dev) (o : Out) : (emit d o).tbl = d.tbl := rfl
@[simp] theorem emit_epoch (d : Dev) (o : Out) : (emit d o).epoch = d.epoch := rfl
@[simp] theorem emit_retired (d : Dev) (o : Out) : (emit d o).retired = d.retired := rfl
@[simp] theorem emit_srst (d : Dev) (o : Out) : (emit d o).srst = d.srst := rfl
@[simp] theorem emit_commitAt (d : Dev) (o : Out) : (emit d o).commitAt = d.commitAt := rfl
@[simp] theorem emit_refillAt (d : Dev) (o : Out) : (emit d o).refillAt = d.refillAt := rfl
@[simp] theorem emit_tideRef (d : Dev) (o : Out) : (emit d o).tideRef = d.tideRef := rfl
@[simp] theorem emit_sigFrom (d : Dev) (o : Out) : (emit d o).sigFrom = d.sigFrom := rfl
@[simp] theorem emit_frees (d : Dev) (o : Out) : (emit d o).frees = d.frees := rfl
@[simp] theorem emit_evq (d : Dev) (o : Out) : (emit d o).evq = d.evq := rfl
@[simp] theorem emit_memOut (d : Dev) (o : Out) : (emit d o).memOut = d.memOut := rfl
@[simp] theorem emit_fcn (d : Dev) (o : Out) : (emit d o).fcn = d.fcn := rfl
@[simp] theorem emit_time (d : Dev) (o : Out) : (emit d o).time = d.time := rfl
@[simp] theorem emit_quays (d : Dev) (o : Out) : (emit d o).quays = d.quays := rfl
@[simp] theorem emit_ports (d : Dev) (o : Out) : (emit d o).ports = d.ports := rfl
@[simp] theorem emit_tx (d : Dev) (o : Out) : (emit d o).tx = d.tx := rfl
@[simp] theorem emit_susp (d : Dev) (o : Out) : (emit d o).susp = d.susp := rfl
@[simp] theorem emit_gates (d : Dev) (o : Out) : (emit d o).gates = d.gates := rfl
@[simp] theorem emit_credits (d : Dev) (o : Out) : (emit d o).credits = d.credits := rfl
@[simp] theorem emit_filters (d : Dev) (o : Out) : (emit d o).filters = d.filters := rfl
@[simp] theorem emit_meters (d : Dev) (o : Out) : (emit d o).meters = d.meters := rfl
@[simp] theorem emit_pend (d : Dev) (o : Out) : (emit d o).pend = d.pend := rfl
@[simp] theorem emit_agedAt (d : Dev) (o : Out) : (emit d o).agedAt = d.agedAt := rfl
@[simp] theorem emit_nextFid (d : Dev) (o : Out) : (emit d o).nextFid = d.nextFid := rfl
@[simp] theorem emit_frerQ (d : Dev) (o : Out) : (emit d o).frerQ = d.frerQ := rfl
@[simp] theorem emit_flush (d : Dev) (o : Out) : (emit d o).flush = d.flush := rfl
@[simp] theorem emit_diagSer (d : Dev) (o : Out) : (emit d o).diagSer = d.diagSer := rfl
@[simp] theorem emit_evidAt (d : Dev) (o : Out) : (emit d o).evidAt = d.evidAt := rfl
@[simp] theorem emit_rateRem (d : Dev) (o : Out) : (emit d o).rateRem = d.rateRem := rfl
@[simp] theorem emit_logAt (d : Dev) (o : Out) : (emit d o).logAt = d.logAt := rfl
@[simp] theorem emit_retired1 (d : Dev) (o : Out) : (emit d o).retired1 = d.retired1 := rfl
@[simp] theorem emit_scrub (d : Dev) (o : Out) : (emit d o).scrub = d.scrub := rfl
@[simp] theorem emit_ferryIn (d : Dev) (o : Out) : (emit d o).ferryIn = d.ferryIn := rfl
@[simp] theorem emit_ferry (d : Dev) (o : Out) : (emit d o).ferry = d.ferry := rfl
@[simp] theorem emit_cans (d : Dev) (o : Out) : (emit d o).cans = d.cans := rfl
@[simp] theorem emit_lins (d : Dev) (o : Out) : (emit d o).lins = d.lins := rfl
@[simp] theorem emit_tapQ (d : Dev) (o : Out) : (emit d o).tapQ = d.tapQ := rfl
@[simp] theorem emit_manQ (d : Dev) (o : Out) : (emit d o).manQ = d.manQ := rfl
@[simp] theorem emit_car (d : Dev) (o : Out) : (emit d o).car = d.car := rfl
@[simp] theorem emit_man (d : Dev) (o : Out) : (emit d o).man = d.man := rfl
@[simp] theorem emit_diagPrev (d : Dev) (o : Out) : (emit d o).diagPrev = d.diagPrev := rfl
@[simp] theorem emit_commitBy (d : Dev) (o : Out) : (emit d o).commitBy = d.commitBy := rfl
@[simp] theorem emit_host (d : Dev) (o : Out) : (emit d o).host = d.host := rfl
@[simp] theorem emit_xwe (d : Dev) (o : Out) : (emit d o).xwe = d.xwe := rfl
@[simp] theorem emit_pair (d : Dev) (o : Out) : (emit d o).pair = d.pair := rfl
@[simp] theorem emit_buoy (d : Dev) (o : Out) : (emit d o).buoy = d.buoy := rfl
@[simp] theorem emit_pwr (d : Dev) (o : Out) : (emit d o).pwr = d.pwr := rfl
@[simp] theorem emit_scarab (d : Dev) (o : Out) : (emit d o).scarab = d.scarab := rfl
@[simp] theorem emit_dbg (d : Dev) (o : Out) : (emit d o).dbg = d.dbg := rfl
@[simp] theorem emit_boot (d : Dev) (o : Out) : (emit d o).boot = d.boot := rfl

/-! ### `setQuay` -/

@[simp] theorem setQuay_now (d : Dev) (n : Nat) (x : Quay) : (setQuay d n x).now = d.now := rfl
@[simp] theorem setQuay_regs (d : Dev) (n : Nat) (x : Quay) : (setQuay d n x).regs = d.regs := rfl
@[simp] theorem setQuay_act (d : Dev) (n : Nat) (x : Quay) : (setQuay d n x).act = d.act := rfl
@[simp] theorem setQuay_frz (d : Dev) (n : Nat) (x : Quay) : (setQuay d n x).frz = d.frz := rfl
@[simp] theorem setQuay_frzSel (d : Dev) (n : Nat) (x : Quay) : (setQuay d n x).frzSel = d.frzSel := rfl
@[simp] theorem setQuay_tbl (d : Dev) (n : Nat) (x : Quay) : (setQuay d n x).tbl = d.tbl := rfl
@[simp] theorem setQuay_epoch (d : Dev) (n : Nat) (x : Quay) : (setQuay d n x).epoch = d.epoch := rfl
@[simp] theorem setQuay_retired (d : Dev) (n : Nat) (x : Quay) : (setQuay d n x).retired = d.retired := rfl
@[simp] theorem setQuay_srst (d : Dev) (n : Nat) (x : Quay) : (setQuay d n x).srst = d.srst := rfl
@[simp] theorem setQuay_commitAt (d : Dev) (n : Nat) (x : Quay) : (setQuay d n x).commitAt = d.commitAt := rfl
@[simp] theorem setQuay_refillAt (d : Dev) (n : Nat) (x : Quay) : (setQuay d n x).refillAt = d.refillAt := rfl
@[simp] theorem setQuay_tideRef (d : Dev) (n : Nat) (x : Quay) : (setQuay d n x).tideRef = d.tideRef := rfl
@[simp] theorem setQuay_sigFrom (d : Dev) (n : Nat) (x : Quay) : (setQuay d n x).sigFrom = d.sigFrom := rfl
@[simp] theorem setQuay_frees (d : Dev) (n : Nat) (x : Quay) : (setQuay d n x).frees = d.frees := rfl
@[simp] theorem setQuay_evq (d : Dev) (n : Nat) (x : Quay) : (setQuay d n x).evq = d.evq := rfl
@[simp] theorem setQuay_out (d : Dev) (n : Nat) (x : Quay) : (setQuay d n x).out = d.out := rfl
@[simp] theorem setQuay_memOut (d : Dev) (n : Nat) (x : Quay) : (setQuay d n x).memOut = d.memOut := rfl
@[simp] theorem setQuay_fcn (d : Dev) (n : Nat) (x : Quay) : (setQuay d n x).fcn = d.fcn := rfl
@[simp] theorem setQuay_time (d : Dev) (n : Nat) (x : Quay) : (setQuay d n x).time = d.time := rfl
@[simp] theorem setQuay_ports (d : Dev) (n : Nat) (x : Quay) : (setQuay d n x).ports = d.ports := rfl
@[simp] theorem setQuay_tx (d : Dev) (n : Nat) (x : Quay) : (setQuay d n x).tx = d.tx := rfl
@[simp] theorem setQuay_susp (d : Dev) (n : Nat) (x : Quay) : (setQuay d n x).susp = d.susp := rfl
@[simp] theorem setQuay_gates (d : Dev) (n : Nat) (x : Quay) : (setQuay d n x).gates = d.gates := rfl
@[simp] theorem setQuay_credits (d : Dev) (n : Nat) (x : Quay) : (setQuay d n x).credits = d.credits := rfl
@[simp] theorem setQuay_filters (d : Dev) (n : Nat) (x : Quay) : (setQuay d n x).filters = d.filters := rfl
@[simp] theorem setQuay_meters (d : Dev) (n : Nat) (x : Quay) : (setQuay d n x).meters = d.meters := rfl
@[simp] theorem setQuay_pend (d : Dev) (n : Nat) (x : Quay) : (setQuay d n x).pend = d.pend := rfl
@[simp] theorem setQuay_agedAt (d : Dev) (n : Nat) (x : Quay) : (setQuay d n x).agedAt = d.agedAt := rfl
@[simp] theorem setQuay_nextFid (d : Dev) (n : Nat) (x : Quay) : (setQuay d n x).nextFid = d.nextFid := rfl
@[simp] theorem setQuay_frerQ (d : Dev) (n : Nat) (x : Quay) : (setQuay d n x).frerQ = d.frerQ := rfl
@[simp] theorem setQuay_flush (d : Dev) (n : Nat) (x : Quay) : (setQuay d n x).flush = d.flush := rfl
@[simp] theorem setQuay_diagSer (d : Dev) (n : Nat) (x : Quay) : (setQuay d n x).diagSer = d.diagSer := rfl
@[simp] theorem setQuay_evidAt (d : Dev) (n : Nat) (x : Quay) : (setQuay d n x).evidAt = d.evidAt := rfl
@[simp] theorem setQuay_rateRem (d : Dev) (n : Nat) (x : Quay) : (setQuay d n x).rateRem = d.rateRem := rfl
@[simp] theorem setQuay_logAt (d : Dev) (n : Nat) (x : Quay) : (setQuay d n x).logAt = d.logAt := rfl
@[simp] theorem setQuay_retired1 (d : Dev) (n : Nat) (x : Quay) : (setQuay d n x).retired1 = d.retired1 := rfl
@[simp] theorem setQuay_scrub (d : Dev) (n : Nat) (x : Quay) : (setQuay d n x).scrub = d.scrub := rfl
@[simp] theorem setQuay_ferryIn (d : Dev) (n : Nat) (x : Quay) : (setQuay d n x).ferryIn = d.ferryIn := rfl
@[simp] theorem setQuay_ferry (d : Dev) (n : Nat) (x : Quay) : (setQuay d n x).ferry = d.ferry := rfl
@[simp] theorem setQuay_cans (d : Dev) (n : Nat) (x : Quay) : (setQuay d n x).cans = d.cans := rfl
@[simp] theorem setQuay_lins (d : Dev) (n : Nat) (x : Quay) : (setQuay d n x).lins = d.lins := rfl
@[simp] theorem setQuay_tapQ (d : Dev) (n : Nat) (x : Quay) : (setQuay d n x).tapQ = d.tapQ := rfl
@[simp] theorem setQuay_manQ (d : Dev) (n : Nat) (x : Quay) : (setQuay d n x).manQ = d.manQ := rfl
@[simp] theorem setQuay_car (d : Dev) (n : Nat) (x : Quay) : (setQuay d n x).car = d.car := rfl
@[simp] theorem setQuay_man (d : Dev) (n : Nat) (x : Quay) : (setQuay d n x).man = d.man := rfl
@[simp] theorem setQuay_diagPrev (d : Dev) (n : Nat) (x : Quay) : (setQuay d n x).diagPrev = d.diagPrev := rfl
@[simp] theorem setQuay_commitBy (d : Dev) (n : Nat) (x : Quay) : (setQuay d n x).commitBy = d.commitBy := rfl
@[simp] theorem setQuay_host (d : Dev) (n : Nat) (x : Quay) : (setQuay d n x).host = d.host := rfl
@[simp] theorem setQuay_xwe (d : Dev) (n : Nat) (x : Quay) : (setQuay d n x).xwe = d.xwe := rfl
@[simp] theorem setQuay_pair (d : Dev) (n : Nat) (x : Quay) : (setQuay d n x).pair = d.pair := rfl
@[simp] theorem setQuay_buoy (d : Dev) (n : Nat) (x : Quay) : (setQuay d n x).buoy = d.buoy := rfl
@[simp] theorem setQuay_pwr (d : Dev) (n : Nat) (x : Quay) : (setQuay d n x).pwr = d.pwr := rfl
@[simp] theorem setQuay_scarab (d : Dev) (n : Nat) (x : Quay) : (setQuay d n x).scarab = d.scarab := rfl
@[simp] theorem setQuay_dbg (d : Dev) (n : Nat) (x : Quay) : (setQuay d n x).dbg = d.dbg := rfl
@[simp] theorem setQuay_boot (d : Dev) (n : Nat) (x : Quay) : (setQuay d n x).boot = d.boot := rfl

/-! ### `setPort` -/

@[simp] theorem setPort_now (d : Dev) (p : Nat) (x : PortSt) : (setPort d p x).now = d.now := rfl
@[simp] theorem setPort_regs (d : Dev) (p : Nat) (x : PortSt) : (setPort d p x).regs = d.regs := rfl
@[simp] theorem setPort_act (d : Dev) (p : Nat) (x : PortSt) : (setPort d p x).act = d.act := rfl
@[simp] theorem setPort_frz (d : Dev) (p : Nat) (x : PortSt) : (setPort d p x).frz = d.frz := rfl
@[simp] theorem setPort_frzSel (d : Dev) (p : Nat) (x : PortSt) : (setPort d p x).frzSel = d.frzSel := rfl
@[simp] theorem setPort_tbl (d : Dev) (p : Nat) (x : PortSt) : (setPort d p x).tbl = d.tbl := rfl
@[simp] theorem setPort_epoch (d : Dev) (p : Nat) (x : PortSt) : (setPort d p x).epoch = d.epoch := rfl
@[simp] theorem setPort_retired (d : Dev) (p : Nat) (x : PortSt) : (setPort d p x).retired = d.retired := rfl
@[simp] theorem setPort_srst (d : Dev) (p : Nat) (x : PortSt) : (setPort d p x).srst = d.srst := rfl
@[simp] theorem setPort_commitAt (d : Dev) (p : Nat) (x : PortSt) : (setPort d p x).commitAt = d.commitAt := rfl
@[simp] theorem setPort_refillAt (d : Dev) (p : Nat) (x : PortSt) : (setPort d p x).refillAt = d.refillAt := rfl
@[simp] theorem setPort_tideRef (d : Dev) (p : Nat) (x : PortSt) : (setPort d p x).tideRef = d.tideRef := rfl
@[simp] theorem setPort_sigFrom (d : Dev) (p : Nat) (x : PortSt) : (setPort d p x).sigFrom = d.sigFrom := rfl
@[simp] theorem setPort_frees (d : Dev) (p : Nat) (x : PortSt) : (setPort d p x).frees = d.frees := rfl
@[simp] theorem setPort_evq (d : Dev) (p : Nat) (x : PortSt) : (setPort d p x).evq = d.evq := rfl
@[simp] theorem setPort_out (d : Dev) (p : Nat) (x : PortSt) : (setPort d p x).out = d.out := rfl
@[simp] theorem setPort_memOut (d : Dev) (p : Nat) (x : PortSt) : (setPort d p x).memOut = d.memOut := rfl
@[simp] theorem setPort_fcn (d : Dev) (p : Nat) (x : PortSt) : (setPort d p x).fcn = d.fcn := rfl
@[simp] theorem setPort_time (d : Dev) (p : Nat) (x : PortSt) : (setPort d p x).time = d.time := rfl
@[simp] theorem setPort_quays (d : Dev) (p : Nat) (x : PortSt) : (setPort d p x).quays = d.quays := rfl
@[simp] theorem setPort_tx (d : Dev) (p : Nat) (x : PortSt) : (setPort d p x).tx = d.tx := rfl
@[simp] theorem setPort_susp (d : Dev) (p : Nat) (x : PortSt) : (setPort d p x).susp = d.susp := rfl
@[simp] theorem setPort_gates (d : Dev) (p : Nat) (x : PortSt) : (setPort d p x).gates = d.gates := rfl
@[simp] theorem setPort_credits (d : Dev) (p : Nat) (x : PortSt) : (setPort d p x).credits = d.credits := rfl
@[simp] theorem setPort_filters (d : Dev) (p : Nat) (x : PortSt) : (setPort d p x).filters = d.filters := rfl
@[simp] theorem setPort_meters (d : Dev) (p : Nat) (x : PortSt) : (setPort d p x).meters = d.meters := rfl
@[simp] theorem setPort_pend (d : Dev) (p : Nat) (x : PortSt) : (setPort d p x).pend = d.pend := rfl
@[simp] theorem setPort_agedAt (d : Dev) (p : Nat) (x : PortSt) : (setPort d p x).agedAt = d.agedAt := rfl
@[simp] theorem setPort_nextFid (d : Dev) (p : Nat) (x : PortSt) : (setPort d p x).nextFid = d.nextFid := rfl
@[simp] theorem setPort_frerQ (d : Dev) (p : Nat) (x : PortSt) : (setPort d p x).frerQ = d.frerQ := rfl
@[simp] theorem setPort_flush (d : Dev) (p : Nat) (x : PortSt) : (setPort d p x).flush = d.flush := rfl
@[simp] theorem setPort_diagSer (d : Dev) (p : Nat) (x : PortSt) : (setPort d p x).diagSer = d.diagSer := rfl
@[simp] theorem setPort_evidAt (d : Dev) (p : Nat) (x : PortSt) : (setPort d p x).evidAt = d.evidAt := rfl
@[simp] theorem setPort_rateRem (d : Dev) (p : Nat) (x : PortSt) : (setPort d p x).rateRem = d.rateRem := rfl
@[simp] theorem setPort_logAt (d : Dev) (p : Nat) (x : PortSt) : (setPort d p x).logAt = d.logAt := rfl
@[simp] theorem setPort_retired1 (d : Dev) (p : Nat) (x : PortSt) : (setPort d p x).retired1 = d.retired1 := rfl
@[simp] theorem setPort_scrub (d : Dev) (p : Nat) (x : PortSt) : (setPort d p x).scrub = d.scrub := rfl
@[simp] theorem setPort_ferryIn (d : Dev) (p : Nat) (x : PortSt) : (setPort d p x).ferryIn = d.ferryIn := rfl
@[simp] theorem setPort_ferry (d : Dev) (p : Nat) (x : PortSt) : (setPort d p x).ferry = d.ferry := rfl
@[simp] theorem setPort_cans (d : Dev) (p : Nat) (x : PortSt) : (setPort d p x).cans = d.cans := rfl
@[simp] theorem setPort_lins (d : Dev) (p : Nat) (x : PortSt) : (setPort d p x).lins = d.lins := rfl
@[simp] theorem setPort_tapQ (d : Dev) (p : Nat) (x : PortSt) : (setPort d p x).tapQ = d.tapQ := rfl
@[simp] theorem setPort_manQ (d : Dev) (p : Nat) (x : PortSt) : (setPort d p x).manQ = d.manQ := rfl
@[simp] theorem setPort_car (d : Dev) (p : Nat) (x : PortSt) : (setPort d p x).car = d.car := rfl
@[simp] theorem setPort_man (d : Dev) (p : Nat) (x : PortSt) : (setPort d p x).man = d.man := rfl
@[simp] theorem setPort_diagPrev (d : Dev) (p : Nat) (x : PortSt) : (setPort d p x).diagPrev = d.diagPrev := rfl
@[simp] theorem setPort_commitBy (d : Dev) (p : Nat) (x : PortSt) : (setPort d p x).commitBy = d.commitBy := rfl
@[simp] theorem setPort_host (d : Dev) (p : Nat) (x : PortSt) : (setPort d p x).host = d.host := rfl
@[simp] theorem setPort_xwe (d : Dev) (p : Nat) (x : PortSt) : (setPort d p x).xwe = d.xwe := rfl
@[simp] theorem setPort_pair (d : Dev) (p : Nat) (x : PortSt) : (setPort d p x).pair = d.pair := rfl
@[simp] theorem setPort_buoy (d : Dev) (p : Nat) (x : PortSt) : (setPort d p x).buoy = d.buoy := rfl
@[simp] theorem setPort_pwr (d : Dev) (p : Nat) (x : PortSt) : (setPort d p x).pwr = d.pwr := rfl
@[simp] theorem setPort_scarab (d : Dev) (p : Nat) (x : PortSt) : (setPort d p x).scarab = d.scarab := rfl
@[simp] theorem setPort_dbg (d : Dev) (p : Nat) (x : PortSt) : (setPort d p x).dbg = d.dbg := rfl
@[simp] theorem setPort_boot (d : Dev) (p : Nat) (x : PortSt) : (setPort d p x).boot = d.boot := rfl

/-! ### `setGates` -/

@[simp] theorem setGates_now (d : Dev) (p : Nat) (x : Gates) : (setGates d p x).now = d.now := rfl
@[simp] theorem setGates_regs (d : Dev) (p : Nat) (x : Gates) : (setGates d p x).regs = d.regs := rfl
@[simp] theorem setGates_act (d : Dev) (p : Nat) (x : Gates) : (setGates d p x).act = d.act := rfl
@[simp] theorem setGates_frz (d : Dev) (p : Nat) (x : Gates) : (setGates d p x).frz = d.frz := rfl
@[simp] theorem setGates_frzSel (d : Dev) (p : Nat) (x : Gates) : (setGates d p x).frzSel = d.frzSel := rfl
@[simp] theorem setGates_tbl (d : Dev) (p : Nat) (x : Gates) : (setGates d p x).tbl = d.tbl := rfl
@[simp] theorem setGates_epoch (d : Dev) (p : Nat) (x : Gates) : (setGates d p x).epoch = d.epoch := rfl
@[simp] theorem setGates_retired (d : Dev) (p : Nat) (x : Gates) : (setGates d p x).retired = d.retired := rfl
@[simp] theorem setGates_srst (d : Dev) (p : Nat) (x : Gates) : (setGates d p x).srst = d.srst := rfl
@[simp] theorem setGates_commitAt (d : Dev) (p : Nat) (x : Gates) : (setGates d p x).commitAt = d.commitAt := rfl
@[simp] theorem setGates_refillAt (d : Dev) (p : Nat) (x : Gates) : (setGates d p x).refillAt = d.refillAt := rfl
@[simp] theorem setGates_tideRef (d : Dev) (p : Nat) (x : Gates) : (setGates d p x).tideRef = d.tideRef := rfl
@[simp] theorem setGates_sigFrom (d : Dev) (p : Nat) (x : Gates) : (setGates d p x).sigFrom = d.sigFrom := rfl
@[simp] theorem setGates_frees (d : Dev) (p : Nat) (x : Gates) : (setGates d p x).frees = d.frees := rfl
@[simp] theorem setGates_evq (d : Dev) (p : Nat) (x : Gates) : (setGates d p x).evq = d.evq := rfl
@[simp] theorem setGates_out (d : Dev) (p : Nat) (x : Gates) : (setGates d p x).out = d.out := rfl
@[simp] theorem setGates_memOut (d : Dev) (p : Nat) (x : Gates) : (setGates d p x).memOut = d.memOut := rfl
@[simp] theorem setGates_fcn (d : Dev) (p : Nat) (x : Gates) : (setGates d p x).fcn = d.fcn := rfl
@[simp] theorem setGates_time (d : Dev) (p : Nat) (x : Gates) : (setGates d p x).time = d.time := rfl
@[simp] theorem setGates_quays (d : Dev) (p : Nat) (x : Gates) : (setGates d p x).quays = d.quays := rfl
@[simp] theorem setGates_ports (d : Dev) (p : Nat) (x : Gates) : (setGates d p x).ports = d.ports := rfl
@[simp] theorem setGates_tx (d : Dev) (p : Nat) (x : Gates) : (setGates d p x).tx = d.tx := rfl
@[simp] theorem setGates_susp (d : Dev) (p : Nat) (x : Gates) : (setGates d p x).susp = d.susp := rfl
@[simp] theorem setGates_credits (d : Dev) (p : Nat) (x : Gates) : (setGates d p x).credits = d.credits := rfl
@[simp] theorem setGates_filters (d : Dev) (p : Nat) (x : Gates) : (setGates d p x).filters = d.filters := rfl
@[simp] theorem setGates_meters (d : Dev) (p : Nat) (x : Gates) : (setGates d p x).meters = d.meters := rfl
@[simp] theorem setGates_pend (d : Dev) (p : Nat) (x : Gates) : (setGates d p x).pend = d.pend := rfl
@[simp] theorem setGates_agedAt (d : Dev) (p : Nat) (x : Gates) : (setGates d p x).agedAt = d.agedAt := rfl
@[simp] theorem setGates_nextFid (d : Dev) (p : Nat) (x : Gates) : (setGates d p x).nextFid = d.nextFid := rfl
@[simp] theorem setGates_frerQ (d : Dev) (p : Nat) (x : Gates) : (setGates d p x).frerQ = d.frerQ := rfl
@[simp] theorem setGates_flush (d : Dev) (p : Nat) (x : Gates) : (setGates d p x).flush = d.flush := rfl
@[simp] theorem setGates_diagSer (d : Dev) (p : Nat) (x : Gates) : (setGates d p x).diagSer = d.diagSer := rfl
@[simp] theorem setGates_evidAt (d : Dev) (p : Nat) (x : Gates) : (setGates d p x).evidAt = d.evidAt := rfl
@[simp] theorem setGates_rateRem (d : Dev) (p : Nat) (x : Gates) : (setGates d p x).rateRem = d.rateRem := rfl
@[simp] theorem setGates_logAt (d : Dev) (p : Nat) (x : Gates) : (setGates d p x).logAt = d.logAt := rfl
@[simp] theorem setGates_retired1 (d : Dev) (p : Nat) (x : Gates) : (setGates d p x).retired1 = d.retired1 := rfl
@[simp] theorem setGates_scrub (d : Dev) (p : Nat) (x : Gates) : (setGates d p x).scrub = d.scrub := rfl
@[simp] theorem setGates_ferryIn (d : Dev) (p : Nat) (x : Gates) : (setGates d p x).ferryIn = d.ferryIn := rfl
@[simp] theorem setGates_ferry (d : Dev) (p : Nat) (x : Gates) : (setGates d p x).ferry = d.ferry := rfl
@[simp] theorem setGates_cans (d : Dev) (p : Nat) (x : Gates) : (setGates d p x).cans = d.cans := rfl
@[simp] theorem setGates_lins (d : Dev) (p : Nat) (x : Gates) : (setGates d p x).lins = d.lins := rfl
@[simp] theorem setGates_tapQ (d : Dev) (p : Nat) (x : Gates) : (setGates d p x).tapQ = d.tapQ := rfl
@[simp] theorem setGates_manQ (d : Dev) (p : Nat) (x : Gates) : (setGates d p x).manQ = d.manQ := rfl
@[simp] theorem setGates_car (d : Dev) (p : Nat) (x : Gates) : (setGates d p x).car = d.car := rfl
@[simp] theorem setGates_man (d : Dev) (p : Nat) (x : Gates) : (setGates d p x).man = d.man := rfl
@[simp] theorem setGates_diagPrev (d : Dev) (p : Nat) (x : Gates) : (setGates d p x).diagPrev = d.diagPrev := rfl
@[simp] theorem setGates_commitBy (d : Dev) (p : Nat) (x : Gates) : (setGates d p x).commitBy = d.commitBy := rfl
@[simp] theorem setGates_host (d : Dev) (p : Nat) (x : Gates) : (setGates d p x).host = d.host := rfl
@[simp] theorem setGates_xwe (d : Dev) (p : Nat) (x : Gates) : (setGates d p x).xwe = d.xwe := rfl
@[simp] theorem setGates_pair (d : Dev) (p : Nat) (x : Gates) : (setGates d p x).pair = d.pair := rfl
@[simp] theorem setGates_buoy (d : Dev) (p : Nat) (x : Gates) : (setGates d p x).buoy = d.buoy := rfl
@[simp] theorem setGates_pwr (d : Dev) (p : Nat) (x : Gates) : (setGates d p x).pwr = d.pwr := rfl
@[simp] theorem setGates_scarab (d : Dev) (p : Nat) (x : Gates) : (setGates d p x).scarab = d.scarab := rfl
@[simp] theorem setGates_dbg (d : Dev) (p : Nat) (x : Gates) : (setGates d p x).dbg = d.dbg := rfl
@[simp] theorem setGates_boot (d : Dev) (p : Nat) (x : Gates) : (setGates d p x).boot = d.boot := rfl

/-! ### `setFilter` -/

@[simp] theorem setFilter_now (d : Dev) (i : Nat) (x : Filter) : (setFilter d i x).now = d.now := rfl
@[simp] theorem setFilter_regs (d : Dev) (i : Nat) (x : Filter) : (setFilter d i x).regs = d.regs := rfl
@[simp] theorem setFilter_act (d : Dev) (i : Nat) (x : Filter) : (setFilter d i x).act = d.act := rfl
@[simp] theorem setFilter_frz (d : Dev) (i : Nat) (x : Filter) : (setFilter d i x).frz = d.frz := rfl
@[simp] theorem setFilter_frzSel (d : Dev) (i : Nat) (x : Filter) : (setFilter d i x).frzSel = d.frzSel := rfl
@[simp] theorem setFilter_tbl (d : Dev) (i : Nat) (x : Filter) : (setFilter d i x).tbl = d.tbl := rfl
@[simp] theorem setFilter_epoch (d : Dev) (i : Nat) (x : Filter) : (setFilter d i x).epoch = d.epoch := rfl
@[simp] theorem setFilter_retired (d : Dev) (i : Nat) (x : Filter) : (setFilter d i x).retired = d.retired := rfl
@[simp] theorem setFilter_srst (d : Dev) (i : Nat) (x : Filter) : (setFilter d i x).srst = d.srst := rfl
@[simp] theorem setFilter_commitAt (d : Dev) (i : Nat) (x : Filter) : (setFilter d i x).commitAt = d.commitAt := rfl
@[simp] theorem setFilter_refillAt (d : Dev) (i : Nat) (x : Filter) : (setFilter d i x).refillAt = d.refillAt := rfl
@[simp] theorem setFilter_tideRef (d : Dev) (i : Nat) (x : Filter) : (setFilter d i x).tideRef = d.tideRef := rfl
@[simp] theorem setFilter_sigFrom (d : Dev) (i : Nat) (x : Filter) : (setFilter d i x).sigFrom = d.sigFrom := rfl
@[simp] theorem setFilter_frees (d : Dev) (i : Nat) (x : Filter) : (setFilter d i x).frees = d.frees := rfl
@[simp] theorem setFilter_evq (d : Dev) (i : Nat) (x : Filter) : (setFilter d i x).evq = d.evq := rfl
@[simp] theorem setFilter_out (d : Dev) (i : Nat) (x : Filter) : (setFilter d i x).out = d.out := rfl
@[simp] theorem setFilter_memOut (d : Dev) (i : Nat) (x : Filter) : (setFilter d i x).memOut = d.memOut := rfl
@[simp] theorem setFilter_fcn (d : Dev) (i : Nat) (x : Filter) : (setFilter d i x).fcn = d.fcn := rfl
@[simp] theorem setFilter_time (d : Dev) (i : Nat) (x : Filter) : (setFilter d i x).time = d.time := rfl
@[simp] theorem setFilter_quays (d : Dev) (i : Nat) (x : Filter) : (setFilter d i x).quays = d.quays := rfl
@[simp] theorem setFilter_ports (d : Dev) (i : Nat) (x : Filter) : (setFilter d i x).ports = d.ports := rfl
@[simp] theorem setFilter_tx (d : Dev) (i : Nat) (x : Filter) : (setFilter d i x).tx = d.tx := rfl
@[simp] theorem setFilter_susp (d : Dev) (i : Nat) (x : Filter) : (setFilter d i x).susp = d.susp := rfl
@[simp] theorem setFilter_gates (d : Dev) (i : Nat) (x : Filter) : (setFilter d i x).gates = d.gates := rfl
@[simp] theorem setFilter_credits (d : Dev) (i : Nat) (x : Filter) : (setFilter d i x).credits = d.credits := rfl
@[simp] theorem setFilter_meters (d : Dev) (i : Nat) (x : Filter) : (setFilter d i x).meters = d.meters := rfl
@[simp] theorem setFilter_pend (d : Dev) (i : Nat) (x : Filter) : (setFilter d i x).pend = d.pend := rfl
@[simp] theorem setFilter_agedAt (d : Dev) (i : Nat) (x : Filter) : (setFilter d i x).agedAt = d.agedAt := rfl
@[simp] theorem setFilter_nextFid (d : Dev) (i : Nat) (x : Filter) : (setFilter d i x).nextFid = d.nextFid := rfl
@[simp] theorem setFilter_frerQ (d : Dev) (i : Nat) (x : Filter) : (setFilter d i x).frerQ = d.frerQ := rfl
@[simp] theorem setFilter_flush (d : Dev) (i : Nat) (x : Filter) : (setFilter d i x).flush = d.flush := rfl
@[simp] theorem setFilter_diagSer (d : Dev) (i : Nat) (x : Filter) : (setFilter d i x).diagSer = d.diagSer := rfl
@[simp] theorem setFilter_evidAt (d : Dev) (i : Nat) (x : Filter) : (setFilter d i x).evidAt = d.evidAt := rfl
@[simp] theorem setFilter_rateRem (d : Dev) (i : Nat) (x : Filter) : (setFilter d i x).rateRem = d.rateRem := rfl
@[simp] theorem setFilter_logAt (d : Dev) (i : Nat) (x : Filter) : (setFilter d i x).logAt = d.logAt := rfl
@[simp] theorem setFilter_retired1 (d : Dev) (i : Nat) (x : Filter) : (setFilter d i x).retired1 = d.retired1 := rfl
@[simp] theorem setFilter_scrub (d : Dev) (i : Nat) (x : Filter) : (setFilter d i x).scrub = d.scrub := rfl
@[simp] theorem setFilter_ferryIn (d : Dev) (i : Nat) (x : Filter) : (setFilter d i x).ferryIn = d.ferryIn := rfl
@[simp] theorem setFilter_ferry (d : Dev) (i : Nat) (x : Filter) : (setFilter d i x).ferry = d.ferry := rfl
@[simp] theorem setFilter_cans (d : Dev) (i : Nat) (x : Filter) : (setFilter d i x).cans = d.cans := rfl
@[simp] theorem setFilter_lins (d : Dev) (i : Nat) (x : Filter) : (setFilter d i x).lins = d.lins := rfl
@[simp] theorem setFilter_tapQ (d : Dev) (i : Nat) (x : Filter) : (setFilter d i x).tapQ = d.tapQ := rfl
@[simp] theorem setFilter_manQ (d : Dev) (i : Nat) (x : Filter) : (setFilter d i x).manQ = d.manQ := rfl
@[simp] theorem setFilter_car (d : Dev) (i : Nat) (x : Filter) : (setFilter d i x).car = d.car := rfl
@[simp] theorem setFilter_man (d : Dev) (i : Nat) (x : Filter) : (setFilter d i x).man = d.man := rfl
@[simp] theorem setFilter_diagPrev (d : Dev) (i : Nat) (x : Filter) : (setFilter d i x).diagPrev = d.diagPrev := rfl
@[simp] theorem setFilter_commitBy (d : Dev) (i : Nat) (x : Filter) : (setFilter d i x).commitBy = d.commitBy := rfl
@[simp] theorem setFilter_host (d : Dev) (i : Nat) (x : Filter) : (setFilter d i x).host = d.host := rfl
@[simp] theorem setFilter_xwe (d : Dev) (i : Nat) (x : Filter) : (setFilter d i x).xwe = d.xwe := rfl
@[simp] theorem setFilter_pair (d : Dev) (i : Nat) (x : Filter) : (setFilter d i x).pair = d.pair := rfl
@[simp] theorem setFilter_buoy (d : Dev) (i : Nat) (x : Filter) : (setFilter d i x).buoy = d.buoy := rfl
@[simp] theorem setFilter_pwr (d : Dev) (i : Nat) (x : Filter) : (setFilter d i x).pwr = d.pwr := rfl
@[simp] theorem setFilter_scarab (d : Dev) (i : Nat) (x : Filter) : (setFilter d i x).scarab = d.scarab := rfl
@[simp] theorem setFilter_dbg (d : Dev) (i : Nat) (x : Filter) : (setFilter d i x).dbg = d.dbg := rfl
@[simp] theorem setFilter_boot (d : Dev) (i : Nat) (x : Filter) : (setFilter d i x).boot = d.boot := rfl

/-! ### `setCan` -/

@[simp] theorem setCan_now (d : Dev) (k : Nat) (x : CanSt) : (setCan d k x).now = d.now := rfl
@[simp] theorem setCan_regs (d : Dev) (k : Nat) (x : CanSt) : (setCan d k x).regs = d.regs := rfl
@[simp] theorem setCan_act (d : Dev) (k : Nat) (x : CanSt) : (setCan d k x).act = d.act := rfl
@[simp] theorem setCan_frz (d : Dev) (k : Nat) (x : CanSt) : (setCan d k x).frz = d.frz := rfl
@[simp] theorem setCan_frzSel (d : Dev) (k : Nat) (x : CanSt) : (setCan d k x).frzSel = d.frzSel := rfl
@[simp] theorem setCan_tbl (d : Dev) (k : Nat) (x : CanSt) : (setCan d k x).tbl = d.tbl := rfl
@[simp] theorem setCan_epoch (d : Dev) (k : Nat) (x : CanSt) : (setCan d k x).epoch = d.epoch := rfl
@[simp] theorem setCan_retired (d : Dev) (k : Nat) (x : CanSt) : (setCan d k x).retired = d.retired := rfl
@[simp] theorem setCan_srst (d : Dev) (k : Nat) (x : CanSt) : (setCan d k x).srst = d.srst := rfl
@[simp] theorem setCan_commitAt (d : Dev) (k : Nat) (x : CanSt) : (setCan d k x).commitAt = d.commitAt := rfl
@[simp] theorem setCan_refillAt (d : Dev) (k : Nat) (x : CanSt) : (setCan d k x).refillAt = d.refillAt := rfl
@[simp] theorem setCan_tideRef (d : Dev) (k : Nat) (x : CanSt) : (setCan d k x).tideRef = d.tideRef := rfl
@[simp] theorem setCan_sigFrom (d : Dev) (k : Nat) (x : CanSt) : (setCan d k x).sigFrom = d.sigFrom := rfl
@[simp] theorem setCan_frees (d : Dev) (k : Nat) (x : CanSt) : (setCan d k x).frees = d.frees := rfl
@[simp] theorem setCan_evq (d : Dev) (k : Nat) (x : CanSt) : (setCan d k x).evq = d.evq := rfl
@[simp] theorem setCan_out (d : Dev) (k : Nat) (x : CanSt) : (setCan d k x).out = d.out := rfl
@[simp] theorem setCan_memOut (d : Dev) (k : Nat) (x : CanSt) : (setCan d k x).memOut = d.memOut := rfl
@[simp] theorem setCan_fcn (d : Dev) (k : Nat) (x : CanSt) : (setCan d k x).fcn = d.fcn := rfl
@[simp] theorem setCan_time (d : Dev) (k : Nat) (x : CanSt) : (setCan d k x).time = d.time := rfl
@[simp] theorem setCan_quays (d : Dev) (k : Nat) (x : CanSt) : (setCan d k x).quays = d.quays := rfl
@[simp] theorem setCan_ports (d : Dev) (k : Nat) (x : CanSt) : (setCan d k x).ports = d.ports := rfl
@[simp] theorem setCan_tx (d : Dev) (k : Nat) (x : CanSt) : (setCan d k x).tx = d.tx := rfl
@[simp] theorem setCan_susp (d : Dev) (k : Nat) (x : CanSt) : (setCan d k x).susp = d.susp := rfl
@[simp] theorem setCan_gates (d : Dev) (k : Nat) (x : CanSt) : (setCan d k x).gates = d.gates := rfl
@[simp] theorem setCan_credits (d : Dev) (k : Nat) (x : CanSt) : (setCan d k x).credits = d.credits := rfl
@[simp] theorem setCan_filters (d : Dev) (k : Nat) (x : CanSt) : (setCan d k x).filters = d.filters := rfl
@[simp] theorem setCan_meters (d : Dev) (k : Nat) (x : CanSt) : (setCan d k x).meters = d.meters := rfl
@[simp] theorem setCan_pend (d : Dev) (k : Nat) (x : CanSt) : (setCan d k x).pend = d.pend := rfl
@[simp] theorem setCan_agedAt (d : Dev) (k : Nat) (x : CanSt) : (setCan d k x).agedAt = d.agedAt := rfl
@[simp] theorem setCan_nextFid (d : Dev) (k : Nat) (x : CanSt) : (setCan d k x).nextFid = d.nextFid := rfl
@[simp] theorem setCan_frerQ (d : Dev) (k : Nat) (x : CanSt) : (setCan d k x).frerQ = d.frerQ := rfl
@[simp] theorem setCan_flush (d : Dev) (k : Nat) (x : CanSt) : (setCan d k x).flush = d.flush := rfl
@[simp] theorem setCan_diagSer (d : Dev) (k : Nat) (x : CanSt) : (setCan d k x).diagSer = d.diagSer := rfl
@[simp] theorem setCan_evidAt (d : Dev) (k : Nat) (x : CanSt) : (setCan d k x).evidAt = d.evidAt := rfl
@[simp] theorem setCan_rateRem (d : Dev) (k : Nat) (x : CanSt) : (setCan d k x).rateRem = d.rateRem := rfl
@[simp] theorem setCan_logAt (d : Dev) (k : Nat) (x : CanSt) : (setCan d k x).logAt = d.logAt := rfl
@[simp] theorem setCan_retired1 (d : Dev) (k : Nat) (x : CanSt) : (setCan d k x).retired1 = d.retired1 := rfl
@[simp] theorem setCan_scrub (d : Dev) (k : Nat) (x : CanSt) : (setCan d k x).scrub = d.scrub := rfl
@[simp] theorem setCan_ferryIn (d : Dev) (k : Nat) (x : CanSt) : (setCan d k x).ferryIn = d.ferryIn := rfl
@[simp] theorem setCan_ferry (d : Dev) (k : Nat) (x : CanSt) : (setCan d k x).ferry = d.ferry := rfl
@[simp] theorem setCan_lins (d : Dev) (k : Nat) (x : CanSt) : (setCan d k x).lins = d.lins := rfl
@[simp] theorem setCan_tapQ (d : Dev) (k : Nat) (x : CanSt) : (setCan d k x).tapQ = d.tapQ := rfl
@[simp] theorem setCan_manQ (d : Dev) (k : Nat) (x : CanSt) : (setCan d k x).manQ = d.manQ := rfl
@[simp] theorem setCan_car (d : Dev) (k : Nat) (x : CanSt) : (setCan d k x).car = d.car := rfl
@[simp] theorem setCan_man (d : Dev) (k : Nat) (x : CanSt) : (setCan d k x).man = d.man := rfl
@[simp] theorem setCan_diagPrev (d : Dev) (k : Nat) (x : CanSt) : (setCan d k x).diagPrev = d.diagPrev := rfl
@[simp] theorem setCan_commitBy (d : Dev) (k : Nat) (x : CanSt) : (setCan d k x).commitBy = d.commitBy := rfl
@[simp] theorem setCan_host (d : Dev) (k : Nat) (x : CanSt) : (setCan d k x).host = d.host := rfl
@[simp] theorem setCan_xwe (d : Dev) (k : Nat) (x : CanSt) : (setCan d k x).xwe = d.xwe := rfl
@[simp] theorem setCan_pair (d : Dev) (k : Nat) (x : CanSt) : (setCan d k x).pair = d.pair := rfl
@[simp] theorem setCan_buoy (d : Dev) (k : Nat) (x : CanSt) : (setCan d k x).buoy = d.buoy := rfl
@[simp] theorem setCan_pwr (d : Dev) (k : Nat) (x : CanSt) : (setCan d k x).pwr = d.pwr := rfl
@[simp] theorem setCan_scarab (d : Dev) (k : Nat) (x : CanSt) : (setCan d k x).scarab = d.scarab := rfl
@[simp] theorem setCan_dbg (d : Dev) (k : Nat) (x : CanSt) : (setCan d k x).dbg = d.dbg := rfl
@[simp] theorem setCan_boot (d : Dev) (k : Nat) (x : CanSt) : (setCan d k x).boot = d.boot := rfl

/-! ### `setLin` -/

@[simp] theorem setLin_now (d : Dev) (l : Nat) (x : LinSt) : (setLin d l x).now = d.now := rfl
@[simp] theorem setLin_regs (d : Dev) (l : Nat) (x : LinSt) : (setLin d l x).regs = d.regs := rfl
@[simp] theorem setLin_act (d : Dev) (l : Nat) (x : LinSt) : (setLin d l x).act = d.act := rfl
@[simp] theorem setLin_frz (d : Dev) (l : Nat) (x : LinSt) : (setLin d l x).frz = d.frz := rfl
@[simp] theorem setLin_frzSel (d : Dev) (l : Nat) (x : LinSt) : (setLin d l x).frzSel = d.frzSel := rfl
@[simp] theorem setLin_tbl (d : Dev) (l : Nat) (x : LinSt) : (setLin d l x).tbl = d.tbl := rfl
@[simp] theorem setLin_epoch (d : Dev) (l : Nat) (x : LinSt) : (setLin d l x).epoch = d.epoch := rfl
@[simp] theorem setLin_retired (d : Dev) (l : Nat) (x : LinSt) : (setLin d l x).retired = d.retired := rfl
@[simp] theorem setLin_srst (d : Dev) (l : Nat) (x : LinSt) : (setLin d l x).srst = d.srst := rfl
@[simp] theorem setLin_commitAt (d : Dev) (l : Nat) (x : LinSt) : (setLin d l x).commitAt = d.commitAt := rfl
@[simp] theorem setLin_refillAt (d : Dev) (l : Nat) (x : LinSt) : (setLin d l x).refillAt = d.refillAt := rfl
@[simp] theorem setLin_tideRef (d : Dev) (l : Nat) (x : LinSt) : (setLin d l x).tideRef = d.tideRef := rfl
@[simp] theorem setLin_sigFrom (d : Dev) (l : Nat) (x : LinSt) : (setLin d l x).sigFrom = d.sigFrom := rfl
@[simp] theorem setLin_frees (d : Dev) (l : Nat) (x : LinSt) : (setLin d l x).frees = d.frees := rfl
@[simp] theorem setLin_evq (d : Dev) (l : Nat) (x : LinSt) : (setLin d l x).evq = d.evq := rfl
@[simp] theorem setLin_out (d : Dev) (l : Nat) (x : LinSt) : (setLin d l x).out = d.out := rfl
@[simp] theorem setLin_memOut (d : Dev) (l : Nat) (x : LinSt) : (setLin d l x).memOut = d.memOut := rfl
@[simp] theorem setLin_fcn (d : Dev) (l : Nat) (x : LinSt) : (setLin d l x).fcn = d.fcn := rfl
@[simp] theorem setLin_time (d : Dev) (l : Nat) (x : LinSt) : (setLin d l x).time = d.time := rfl
@[simp] theorem setLin_quays (d : Dev) (l : Nat) (x : LinSt) : (setLin d l x).quays = d.quays := rfl
@[simp] theorem setLin_ports (d : Dev) (l : Nat) (x : LinSt) : (setLin d l x).ports = d.ports := rfl
@[simp] theorem setLin_tx (d : Dev) (l : Nat) (x : LinSt) : (setLin d l x).tx = d.tx := rfl
@[simp] theorem setLin_susp (d : Dev) (l : Nat) (x : LinSt) : (setLin d l x).susp = d.susp := rfl
@[simp] theorem setLin_gates (d : Dev) (l : Nat) (x : LinSt) : (setLin d l x).gates = d.gates := rfl
@[simp] theorem setLin_credits (d : Dev) (l : Nat) (x : LinSt) : (setLin d l x).credits = d.credits := rfl
@[simp] theorem setLin_filters (d : Dev) (l : Nat) (x : LinSt) : (setLin d l x).filters = d.filters := rfl
@[simp] theorem setLin_meters (d : Dev) (l : Nat) (x : LinSt) : (setLin d l x).meters = d.meters := rfl
@[simp] theorem setLin_pend (d : Dev) (l : Nat) (x : LinSt) : (setLin d l x).pend = d.pend := rfl
@[simp] theorem setLin_agedAt (d : Dev) (l : Nat) (x : LinSt) : (setLin d l x).agedAt = d.agedAt := rfl
@[simp] theorem setLin_nextFid (d : Dev) (l : Nat) (x : LinSt) : (setLin d l x).nextFid = d.nextFid := rfl
@[simp] theorem setLin_frerQ (d : Dev) (l : Nat) (x : LinSt) : (setLin d l x).frerQ = d.frerQ := rfl
@[simp] theorem setLin_flush (d : Dev) (l : Nat) (x : LinSt) : (setLin d l x).flush = d.flush := rfl
@[simp] theorem setLin_diagSer (d : Dev) (l : Nat) (x : LinSt) : (setLin d l x).diagSer = d.diagSer := rfl
@[simp] theorem setLin_evidAt (d : Dev) (l : Nat) (x : LinSt) : (setLin d l x).evidAt = d.evidAt := rfl
@[simp] theorem setLin_rateRem (d : Dev) (l : Nat) (x : LinSt) : (setLin d l x).rateRem = d.rateRem := rfl
@[simp] theorem setLin_logAt (d : Dev) (l : Nat) (x : LinSt) : (setLin d l x).logAt = d.logAt := rfl
@[simp] theorem setLin_retired1 (d : Dev) (l : Nat) (x : LinSt) : (setLin d l x).retired1 = d.retired1 := rfl
@[simp] theorem setLin_scrub (d : Dev) (l : Nat) (x : LinSt) : (setLin d l x).scrub = d.scrub := rfl
@[simp] theorem setLin_ferryIn (d : Dev) (l : Nat) (x : LinSt) : (setLin d l x).ferryIn = d.ferryIn := rfl
@[simp] theorem setLin_ferry (d : Dev) (l : Nat) (x : LinSt) : (setLin d l x).ferry = d.ferry := rfl
@[simp] theorem setLin_cans (d : Dev) (l : Nat) (x : LinSt) : (setLin d l x).cans = d.cans := rfl
@[simp] theorem setLin_tapQ (d : Dev) (l : Nat) (x : LinSt) : (setLin d l x).tapQ = d.tapQ := rfl
@[simp] theorem setLin_manQ (d : Dev) (l : Nat) (x : LinSt) : (setLin d l x).manQ = d.manQ := rfl
@[simp] theorem setLin_car (d : Dev) (l : Nat) (x : LinSt) : (setLin d l x).car = d.car := rfl
@[simp] theorem setLin_man (d : Dev) (l : Nat) (x : LinSt) : (setLin d l x).man = d.man := rfl
@[simp] theorem setLin_diagPrev (d : Dev) (l : Nat) (x : LinSt) : (setLin d l x).diagPrev = d.diagPrev := rfl
@[simp] theorem setLin_commitBy (d : Dev) (l : Nat) (x : LinSt) : (setLin d l x).commitBy = d.commitBy := rfl
@[simp] theorem setLin_host (d : Dev) (l : Nat) (x : LinSt) : (setLin d l x).host = d.host := rfl
@[simp] theorem setLin_xwe (d : Dev) (l : Nat) (x : LinSt) : (setLin d l x).xwe = d.xwe := rfl
@[simp] theorem setLin_pair (d : Dev) (l : Nat) (x : LinSt) : (setLin d l x).pair = d.pair := rfl
@[simp] theorem setLin_buoy (d : Dev) (l : Nat) (x : LinSt) : (setLin d l x).buoy = d.buoy := rfl
@[simp] theorem setLin_pwr (d : Dev) (l : Nat) (x : LinSt) : (setLin d l x).pwr = d.pwr := rfl
@[simp] theorem setLin_scarab (d : Dev) (l : Nat) (x : LinSt) : (setLin d l x).scarab = d.scarab := rfl
@[simp] theorem setLin_dbg (d : Dev) (l : Nat) (x : LinSt) : (setLin d l x).dbg = d.dbg := rfl
@[simp] theorem setLin_boot (d : Dev) (l : Nat) (x : LinSt) : (setLin d l x).boot = d.boot := rfl

/-! ### `setFerry` -/

@[simp] theorem setFerry_now (d : Dev) (f : FerrySt → FerrySt) : (setFerry d f).now = d.now := rfl
@[simp] theorem setFerry_regs (d : Dev) (f : FerrySt → FerrySt) : (setFerry d f).regs = d.regs := rfl
@[simp] theorem setFerry_act (d : Dev) (f : FerrySt → FerrySt) : (setFerry d f).act = d.act := rfl
@[simp] theorem setFerry_frz (d : Dev) (f : FerrySt → FerrySt) : (setFerry d f).frz = d.frz := rfl
@[simp] theorem setFerry_frzSel (d : Dev) (f : FerrySt → FerrySt) : (setFerry d f).frzSel = d.frzSel := rfl
@[simp] theorem setFerry_tbl (d : Dev) (f : FerrySt → FerrySt) : (setFerry d f).tbl = d.tbl := rfl
@[simp] theorem setFerry_epoch (d : Dev) (f : FerrySt → FerrySt) : (setFerry d f).epoch = d.epoch := rfl
@[simp] theorem setFerry_retired (d : Dev) (f : FerrySt → FerrySt) : (setFerry d f).retired = d.retired := rfl
@[simp] theorem setFerry_srst (d : Dev) (f : FerrySt → FerrySt) : (setFerry d f).srst = d.srst := rfl
@[simp] theorem setFerry_commitAt (d : Dev) (f : FerrySt → FerrySt) : (setFerry d f).commitAt = d.commitAt := rfl
@[simp] theorem setFerry_refillAt (d : Dev) (f : FerrySt → FerrySt) : (setFerry d f).refillAt = d.refillAt := rfl
@[simp] theorem setFerry_tideRef (d : Dev) (f : FerrySt → FerrySt) : (setFerry d f).tideRef = d.tideRef := rfl
@[simp] theorem setFerry_sigFrom (d : Dev) (f : FerrySt → FerrySt) : (setFerry d f).sigFrom = d.sigFrom := rfl
@[simp] theorem setFerry_frees (d : Dev) (f : FerrySt → FerrySt) : (setFerry d f).frees = d.frees := rfl
@[simp] theorem setFerry_evq (d : Dev) (f : FerrySt → FerrySt) : (setFerry d f).evq = d.evq := rfl
@[simp] theorem setFerry_out (d : Dev) (f : FerrySt → FerrySt) : (setFerry d f).out = d.out := rfl
@[simp] theorem setFerry_memOut (d : Dev) (f : FerrySt → FerrySt) : (setFerry d f).memOut = d.memOut := rfl
@[simp] theorem setFerry_fcn (d : Dev) (f : FerrySt → FerrySt) : (setFerry d f).fcn = d.fcn := rfl
@[simp] theorem setFerry_time (d : Dev) (f : FerrySt → FerrySt) : (setFerry d f).time = d.time := rfl
@[simp] theorem setFerry_quays (d : Dev) (f : FerrySt → FerrySt) : (setFerry d f).quays = d.quays := rfl
@[simp] theorem setFerry_ports (d : Dev) (f : FerrySt → FerrySt) : (setFerry d f).ports = d.ports := rfl
@[simp] theorem setFerry_tx (d : Dev) (f : FerrySt → FerrySt) : (setFerry d f).tx = d.tx := rfl
@[simp] theorem setFerry_susp (d : Dev) (f : FerrySt → FerrySt) : (setFerry d f).susp = d.susp := rfl
@[simp] theorem setFerry_gates (d : Dev) (f : FerrySt → FerrySt) : (setFerry d f).gates = d.gates := rfl
@[simp] theorem setFerry_credits (d : Dev) (f : FerrySt → FerrySt) : (setFerry d f).credits = d.credits := rfl
@[simp] theorem setFerry_filters (d : Dev) (f : FerrySt → FerrySt) : (setFerry d f).filters = d.filters := rfl
@[simp] theorem setFerry_meters (d : Dev) (f : FerrySt → FerrySt) : (setFerry d f).meters = d.meters := rfl
@[simp] theorem setFerry_pend (d : Dev) (f : FerrySt → FerrySt) : (setFerry d f).pend = d.pend := rfl
@[simp] theorem setFerry_agedAt (d : Dev) (f : FerrySt → FerrySt) : (setFerry d f).agedAt = d.agedAt := rfl
@[simp] theorem setFerry_nextFid (d : Dev) (f : FerrySt → FerrySt) : (setFerry d f).nextFid = d.nextFid := rfl
@[simp] theorem setFerry_frerQ (d : Dev) (f : FerrySt → FerrySt) : (setFerry d f).frerQ = d.frerQ := rfl
@[simp] theorem setFerry_flush (d : Dev) (f : FerrySt → FerrySt) : (setFerry d f).flush = d.flush := rfl
@[simp] theorem setFerry_diagSer (d : Dev) (f : FerrySt → FerrySt) : (setFerry d f).diagSer = d.diagSer := rfl
@[simp] theorem setFerry_evidAt (d : Dev) (f : FerrySt → FerrySt) : (setFerry d f).evidAt = d.evidAt := rfl
@[simp] theorem setFerry_rateRem (d : Dev) (f : FerrySt → FerrySt) : (setFerry d f).rateRem = d.rateRem := rfl
@[simp] theorem setFerry_logAt (d : Dev) (f : FerrySt → FerrySt) : (setFerry d f).logAt = d.logAt := rfl
@[simp] theorem setFerry_retired1 (d : Dev) (f : FerrySt → FerrySt) : (setFerry d f).retired1 = d.retired1 := rfl
@[simp] theorem setFerry_scrub (d : Dev) (f : FerrySt → FerrySt) : (setFerry d f).scrub = d.scrub := rfl
@[simp] theorem setFerry_ferryIn (d : Dev) (f : FerrySt → FerrySt) : (setFerry d f).ferryIn = d.ferryIn := rfl
@[simp] theorem setFerry_cans (d : Dev) (f : FerrySt → FerrySt) : (setFerry d f).cans = d.cans := rfl
@[simp] theorem setFerry_lins (d : Dev) (f : FerrySt → FerrySt) : (setFerry d f).lins = d.lins := rfl
@[simp] theorem setFerry_tapQ (d : Dev) (f : FerrySt → FerrySt) : (setFerry d f).tapQ = d.tapQ := rfl
@[simp] theorem setFerry_manQ (d : Dev) (f : FerrySt → FerrySt) : (setFerry d f).manQ = d.manQ := rfl
@[simp] theorem setFerry_car (d : Dev) (f : FerrySt → FerrySt) : (setFerry d f).car = d.car := rfl
@[simp] theorem setFerry_man (d : Dev) (f : FerrySt → FerrySt) : (setFerry d f).man = d.man := rfl
@[simp] theorem setFerry_diagPrev (d : Dev) (f : FerrySt → FerrySt) : (setFerry d f).diagPrev = d.diagPrev := rfl
@[simp] theorem setFerry_commitBy (d : Dev) (f : FerrySt → FerrySt) : (setFerry d f).commitBy = d.commitBy := rfl
@[simp] theorem setFerry_host (d : Dev) (f : FerrySt → FerrySt) : (setFerry d f).host = d.host := rfl
@[simp] theorem setFerry_xwe (d : Dev) (f : FerrySt → FerrySt) : (setFerry d f).xwe = d.xwe := rfl
@[simp] theorem setFerry_pair (d : Dev) (f : FerrySt → FerrySt) : (setFerry d f).pair = d.pair := rfl
@[simp] theorem setFerry_buoy (d : Dev) (f : FerrySt → FerrySt) : (setFerry d f).buoy = d.buoy := rfl
@[simp] theorem setFerry_pwr (d : Dev) (f : FerrySt → FerrySt) : (setFerry d f).pwr = d.pwr := rfl
@[simp] theorem setFerry_scarab (d : Dev) (f : FerrySt → FerrySt) : (setFerry d f).scarab = d.scarab := rfl
@[simp] theorem setFerry_dbg (d : Dev) (f : FerrySt → FerrySt) : (setFerry d f).dbg = d.dbg := rfl
@[simp] theorem setFerry_boot (d : Dev) (f : FerrySt → FerrySt) : (setFerry d f).boot = d.boot := rfl

/-! ### `setXwe` -/

@[simp] theorem setXwe_now (d : Dev) (x : XweSt) : (setXwe d x).now = d.now := rfl
@[simp] theorem setXwe_regs (d : Dev) (x : XweSt) : (setXwe d x).regs = d.regs := rfl
@[simp] theorem setXwe_act (d : Dev) (x : XweSt) : (setXwe d x).act = d.act := rfl
@[simp] theorem setXwe_frz (d : Dev) (x : XweSt) : (setXwe d x).frz = d.frz := rfl
@[simp] theorem setXwe_frzSel (d : Dev) (x : XweSt) : (setXwe d x).frzSel = d.frzSel := rfl
@[simp] theorem setXwe_tbl (d : Dev) (x : XweSt) : (setXwe d x).tbl = d.tbl := rfl
@[simp] theorem setXwe_epoch (d : Dev) (x : XweSt) : (setXwe d x).epoch = d.epoch := rfl
@[simp] theorem setXwe_retired (d : Dev) (x : XweSt) : (setXwe d x).retired = d.retired := rfl
@[simp] theorem setXwe_srst (d : Dev) (x : XweSt) : (setXwe d x).srst = d.srst := rfl
@[simp] theorem setXwe_commitAt (d : Dev) (x : XweSt) : (setXwe d x).commitAt = d.commitAt := rfl
@[simp] theorem setXwe_refillAt (d : Dev) (x : XweSt) : (setXwe d x).refillAt = d.refillAt := rfl
@[simp] theorem setXwe_tideRef (d : Dev) (x : XweSt) : (setXwe d x).tideRef = d.tideRef := rfl
@[simp] theorem setXwe_sigFrom (d : Dev) (x : XweSt) : (setXwe d x).sigFrom = d.sigFrom := rfl
@[simp] theorem setXwe_frees (d : Dev) (x : XweSt) : (setXwe d x).frees = d.frees := rfl
@[simp] theorem setXwe_evq (d : Dev) (x : XweSt) : (setXwe d x).evq = d.evq := rfl
@[simp] theorem setXwe_out (d : Dev) (x : XweSt) : (setXwe d x).out = d.out := rfl
@[simp] theorem setXwe_memOut (d : Dev) (x : XweSt) : (setXwe d x).memOut = d.memOut := rfl
@[simp] theorem setXwe_fcn (d : Dev) (x : XweSt) : (setXwe d x).fcn = d.fcn := rfl
@[simp] theorem setXwe_time (d : Dev) (x : XweSt) : (setXwe d x).time = d.time := rfl
@[simp] theorem setXwe_quays (d : Dev) (x : XweSt) : (setXwe d x).quays = d.quays := rfl
@[simp] theorem setXwe_ports (d : Dev) (x : XweSt) : (setXwe d x).ports = d.ports := rfl
@[simp] theorem setXwe_tx (d : Dev) (x : XweSt) : (setXwe d x).tx = d.tx := rfl
@[simp] theorem setXwe_susp (d : Dev) (x : XweSt) : (setXwe d x).susp = d.susp := rfl
@[simp] theorem setXwe_gates (d : Dev) (x : XweSt) : (setXwe d x).gates = d.gates := rfl
@[simp] theorem setXwe_credits (d : Dev) (x : XweSt) : (setXwe d x).credits = d.credits := rfl
@[simp] theorem setXwe_filters (d : Dev) (x : XweSt) : (setXwe d x).filters = d.filters := rfl
@[simp] theorem setXwe_meters (d : Dev) (x : XweSt) : (setXwe d x).meters = d.meters := rfl
@[simp] theorem setXwe_pend (d : Dev) (x : XweSt) : (setXwe d x).pend = d.pend := rfl
@[simp] theorem setXwe_agedAt (d : Dev) (x : XweSt) : (setXwe d x).agedAt = d.agedAt := rfl
@[simp] theorem setXwe_nextFid (d : Dev) (x : XweSt) : (setXwe d x).nextFid = d.nextFid := rfl
@[simp] theorem setXwe_frerQ (d : Dev) (x : XweSt) : (setXwe d x).frerQ = d.frerQ := rfl
@[simp] theorem setXwe_flush (d : Dev) (x : XweSt) : (setXwe d x).flush = d.flush := rfl
@[simp] theorem setXwe_diagSer (d : Dev) (x : XweSt) : (setXwe d x).diagSer = d.diagSer := rfl
@[simp] theorem setXwe_evidAt (d : Dev) (x : XweSt) : (setXwe d x).evidAt = d.evidAt := rfl
@[simp] theorem setXwe_rateRem (d : Dev) (x : XweSt) : (setXwe d x).rateRem = d.rateRem := rfl
@[simp] theorem setXwe_logAt (d : Dev) (x : XweSt) : (setXwe d x).logAt = d.logAt := rfl
@[simp] theorem setXwe_retired1 (d : Dev) (x : XweSt) : (setXwe d x).retired1 = d.retired1 := rfl
@[simp] theorem setXwe_scrub (d : Dev) (x : XweSt) : (setXwe d x).scrub = d.scrub := rfl
@[simp] theorem setXwe_ferryIn (d : Dev) (x : XweSt) : (setXwe d x).ferryIn = d.ferryIn := rfl
@[simp] theorem setXwe_ferry (d : Dev) (x : XweSt) : (setXwe d x).ferry = d.ferry := rfl
@[simp] theorem setXwe_cans (d : Dev) (x : XweSt) : (setXwe d x).cans = d.cans := rfl
@[simp] theorem setXwe_lins (d : Dev) (x : XweSt) : (setXwe d x).lins = d.lins := rfl
@[simp] theorem setXwe_tapQ (d : Dev) (x : XweSt) : (setXwe d x).tapQ = d.tapQ := rfl
@[simp] theorem setXwe_manQ (d : Dev) (x : XweSt) : (setXwe d x).manQ = d.manQ := rfl
@[simp] theorem setXwe_car (d : Dev) (x : XweSt) : (setXwe d x).car = d.car := rfl
@[simp] theorem setXwe_man (d : Dev) (x : XweSt) : (setXwe d x).man = d.man := rfl
@[simp] theorem setXwe_diagPrev (d : Dev) (x : XweSt) : (setXwe d x).diagPrev = d.diagPrev := rfl
@[simp] theorem setXwe_commitBy (d : Dev) (x : XweSt) : (setXwe d x).commitBy = d.commitBy := rfl
@[simp] theorem setXwe_host (d : Dev) (x : XweSt) : (setXwe d x).host = d.host := rfl
@[simp] theorem setXwe_pair (d : Dev) (x : XweSt) : (setXwe d x).pair = d.pair := rfl
@[simp] theorem setXwe_buoy (d : Dev) (x : XweSt) : (setXwe d x).buoy = d.buoy := rfl
@[simp] theorem setXwe_pwr (d : Dev) (x : XweSt) : (setXwe d x).pwr = d.pwr := rfl
@[simp] theorem setXwe_scarab (d : Dev) (x : XweSt) : (setXwe d x).scarab = d.scarab := rfl
@[simp] theorem setXwe_dbg (d : Dev) (x : XweSt) : (setXwe d x).dbg = d.dbg := rfl
@[simp] theorem setXwe_boot (d : Dev) (x : XweSt) : (setXwe d x).boot = d.boot := rfl

/-! ### `setMan` -/

@[simp] theorem setMan_now (d : Dev) (f : Manifest → Manifest) : (setMan d f).now = d.now := rfl
@[simp] theorem setMan_regs (d : Dev) (f : Manifest → Manifest) : (setMan d f).regs = d.regs := rfl
@[simp] theorem setMan_act (d : Dev) (f : Manifest → Manifest) : (setMan d f).act = d.act := rfl
@[simp] theorem setMan_frz (d : Dev) (f : Manifest → Manifest) : (setMan d f).frz = d.frz := rfl
@[simp] theorem setMan_frzSel (d : Dev) (f : Manifest → Manifest) : (setMan d f).frzSel = d.frzSel := rfl
@[simp] theorem setMan_tbl (d : Dev) (f : Manifest → Manifest) : (setMan d f).tbl = d.tbl := rfl
@[simp] theorem setMan_epoch (d : Dev) (f : Manifest → Manifest) : (setMan d f).epoch = d.epoch := rfl
@[simp] theorem setMan_retired (d : Dev) (f : Manifest → Manifest) : (setMan d f).retired = d.retired := rfl
@[simp] theorem setMan_srst (d : Dev) (f : Manifest → Manifest) : (setMan d f).srst = d.srst := rfl
@[simp] theorem setMan_commitAt (d : Dev) (f : Manifest → Manifest) : (setMan d f).commitAt = d.commitAt := rfl
@[simp] theorem setMan_refillAt (d : Dev) (f : Manifest → Manifest) : (setMan d f).refillAt = d.refillAt := rfl
@[simp] theorem setMan_tideRef (d : Dev) (f : Manifest → Manifest) : (setMan d f).tideRef = d.tideRef := rfl
@[simp] theorem setMan_sigFrom (d : Dev) (f : Manifest → Manifest) : (setMan d f).sigFrom = d.sigFrom := rfl
@[simp] theorem setMan_frees (d : Dev) (f : Manifest → Manifest) : (setMan d f).frees = d.frees := rfl
@[simp] theorem setMan_evq (d : Dev) (f : Manifest → Manifest) : (setMan d f).evq = d.evq := rfl
@[simp] theorem setMan_out (d : Dev) (f : Manifest → Manifest) : (setMan d f).out = d.out := rfl
@[simp] theorem setMan_memOut (d : Dev) (f : Manifest → Manifest) : (setMan d f).memOut = d.memOut := rfl
@[simp] theorem setMan_fcn (d : Dev) (f : Manifest → Manifest) : (setMan d f).fcn = d.fcn := rfl
@[simp] theorem setMan_time (d : Dev) (f : Manifest → Manifest) : (setMan d f).time = d.time := rfl
@[simp] theorem setMan_quays (d : Dev) (f : Manifest → Manifest) : (setMan d f).quays = d.quays := rfl
@[simp] theorem setMan_ports (d : Dev) (f : Manifest → Manifest) : (setMan d f).ports = d.ports := rfl
@[simp] theorem setMan_tx (d : Dev) (f : Manifest → Manifest) : (setMan d f).tx = d.tx := rfl
@[simp] theorem setMan_susp (d : Dev) (f : Manifest → Manifest) : (setMan d f).susp = d.susp := rfl
@[simp] theorem setMan_gates (d : Dev) (f : Manifest → Manifest) : (setMan d f).gates = d.gates := rfl
@[simp] theorem setMan_credits (d : Dev) (f : Manifest → Manifest) : (setMan d f).credits = d.credits := rfl
@[simp] theorem setMan_filters (d : Dev) (f : Manifest → Manifest) : (setMan d f).filters = d.filters := rfl
@[simp] theorem setMan_meters (d : Dev) (f : Manifest → Manifest) : (setMan d f).meters = d.meters := rfl
@[simp] theorem setMan_pend (d : Dev) (f : Manifest → Manifest) : (setMan d f).pend = d.pend := rfl
@[simp] theorem setMan_agedAt (d : Dev) (f : Manifest → Manifest) : (setMan d f).agedAt = d.agedAt := rfl
@[simp] theorem setMan_nextFid (d : Dev) (f : Manifest → Manifest) : (setMan d f).nextFid = d.nextFid := rfl
@[simp] theorem setMan_frerQ (d : Dev) (f : Manifest → Manifest) : (setMan d f).frerQ = d.frerQ := rfl
@[simp] theorem setMan_flush (d : Dev) (f : Manifest → Manifest) : (setMan d f).flush = d.flush := rfl
@[simp] theorem setMan_diagSer (d : Dev) (f : Manifest → Manifest) : (setMan d f).diagSer = d.diagSer := rfl
@[simp] theorem setMan_evidAt (d : Dev) (f : Manifest → Manifest) : (setMan d f).evidAt = d.evidAt := rfl
@[simp] theorem setMan_rateRem (d : Dev) (f : Manifest → Manifest) : (setMan d f).rateRem = d.rateRem := rfl
@[simp] theorem setMan_logAt (d : Dev) (f : Manifest → Manifest) : (setMan d f).logAt = d.logAt := rfl
@[simp] theorem setMan_retired1 (d : Dev) (f : Manifest → Manifest) : (setMan d f).retired1 = d.retired1 := rfl
@[simp] theorem setMan_scrub (d : Dev) (f : Manifest → Manifest) : (setMan d f).scrub = d.scrub := rfl
@[simp] theorem setMan_ferryIn (d : Dev) (f : Manifest → Manifest) : (setMan d f).ferryIn = d.ferryIn := rfl
@[simp] theorem setMan_ferry (d : Dev) (f : Manifest → Manifest) : (setMan d f).ferry = d.ferry := rfl
@[simp] theorem setMan_cans (d : Dev) (f : Manifest → Manifest) : (setMan d f).cans = d.cans := rfl
@[simp] theorem setMan_lins (d : Dev) (f : Manifest → Manifest) : (setMan d f).lins = d.lins := rfl
@[simp] theorem setMan_tapQ (d : Dev) (f : Manifest → Manifest) : (setMan d f).tapQ = d.tapQ := rfl
@[simp] theorem setMan_manQ (d : Dev) (f : Manifest → Manifest) : (setMan d f).manQ = d.manQ := rfl
@[simp] theorem setMan_car (d : Dev) (f : Manifest → Manifest) : (setMan d f).car = d.car := rfl
@[simp] theorem setMan_diagPrev (d : Dev) (f : Manifest → Manifest) : (setMan d f).diagPrev = d.diagPrev := rfl
@[simp] theorem setMan_commitBy (d : Dev) (f : Manifest → Manifest) : (setMan d f).commitBy = d.commitBy := rfl
@[simp] theorem setMan_host (d : Dev) (f : Manifest → Manifest) : (setMan d f).host = d.host := rfl
@[simp] theorem setMan_xwe (d : Dev) (f : Manifest → Manifest) : (setMan d f).xwe = d.xwe := rfl
@[simp] theorem setMan_pair (d : Dev) (f : Manifest → Manifest) : (setMan d f).pair = d.pair := rfl
@[simp] theorem setMan_buoy (d : Dev) (f : Manifest → Manifest) : (setMan d f).buoy = d.buoy := rfl
@[simp] theorem setMan_pwr (d : Dev) (f : Manifest → Manifest) : (setMan d f).pwr = d.pwr := rfl
@[simp] theorem setMan_scarab (d : Dev) (f : Manifest → Manifest) : (setMan d f).scarab = d.scarab := rfl
@[simp] theorem setMan_dbg (d : Dev) (f : Manifest → Manifest) : (setMan d f).dbg = d.dbg := rfl
@[simp] theorem setMan_boot (d : Dev) (f : Manifest → Manifest) : (setMan d f).boot = d.boot := rfl

/-! ### `setFcn` -/

@[simp] theorem setFcn_now (d : Dev) (f : Fcn → Fcn) : (setFcn d f).now = d.now := rfl
@[simp] theorem setFcn_regs (d : Dev) (f : Fcn → Fcn) : (setFcn d f).regs = d.regs := rfl
@[simp] theorem setFcn_act (d : Dev) (f : Fcn → Fcn) : (setFcn d f).act = d.act := rfl
@[simp] theorem setFcn_frz (d : Dev) (f : Fcn → Fcn) : (setFcn d f).frz = d.frz := rfl
@[simp] theorem setFcn_frzSel (d : Dev) (f : Fcn → Fcn) : (setFcn d f).frzSel = d.frzSel := rfl
@[simp] theorem setFcn_tbl (d : Dev) (f : Fcn → Fcn) : (setFcn d f).tbl = d.tbl := rfl
@[simp] theorem setFcn_epoch (d : Dev) (f : Fcn → Fcn) : (setFcn d f).epoch = d.epoch := rfl
@[simp] theorem setFcn_retired (d : Dev) (f : Fcn → Fcn) : (setFcn d f).retired = d.retired := rfl
@[simp] theorem setFcn_srst (d : Dev) (f : Fcn → Fcn) : (setFcn d f).srst = d.srst := rfl
@[simp] theorem setFcn_commitAt (d : Dev) (f : Fcn → Fcn) : (setFcn d f).commitAt = d.commitAt := rfl
@[simp] theorem setFcn_refillAt (d : Dev) (f : Fcn → Fcn) : (setFcn d f).refillAt = d.refillAt := rfl
@[simp] theorem setFcn_tideRef (d : Dev) (f : Fcn → Fcn) : (setFcn d f).tideRef = d.tideRef := rfl
@[simp] theorem setFcn_sigFrom (d : Dev) (f : Fcn → Fcn) : (setFcn d f).sigFrom = d.sigFrom := rfl
@[simp] theorem setFcn_frees (d : Dev) (f : Fcn → Fcn) : (setFcn d f).frees = d.frees := rfl
@[simp] theorem setFcn_evq (d : Dev) (f : Fcn → Fcn) : (setFcn d f).evq = d.evq := rfl
@[simp] theorem setFcn_out (d : Dev) (f : Fcn → Fcn) : (setFcn d f).out = d.out := rfl
@[simp] theorem setFcn_memOut (d : Dev) (f : Fcn → Fcn) : (setFcn d f).memOut = d.memOut := rfl
@[simp] theorem setFcn_time (d : Dev) (f : Fcn → Fcn) : (setFcn d f).time = d.time := rfl
@[simp] theorem setFcn_quays (d : Dev) (f : Fcn → Fcn) : (setFcn d f).quays = d.quays := rfl
@[simp] theorem setFcn_ports (d : Dev) (f : Fcn → Fcn) : (setFcn d f).ports = d.ports := rfl
@[simp] theorem setFcn_tx (d : Dev) (f : Fcn → Fcn) : (setFcn d f).tx = d.tx := rfl
@[simp] theorem setFcn_susp (d : Dev) (f : Fcn → Fcn) : (setFcn d f).susp = d.susp := rfl
@[simp] theorem setFcn_gates (d : Dev) (f : Fcn → Fcn) : (setFcn d f).gates = d.gates := rfl
@[simp] theorem setFcn_credits (d : Dev) (f : Fcn → Fcn) : (setFcn d f).credits = d.credits := rfl
@[simp] theorem setFcn_filters (d : Dev) (f : Fcn → Fcn) : (setFcn d f).filters = d.filters := rfl
@[simp] theorem setFcn_meters (d : Dev) (f : Fcn → Fcn) : (setFcn d f).meters = d.meters := rfl
@[simp] theorem setFcn_pend (d : Dev) (f : Fcn → Fcn) : (setFcn d f).pend = d.pend := rfl
@[simp] theorem setFcn_agedAt (d : Dev) (f : Fcn → Fcn) : (setFcn d f).agedAt = d.agedAt := rfl
@[simp] theorem setFcn_nextFid (d : Dev) (f : Fcn → Fcn) : (setFcn d f).nextFid = d.nextFid := rfl
@[simp] theorem setFcn_frerQ (d : Dev) (f : Fcn → Fcn) : (setFcn d f).frerQ = d.frerQ := rfl
@[simp] theorem setFcn_flush (d : Dev) (f : Fcn → Fcn) : (setFcn d f).flush = d.flush := rfl
@[simp] theorem setFcn_diagSer (d : Dev) (f : Fcn → Fcn) : (setFcn d f).diagSer = d.diagSer := rfl
@[simp] theorem setFcn_evidAt (d : Dev) (f : Fcn → Fcn) : (setFcn d f).evidAt = d.evidAt := rfl
@[simp] theorem setFcn_rateRem (d : Dev) (f : Fcn → Fcn) : (setFcn d f).rateRem = d.rateRem := rfl
@[simp] theorem setFcn_logAt (d : Dev) (f : Fcn → Fcn) : (setFcn d f).logAt = d.logAt := rfl
@[simp] theorem setFcn_retired1 (d : Dev) (f : Fcn → Fcn) : (setFcn d f).retired1 = d.retired1 := rfl
@[simp] theorem setFcn_scrub (d : Dev) (f : Fcn → Fcn) : (setFcn d f).scrub = d.scrub := rfl
@[simp] theorem setFcn_ferryIn (d : Dev) (f : Fcn → Fcn) : (setFcn d f).ferryIn = d.ferryIn := rfl
@[simp] theorem setFcn_ferry (d : Dev) (f : Fcn → Fcn) : (setFcn d f).ferry = d.ferry := rfl
@[simp] theorem setFcn_cans (d : Dev) (f : Fcn → Fcn) : (setFcn d f).cans = d.cans := rfl
@[simp] theorem setFcn_lins (d : Dev) (f : Fcn → Fcn) : (setFcn d f).lins = d.lins := rfl
@[simp] theorem setFcn_tapQ (d : Dev) (f : Fcn → Fcn) : (setFcn d f).tapQ = d.tapQ := rfl
@[simp] theorem setFcn_manQ (d : Dev) (f : Fcn → Fcn) : (setFcn d f).manQ = d.manQ := rfl
@[simp] theorem setFcn_car (d : Dev) (f : Fcn → Fcn) : (setFcn d f).car = d.car := rfl
@[simp] theorem setFcn_man (d : Dev) (f : Fcn → Fcn) : (setFcn d f).man = d.man := rfl
@[simp] theorem setFcn_diagPrev (d : Dev) (f : Fcn → Fcn) : (setFcn d f).diagPrev = d.diagPrev := rfl
@[simp] theorem setFcn_commitBy (d : Dev) (f : Fcn → Fcn) : (setFcn d f).commitBy = d.commitBy := rfl
@[simp] theorem setFcn_host (d : Dev) (f : Fcn → Fcn) : (setFcn d f).host = d.host := rfl
@[simp] theorem setFcn_xwe (d : Dev) (f : Fcn → Fcn) : (setFcn d f).xwe = d.xwe := rfl
@[simp] theorem setFcn_pair (d : Dev) (f : Fcn → Fcn) : (setFcn d f).pair = d.pair := rfl
@[simp] theorem setFcn_buoy (d : Dev) (f : Fcn → Fcn) : (setFcn d f).buoy = d.buoy := rfl
@[simp] theorem setFcn_pwr (d : Dev) (f : Fcn → Fcn) : (setFcn d f).pwr = d.pwr := rfl
@[simp] theorem setFcn_scarab (d : Dev) (f : Fcn → Fcn) : (setFcn d f).scarab = d.scarab := rfl
@[simp] theorem setFcn_dbg (d : Dev) (f : Fcn → Fcn) : (setFcn d f).dbg = d.dbg := rfl
@[simp] theorem setFcn_boot (d : Dev) (f : Fcn → Fcn) : (setFcn d f).boot = d.boot := rfl

/-! ### `setPair` -/

@[simp] theorem setPair_now (d : Dev) (f : PairSt → PairSt) : (setPair d f).now = d.now := rfl
@[simp] theorem setPair_regs (d : Dev) (f : PairSt → PairSt) : (setPair d f).regs = d.regs := rfl
@[simp] theorem setPair_act (d : Dev) (f : PairSt → PairSt) : (setPair d f).act = d.act := rfl
@[simp] theorem setPair_frz (d : Dev) (f : PairSt → PairSt) : (setPair d f).frz = d.frz := rfl
@[simp] theorem setPair_frzSel (d : Dev) (f : PairSt → PairSt) : (setPair d f).frzSel = d.frzSel := rfl
@[simp] theorem setPair_tbl (d : Dev) (f : PairSt → PairSt) : (setPair d f).tbl = d.tbl := rfl
@[simp] theorem setPair_epoch (d : Dev) (f : PairSt → PairSt) : (setPair d f).epoch = d.epoch := rfl
@[simp] theorem setPair_retired (d : Dev) (f : PairSt → PairSt) : (setPair d f).retired = d.retired := rfl
@[simp] theorem setPair_srst (d : Dev) (f : PairSt → PairSt) : (setPair d f).srst = d.srst := rfl
@[simp] theorem setPair_commitAt (d : Dev) (f : PairSt → PairSt) : (setPair d f).commitAt = d.commitAt := rfl
@[simp] theorem setPair_refillAt (d : Dev) (f : PairSt → PairSt) : (setPair d f).refillAt = d.refillAt := rfl
@[simp] theorem setPair_tideRef (d : Dev) (f : PairSt → PairSt) : (setPair d f).tideRef = d.tideRef := rfl
@[simp] theorem setPair_sigFrom (d : Dev) (f : PairSt → PairSt) : (setPair d f).sigFrom = d.sigFrom := rfl
@[simp] theorem setPair_frees (d : Dev) (f : PairSt → PairSt) : (setPair d f).frees = d.frees := rfl
@[simp] theorem setPair_evq (d : Dev) (f : PairSt → PairSt) : (setPair d f).evq = d.evq := rfl
@[simp] theorem setPair_out (d : Dev) (f : PairSt → PairSt) : (setPair d f).out = d.out := rfl
@[simp] theorem setPair_memOut (d : Dev) (f : PairSt → PairSt) : (setPair d f).memOut = d.memOut := rfl
@[simp] theorem setPair_fcn (d : Dev) (f : PairSt → PairSt) : (setPair d f).fcn = d.fcn := rfl
@[simp] theorem setPair_time (d : Dev) (f : PairSt → PairSt) : (setPair d f).time = d.time := rfl
@[simp] theorem setPair_quays (d : Dev) (f : PairSt → PairSt) : (setPair d f).quays = d.quays := rfl
@[simp] theorem setPair_ports (d : Dev) (f : PairSt → PairSt) : (setPair d f).ports = d.ports := rfl
@[simp] theorem setPair_tx (d : Dev) (f : PairSt → PairSt) : (setPair d f).tx = d.tx := rfl
@[simp] theorem setPair_susp (d : Dev) (f : PairSt → PairSt) : (setPair d f).susp = d.susp := rfl
@[simp] theorem setPair_gates (d : Dev) (f : PairSt → PairSt) : (setPair d f).gates = d.gates := rfl
@[simp] theorem setPair_credits (d : Dev) (f : PairSt → PairSt) : (setPair d f).credits = d.credits := rfl
@[simp] theorem setPair_filters (d : Dev) (f : PairSt → PairSt) : (setPair d f).filters = d.filters := rfl
@[simp] theorem setPair_meters (d : Dev) (f : PairSt → PairSt) : (setPair d f).meters = d.meters := rfl
@[simp] theorem setPair_pend (d : Dev) (f : PairSt → PairSt) : (setPair d f).pend = d.pend := rfl
@[simp] theorem setPair_agedAt (d : Dev) (f : PairSt → PairSt) : (setPair d f).agedAt = d.agedAt := rfl
@[simp] theorem setPair_nextFid (d : Dev) (f : PairSt → PairSt) : (setPair d f).nextFid = d.nextFid := rfl
@[simp] theorem setPair_frerQ (d : Dev) (f : PairSt → PairSt) : (setPair d f).frerQ = d.frerQ := rfl
@[simp] theorem setPair_flush (d : Dev) (f : PairSt → PairSt) : (setPair d f).flush = d.flush := rfl
@[simp] theorem setPair_diagSer (d : Dev) (f : PairSt → PairSt) : (setPair d f).diagSer = d.diagSer := rfl
@[simp] theorem setPair_evidAt (d : Dev) (f : PairSt → PairSt) : (setPair d f).evidAt = d.evidAt := rfl
@[simp] theorem setPair_rateRem (d : Dev) (f : PairSt → PairSt) : (setPair d f).rateRem = d.rateRem := rfl
@[simp] theorem setPair_logAt (d : Dev) (f : PairSt → PairSt) : (setPair d f).logAt = d.logAt := rfl
@[simp] theorem setPair_retired1 (d : Dev) (f : PairSt → PairSt) : (setPair d f).retired1 = d.retired1 := rfl
@[simp] theorem setPair_scrub (d : Dev) (f : PairSt → PairSt) : (setPair d f).scrub = d.scrub := rfl
@[simp] theorem setPair_ferryIn (d : Dev) (f : PairSt → PairSt) : (setPair d f).ferryIn = d.ferryIn := rfl
@[simp] theorem setPair_ferry (d : Dev) (f : PairSt → PairSt) : (setPair d f).ferry = d.ferry := rfl
@[simp] theorem setPair_cans (d : Dev) (f : PairSt → PairSt) : (setPair d f).cans = d.cans := rfl
@[simp] theorem setPair_lins (d : Dev) (f : PairSt → PairSt) : (setPair d f).lins = d.lins := rfl
@[simp] theorem setPair_tapQ (d : Dev) (f : PairSt → PairSt) : (setPair d f).tapQ = d.tapQ := rfl
@[simp] theorem setPair_manQ (d : Dev) (f : PairSt → PairSt) : (setPair d f).manQ = d.manQ := rfl
@[simp] theorem setPair_car (d : Dev) (f : PairSt → PairSt) : (setPair d f).car = d.car := rfl
@[simp] theorem setPair_man (d : Dev) (f : PairSt → PairSt) : (setPair d f).man = d.man := rfl
@[simp] theorem setPair_diagPrev (d : Dev) (f : PairSt → PairSt) : (setPair d f).diagPrev = d.diagPrev := rfl
@[simp] theorem setPair_commitBy (d : Dev) (f : PairSt → PairSt) : (setPair d f).commitBy = d.commitBy := rfl
@[simp] theorem setPair_host (d : Dev) (f : PairSt → PairSt) : (setPair d f).host = d.host := rfl
@[simp] theorem setPair_xwe (d : Dev) (f : PairSt → PairSt) : (setPair d f).xwe = d.xwe := rfl
@[simp] theorem setPair_buoy (d : Dev) (f : PairSt → PairSt) : (setPair d f).buoy = d.buoy := rfl
@[simp] theorem setPair_pwr (d : Dev) (f : PairSt → PairSt) : (setPair d f).pwr = d.pwr := rfl
@[simp] theorem setPair_scarab (d : Dev) (f : PairSt → PairSt) : (setPair d f).scarab = d.scarab := rfl
@[simp] theorem setPair_dbg (d : Dev) (f : PairSt → PairSt) : (setPair d f).dbg = d.dbg := rfl
@[simp] theorem setPair_boot (d : Dev) (f : PairSt → PairSt) : (setPair d f).boot = d.boot := rfl

/-! ### `setPwr` -/

@[simp] theorem setPwr_now (d : Dev) (f : PwrSt → PwrSt) : (setPwr d f).now = d.now := rfl
@[simp] theorem setPwr_regs (d : Dev) (f : PwrSt → PwrSt) : (setPwr d f).regs = d.regs := rfl
@[simp] theorem setPwr_act (d : Dev) (f : PwrSt → PwrSt) : (setPwr d f).act = d.act := rfl
@[simp] theorem setPwr_frz (d : Dev) (f : PwrSt → PwrSt) : (setPwr d f).frz = d.frz := rfl
@[simp] theorem setPwr_frzSel (d : Dev) (f : PwrSt → PwrSt) : (setPwr d f).frzSel = d.frzSel := rfl
@[simp] theorem setPwr_tbl (d : Dev) (f : PwrSt → PwrSt) : (setPwr d f).tbl = d.tbl := rfl
@[simp] theorem setPwr_epoch (d : Dev) (f : PwrSt → PwrSt) : (setPwr d f).epoch = d.epoch := rfl
@[simp] theorem setPwr_retired (d : Dev) (f : PwrSt → PwrSt) : (setPwr d f).retired = d.retired := rfl
@[simp] theorem setPwr_srst (d : Dev) (f : PwrSt → PwrSt) : (setPwr d f).srst = d.srst := rfl
@[simp] theorem setPwr_commitAt (d : Dev) (f : PwrSt → PwrSt) : (setPwr d f).commitAt = d.commitAt := rfl
@[simp] theorem setPwr_refillAt (d : Dev) (f : PwrSt → PwrSt) : (setPwr d f).refillAt = d.refillAt := rfl
@[simp] theorem setPwr_tideRef (d : Dev) (f : PwrSt → PwrSt) : (setPwr d f).tideRef = d.tideRef := rfl
@[simp] theorem setPwr_sigFrom (d : Dev) (f : PwrSt → PwrSt) : (setPwr d f).sigFrom = d.sigFrom := rfl
@[simp] theorem setPwr_frees (d : Dev) (f : PwrSt → PwrSt) : (setPwr d f).frees = d.frees := rfl
@[simp] theorem setPwr_evq (d : Dev) (f : PwrSt → PwrSt) : (setPwr d f).evq = d.evq := rfl
@[simp] theorem setPwr_out (d : Dev) (f : PwrSt → PwrSt) : (setPwr d f).out = d.out := rfl
@[simp] theorem setPwr_memOut (d : Dev) (f : PwrSt → PwrSt) : (setPwr d f).memOut = d.memOut := rfl
@[simp] theorem setPwr_fcn (d : Dev) (f : PwrSt → PwrSt) : (setPwr d f).fcn = d.fcn := rfl
@[simp] theorem setPwr_time (d : Dev) (f : PwrSt → PwrSt) : (setPwr d f).time = d.time := rfl
@[simp] theorem setPwr_quays (d : Dev) (f : PwrSt → PwrSt) : (setPwr d f).quays = d.quays := rfl
@[simp] theorem setPwr_ports (d : Dev) (f : PwrSt → PwrSt) : (setPwr d f).ports = d.ports := rfl
@[simp] theorem setPwr_tx (d : Dev) (f : PwrSt → PwrSt) : (setPwr d f).tx = d.tx := rfl
@[simp] theorem setPwr_susp (d : Dev) (f : PwrSt → PwrSt) : (setPwr d f).susp = d.susp := rfl
@[simp] theorem setPwr_gates (d : Dev) (f : PwrSt → PwrSt) : (setPwr d f).gates = d.gates := rfl
@[simp] theorem setPwr_credits (d : Dev) (f : PwrSt → PwrSt) : (setPwr d f).credits = d.credits := rfl
@[simp] theorem setPwr_filters (d : Dev) (f : PwrSt → PwrSt) : (setPwr d f).filters = d.filters := rfl
@[simp] theorem setPwr_meters (d : Dev) (f : PwrSt → PwrSt) : (setPwr d f).meters = d.meters := rfl
@[simp] theorem setPwr_pend (d : Dev) (f : PwrSt → PwrSt) : (setPwr d f).pend = d.pend := rfl
@[simp] theorem setPwr_agedAt (d : Dev) (f : PwrSt → PwrSt) : (setPwr d f).agedAt = d.agedAt := rfl
@[simp] theorem setPwr_nextFid (d : Dev) (f : PwrSt → PwrSt) : (setPwr d f).nextFid = d.nextFid := rfl
@[simp] theorem setPwr_frerQ (d : Dev) (f : PwrSt → PwrSt) : (setPwr d f).frerQ = d.frerQ := rfl
@[simp] theorem setPwr_flush (d : Dev) (f : PwrSt → PwrSt) : (setPwr d f).flush = d.flush := rfl
@[simp] theorem setPwr_diagSer (d : Dev) (f : PwrSt → PwrSt) : (setPwr d f).diagSer = d.diagSer := rfl
@[simp] theorem setPwr_evidAt (d : Dev) (f : PwrSt → PwrSt) : (setPwr d f).evidAt = d.evidAt := rfl
@[simp] theorem setPwr_rateRem (d : Dev) (f : PwrSt → PwrSt) : (setPwr d f).rateRem = d.rateRem := rfl
@[simp] theorem setPwr_logAt (d : Dev) (f : PwrSt → PwrSt) : (setPwr d f).logAt = d.logAt := rfl
@[simp] theorem setPwr_retired1 (d : Dev) (f : PwrSt → PwrSt) : (setPwr d f).retired1 = d.retired1 := rfl
@[simp] theorem setPwr_scrub (d : Dev) (f : PwrSt → PwrSt) : (setPwr d f).scrub = d.scrub := rfl
@[simp] theorem setPwr_ferryIn (d : Dev) (f : PwrSt → PwrSt) : (setPwr d f).ferryIn = d.ferryIn := rfl
@[simp] theorem setPwr_ferry (d : Dev) (f : PwrSt → PwrSt) : (setPwr d f).ferry = d.ferry := rfl
@[simp] theorem setPwr_cans (d : Dev) (f : PwrSt → PwrSt) : (setPwr d f).cans = d.cans := rfl
@[simp] theorem setPwr_lins (d : Dev) (f : PwrSt → PwrSt) : (setPwr d f).lins = d.lins := rfl
@[simp] theorem setPwr_tapQ (d : Dev) (f : PwrSt → PwrSt) : (setPwr d f).tapQ = d.tapQ := rfl
@[simp] theorem setPwr_manQ (d : Dev) (f : PwrSt → PwrSt) : (setPwr d f).manQ = d.manQ := rfl
@[simp] theorem setPwr_car (d : Dev) (f : PwrSt → PwrSt) : (setPwr d f).car = d.car := rfl
@[simp] theorem setPwr_man (d : Dev) (f : PwrSt → PwrSt) : (setPwr d f).man = d.man := rfl
@[simp] theorem setPwr_diagPrev (d : Dev) (f : PwrSt → PwrSt) : (setPwr d f).diagPrev = d.diagPrev := rfl
@[simp] theorem setPwr_commitBy (d : Dev) (f : PwrSt → PwrSt) : (setPwr d f).commitBy = d.commitBy := rfl
@[simp] theorem setPwr_host (d : Dev) (f : PwrSt → PwrSt) : (setPwr d f).host = d.host := rfl
@[simp] theorem setPwr_xwe (d : Dev) (f : PwrSt → PwrSt) : (setPwr d f).xwe = d.xwe := rfl
@[simp] theorem setPwr_pair (d : Dev) (f : PwrSt → PwrSt) : (setPwr d f).pair = d.pair := rfl
@[simp] theorem setPwr_buoy (d : Dev) (f : PwrSt → PwrSt) : (setPwr d f).buoy = d.buoy := rfl
@[simp] theorem setPwr_scarab (d : Dev) (f : PwrSt → PwrSt) : (setPwr d f).scarab = d.scarab := rfl
@[simp] theorem setPwr_dbg (d : Dev) (f : PwrSt → PwrSt) : (setPwr d f).dbg = d.dbg := rfl
@[simp] theorem setPwr_boot (d : Dev) (f : PwrSt → PwrSt) : (setPwr d f).boot = d.boot := rfl

/-! ### `setBuoy` -/

@[simp] theorem setBuoy_now (d : Dev) (f : BuoySt → BuoySt) : (setBuoy d f).now = d.now := rfl
@[simp] theorem setBuoy_regs (d : Dev) (f : BuoySt → BuoySt) : (setBuoy d f).regs = d.regs := rfl
@[simp] theorem setBuoy_act (d : Dev) (f : BuoySt → BuoySt) : (setBuoy d f).act = d.act := rfl
@[simp] theorem setBuoy_frz (d : Dev) (f : BuoySt → BuoySt) : (setBuoy d f).frz = d.frz := rfl
@[simp] theorem setBuoy_frzSel (d : Dev) (f : BuoySt → BuoySt) : (setBuoy d f).frzSel = d.frzSel := rfl
@[simp] theorem setBuoy_tbl (d : Dev) (f : BuoySt → BuoySt) : (setBuoy d f).tbl = d.tbl := rfl
@[simp] theorem setBuoy_epoch (d : Dev) (f : BuoySt → BuoySt) : (setBuoy d f).epoch = d.epoch := rfl
@[simp] theorem setBuoy_retired (d : Dev) (f : BuoySt → BuoySt) : (setBuoy d f).retired = d.retired := rfl
@[simp] theorem setBuoy_srst (d : Dev) (f : BuoySt → BuoySt) : (setBuoy d f).srst = d.srst := rfl
@[simp] theorem setBuoy_commitAt (d : Dev) (f : BuoySt → BuoySt) : (setBuoy d f).commitAt = d.commitAt := rfl
@[simp] theorem setBuoy_refillAt (d : Dev) (f : BuoySt → BuoySt) : (setBuoy d f).refillAt = d.refillAt := rfl
@[simp] theorem setBuoy_tideRef (d : Dev) (f : BuoySt → BuoySt) : (setBuoy d f).tideRef = d.tideRef := rfl
@[simp] theorem setBuoy_sigFrom (d : Dev) (f : BuoySt → BuoySt) : (setBuoy d f).sigFrom = d.sigFrom := rfl
@[simp] theorem setBuoy_frees (d : Dev) (f : BuoySt → BuoySt) : (setBuoy d f).frees = d.frees := rfl
@[simp] theorem setBuoy_evq (d : Dev) (f : BuoySt → BuoySt) : (setBuoy d f).evq = d.evq := rfl
@[simp] theorem setBuoy_out (d : Dev) (f : BuoySt → BuoySt) : (setBuoy d f).out = d.out := rfl
@[simp] theorem setBuoy_memOut (d : Dev) (f : BuoySt → BuoySt) : (setBuoy d f).memOut = d.memOut := rfl
@[simp] theorem setBuoy_fcn (d : Dev) (f : BuoySt → BuoySt) : (setBuoy d f).fcn = d.fcn := rfl
@[simp] theorem setBuoy_time (d : Dev) (f : BuoySt → BuoySt) : (setBuoy d f).time = d.time := rfl
@[simp] theorem setBuoy_quays (d : Dev) (f : BuoySt → BuoySt) : (setBuoy d f).quays = d.quays := rfl
@[simp] theorem setBuoy_ports (d : Dev) (f : BuoySt → BuoySt) : (setBuoy d f).ports = d.ports := rfl
@[simp] theorem setBuoy_tx (d : Dev) (f : BuoySt → BuoySt) : (setBuoy d f).tx = d.tx := rfl
@[simp] theorem setBuoy_susp (d : Dev) (f : BuoySt → BuoySt) : (setBuoy d f).susp = d.susp := rfl
@[simp] theorem setBuoy_gates (d : Dev) (f : BuoySt → BuoySt) : (setBuoy d f).gates = d.gates := rfl
@[simp] theorem setBuoy_credits (d : Dev) (f : BuoySt → BuoySt) : (setBuoy d f).credits = d.credits := rfl
@[simp] theorem setBuoy_filters (d : Dev) (f : BuoySt → BuoySt) : (setBuoy d f).filters = d.filters := rfl
@[simp] theorem setBuoy_meters (d : Dev) (f : BuoySt → BuoySt) : (setBuoy d f).meters = d.meters := rfl
@[simp] theorem setBuoy_pend (d : Dev) (f : BuoySt → BuoySt) : (setBuoy d f).pend = d.pend := rfl
@[simp] theorem setBuoy_agedAt (d : Dev) (f : BuoySt → BuoySt) : (setBuoy d f).agedAt = d.agedAt := rfl
@[simp] theorem setBuoy_nextFid (d : Dev) (f : BuoySt → BuoySt) : (setBuoy d f).nextFid = d.nextFid := rfl
@[simp] theorem setBuoy_frerQ (d : Dev) (f : BuoySt → BuoySt) : (setBuoy d f).frerQ = d.frerQ := rfl
@[simp] theorem setBuoy_flush (d : Dev) (f : BuoySt → BuoySt) : (setBuoy d f).flush = d.flush := rfl
@[simp] theorem setBuoy_diagSer (d : Dev) (f : BuoySt → BuoySt) : (setBuoy d f).diagSer = d.diagSer := rfl
@[simp] theorem setBuoy_evidAt (d : Dev) (f : BuoySt → BuoySt) : (setBuoy d f).evidAt = d.evidAt := rfl
@[simp] theorem setBuoy_rateRem (d : Dev) (f : BuoySt → BuoySt) : (setBuoy d f).rateRem = d.rateRem := rfl
@[simp] theorem setBuoy_logAt (d : Dev) (f : BuoySt → BuoySt) : (setBuoy d f).logAt = d.logAt := rfl
@[simp] theorem setBuoy_retired1 (d : Dev) (f : BuoySt → BuoySt) : (setBuoy d f).retired1 = d.retired1 := rfl
@[simp] theorem setBuoy_scrub (d : Dev) (f : BuoySt → BuoySt) : (setBuoy d f).scrub = d.scrub := rfl
@[simp] theorem setBuoy_ferryIn (d : Dev) (f : BuoySt → BuoySt) : (setBuoy d f).ferryIn = d.ferryIn := rfl
@[simp] theorem setBuoy_ferry (d : Dev) (f : BuoySt → BuoySt) : (setBuoy d f).ferry = d.ferry := rfl
@[simp] theorem setBuoy_cans (d : Dev) (f : BuoySt → BuoySt) : (setBuoy d f).cans = d.cans := rfl
@[simp] theorem setBuoy_lins (d : Dev) (f : BuoySt → BuoySt) : (setBuoy d f).lins = d.lins := rfl
@[simp] theorem setBuoy_tapQ (d : Dev) (f : BuoySt → BuoySt) : (setBuoy d f).tapQ = d.tapQ := rfl
@[simp] theorem setBuoy_manQ (d : Dev) (f : BuoySt → BuoySt) : (setBuoy d f).manQ = d.manQ := rfl
@[simp] theorem setBuoy_car (d : Dev) (f : BuoySt → BuoySt) : (setBuoy d f).car = d.car := rfl
@[simp] theorem setBuoy_man (d : Dev) (f : BuoySt → BuoySt) : (setBuoy d f).man = d.man := rfl
@[simp] theorem setBuoy_diagPrev (d : Dev) (f : BuoySt → BuoySt) : (setBuoy d f).diagPrev = d.diagPrev := rfl
@[simp] theorem setBuoy_commitBy (d : Dev) (f : BuoySt → BuoySt) : (setBuoy d f).commitBy = d.commitBy := rfl
@[simp] theorem setBuoy_host (d : Dev) (f : BuoySt → BuoySt) : (setBuoy d f).host = d.host := rfl
@[simp] theorem setBuoy_xwe (d : Dev) (f : BuoySt → BuoySt) : (setBuoy d f).xwe = d.xwe := rfl
@[simp] theorem setBuoy_pair (d : Dev) (f : BuoySt → BuoySt) : (setBuoy d f).pair = d.pair := rfl
@[simp] theorem setBuoy_pwr (d : Dev) (f : BuoySt → BuoySt) : (setBuoy d f).pwr = d.pwr := rfl
@[simp] theorem setBuoy_scarab (d : Dev) (f : BuoySt → BuoySt) : (setBuoy d f).scarab = d.scarab := rfl
@[simp] theorem setBuoy_dbg (d : Dev) (f : BuoySt → BuoySt) : (setBuoy d f).dbg = d.dbg := rfl
@[simp] theorem setBuoy_boot (d : Dev) (f : BuoySt → BuoySt) : (setBuoy d f).boot = d.boot := rfl

/-! ### `setScarab` -/

@[simp] theorem setScarab_now (d : Dev) (f : ScarabSt → ScarabSt) : (setScarab d f).now = d.now := rfl
@[simp] theorem setScarab_regs (d : Dev) (f : ScarabSt → ScarabSt) : (setScarab d f).regs = d.regs := rfl
@[simp] theorem setScarab_act (d : Dev) (f : ScarabSt → ScarabSt) : (setScarab d f).act = d.act := rfl
@[simp] theorem setScarab_frz (d : Dev) (f : ScarabSt → ScarabSt) : (setScarab d f).frz = d.frz := rfl
@[simp] theorem setScarab_frzSel (d : Dev) (f : ScarabSt → ScarabSt) : (setScarab d f).frzSel = d.frzSel := rfl
@[simp] theorem setScarab_tbl (d : Dev) (f : ScarabSt → ScarabSt) : (setScarab d f).tbl = d.tbl := rfl
@[simp] theorem setScarab_epoch (d : Dev) (f : ScarabSt → ScarabSt) : (setScarab d f).epoch = d.epoch := rfl
@[simp] theorem setScarab_retired (d : Dev) (f : ScarabSt → ScarabSt) : (setScarab d f).retired = d.retired := rfl
@[simp] theorem setScarab_srst (d : Dev) (f : ScarabSt → ScarabSt) : (setScarab d f).srst = d.srst := rfl
@[simp] theorem setScarab_commitAt (d : Dev) (f : ScarabSt → ScarabSt) : (setScarab d f).commitAt = d.commitAt := rfl
@[simp] theorem setScarab_refillAt (d : Dev) (f : ScarabSt → ScarabSt) : (setScarab d f).refillAt = d.refillAt := rfl
@[simp] theorem setScarab_tideRef (d : Dev) (f : ScarabSt → ScarabSt) : (setScarab d f).tideRef = d.tideRef := rfl
@[simp] theorem setScarab_sigFrom (d : Dev) (f : ScarabSt → ScarabSt) : (setScarab d f).sigFrom = d.sigFrom := rfl
@[simp] theorem setScarab_frees (d : Dev) (f : ScarabSt → ScarabSt) : (setScarab d f).frees = d.frees := rfl
@[simp] theorem setScarab_evq (d : Dev) (f : ScarabSt → ScarabSt) : (setScarab d f).evq = d.evq := rfl
@[simp] theorem setScarab_out (d : Dev) (f : ScarabSt → ScarabSt) : (setScarab d f).out = d.out := rfl
@[simp] theorem setScarab_memOut (d : Dev) (f : ScarabSt → ScarabSt) : (setScarab d f).memOut = d.memOut := rfl
@[simp] theorem setScarab_fcn (d : Dev) (f : ScarabSt → ScarabSt) : (setScarab d f).fcn = d.fcn := rfl
@[simp] theorem setScarab_time (d : Dev) (f : ScarabSt → ScarabSt) : (setScarab d f).time = d.time := rfl
@[simp] theorem setScarab_quays (d : Dev) (f : ScarabSt → ScarabSt) : (setScarab d f).quays = d.quays := rfl
@[simp] theorem setScarab_ports (d : Dev) (f : ScarabSt → ScarabSt) : (setScarab d f).ports = d.ports := rfl
@[simp] theorem setScarab_tx (d : Dev) (f : ScarabSt → ScarabSt) : (setScarab d f).tx = d.tx := rfl
@[simp] theorem setScarab_susp (d : Dev) (f : ScarabSt → ScarabSt) : (setScarab d f).susp = d.susp := rfl
@[simp] theorem setScarab_gates (d : Dev) (f : ScarabSt → ScarabSt) : (setScarab d f).gates = d.gates := rfl
@[simp] theorem setScarab_credits (d : Dev) (f : ScarabSt → ScarabSt) : (setScarab d f).credits = d.credits := rfl
@[simp] theorem setScarab_filters (d : Dev) (f : ScarabSt → ScarabSt) : (setScarab d f).filters = d.filters := rfl
@[simp] theorem setScarab_meters (d : Dev) (f : ScarabSt → ScarabSt) : (setScarab d f).meters = d.meters := rfl
@[simp] theorem setScarab_pend (d : Dev) (f : ScarabSt → ScarabSt) : (setScarab d f).pend = d.pend := rfl
@[simp] theorem setScarab_agedAt (d : Dev) (f : ScarabSt → ScarabSt) : (setScarab d f).agedAt = d.agedAt := rfl
@[simp] theorem setScarab_nextFid (d : Dev) (f : ScarabSt → ScarabSt) : (setScarab d f).nextFid = d.nextFid := rfl
@[simp] theorem setScarab_frerQ (d : Dev) (f : ScarabSt → ScarabSt) : (setScarab d f).frerQ = d.frerQ := rfl
@[simp] theorem setScarab_flush (d : Dev) (f : ScarabSt → ScarabSt) : (setScarab d f).flush = d.flush := rfl
@[simp] theorem setScarab_diagSer (d : Dev) (f : ScarabSt → ScarabSt) : (setScarab d f).diagSer = d.diagSer := rfl
@[simp] theorem setScarab_evidAt (d : Dev) (f : ScarabSt → ScarabSt) : (setScarab d f).evidAt = d.evidAt := rfl
@[simp] theorem setScarab_rateRem (d : Dev) (f : ScarabSt → ScarabSt) : (setScarab d f).rateRem = d.rateRem := rfl
@[simp] theorem setScarab_logAt (d : Dev) (f : ScarabSt → ScarabSt) : (setScarab d f).logAt = d.logAt := rfl
@[simp] theorem setScarab_retired1 (d : Dev) (f : ScarabSt → ScarabSt) : (setScarab d f).retired1 = d.retired1 := rfl
@[simp] theorem setScarab_scrub (d : Dev) (f : ScarabSt → ScarabSt) : (setScarab d f).scrub = d.scrub := rfl
@[simp] theorem setScarab_ferryIn (d : Dev) (f : ScarabSt → ScarabSt) : (setScarab d f).ferryIn = d.ferryIn := rfl
@[simp] theorem setScarab_ferry (d : Dev) (f : ScarabSt → ScarabSt) : (setScarab d f).ferry = d.ferry := rfl
@[simp] theorem setScarab_cans (d : Dev) (f : ScarabSt → ScarabSt) : (setScarab d f).cans = d.cans := rfl
@[simp] theorem setScarab_lins (d : Dev) (f : ScarabSt → ScarabSt) : (setScarab d f).lins = d.lins := rfl
@[simp] theorem setScarab_tapQ (d : Dev) (f : ScarabSt → ScarabSt) : (setScarab d f).tapQ = d.tapQ := rfl
@[simp] theorem setScarab_manQ (d : Dev) (f : ScarabSt → ScarabSt) : (setScarab d f).manQ = d.manQ := rfl
@[simp] theorem setScarab_car (d : Dev) (f : ScarabSt → ScarabSt) : (setScarab d f).car = d.car := rfl
@[simp] theorem setScarab_man (d : Dev) (f : ScarabSt → ScarabSt) : (setScarab d f).man = d.man := rfl
@[simp] theorem setScarab_diagPrev (d : Dev) (f : ScarabSt → ScarabSt) : (setScarab d f).diagPrev = d.diagPrev := rfl
@[simp] theorem setScarab_commitBy (d : Dev) (f : ScarabSt → ScarabSt) : (setScarab d f).commitBy = d.commitBy := rfl
@[simp] theorem setScarab_host (d : Dev) (f : ScarabSt → ScarabSt) : (setScarab d f).host = d.host := rfl
@[simp] theorem setScarab_xwe (d : Dev) (f : ScarabSt → ScarabSt) : (setScarab d f).xwe = d.xwe := rfl
@[simp] theorem setScarab_pair (d : Dev) (f : ScarabSt → ScarabSt) : (setScarab d f).pair = d.pair := rfl
@[simp] theorem setScarab_buoy (d : Dev) (f : ScarabSt → ScarabSt) : (setScarab d f).buoy = d.buoy := rfl
@[simp] theorem setScarab_pwr (d : Dev) (f : ScarabSt → ScarabSt) : (setScarab d f).pwr = d.pwr := rfl
@[simp] theorem setScarab_dbg (d : Dev) (f : ScarabSt → ScarabSt) : (setScarab d f).dbg = d.dbg := rfl
@[simp] theorem setScarab_boot (d : Dev) (f : ScarabSt → ScarabSt) : (setScarab d f).boot = d.boot := rfl

/-! ### `setDbg` -/

@[simp] theorem setDbg_now (d : Dev) (f : DbgSt → DbgSt) : (setDbg d f).now = d.now := rfl
@[simp] theorem setDbg_regs (d : Dev) (f : DbgSt → DbgSt) : (setDbg d f).regs = d.regs := rfl
@[simp] theorem setDbg_act (d : Dev) (f : DbgSt → DbgSt) : (setDbg d f).act = d.act := rfl
@[simp] theorem setDbg_frz (d : Dev) (f : DbgSt → DbgSt) : (setDbg d f).frz = d.frz := rfl
@[simp] theorem setDbg_frzSel (d : Dev) (f : DbgSt → DbgSt) : (setDbg d f).frzSel = d.frzSel := rfl
@[simp] theorem setDbg_tbl (d : Dev) (f : DbgSt → DbgSt) : (setDbg d f).tbl = d.tbl := rfl
@[simp] theorem setDbg_epoch (d : Dev) (f : DbgSt → DbgSt) : (setDbg d f).epoch = d.epoch := rfl
@[simp] theorem setDbg_retired (d : Dev) (f : DbgSt → DbgSt) : (setDbg d f).retired = d.retired := rfl
@[simp] theorem setDbg_srst (d : Dev) (f : DbgSt → DbgSt) : (setDbg d f).srst = d.srst := rfl
@[simp] theorem setDbg_commitAt (d : Dev) (f : DbgSt → DbgSt) : (setDbg d f).commitAt = d.commitAt := rfl
@[simp] theorem setDbg_refillAt (d : Dev) (f : DbgSt → DbgSt) : (setDbg d f).refillAt = d.refillAt := rfl
@[simp] theorem setDbg_tideRef (d : Dev) (f : DbgSt → DbgSt) : (setDbg d f).tideRef = d.tideRef := rfl
@[simp] theorem setDbg_sigFrom (d : Dev) (f : DbgSt → DbgSt) : (setDbg d f).sigFrom = d.sigFrom := rfl
@[simp] theorem setDbg_frees (d : Dev) (f : DbgSt → DbgSt) : (setDbg d f).frees = d.frees := rfl
@[simp] theorem setDbg_evq (d : Dev) (f : DbgSt → DbgSt) : (setDbg d f).evq = d.evq := rfl
@[simp] theorem setDbg_out (d : Dev) (f : DbgSt → DbgSt) : (setDbg d f).out = d.out := rfl
@[simp] theorem setDbg_memOut (d : Dev) (f : DbgSt → DbgSt) : (setDbg d f).memOut = d.memOut := rfl
@[simp] theorem setDbg_fcn (d : Dev) (f : DbgSt → DbgSt) : (setDbg d f).fcn = d.fcn := rfl
@[simp] theorem setDbg_time (d : Dev) (f : DbgSt → DbgSt) : (setDbg d f).time = d.time := rfl
@[simp] theorem setDbg_quays (d : Dev) (f : DbgSt → DbgSt) : (setDbg d f).quays = d.quays := rfl
@[simp] theorem setDbg_ports (d : Dev) (f : DbgSt → DbgSt) : (setDbg d f).ports = d.ports := rfl
@[simp] theorem setDbg_tx (d : Dev) (f : DbgSt → DbgSt) : (setDbg d f).tx = d.tx := rfl
@[simp] theorem setDbg_susp (d : Dev) (f : DbgSt → DbgSt) : (setDbg d f).susp = d.susp := rfl
@[simp] theorem setDbg_gates (d : Dev) (f : DbgSt → DbgSt) : (setDbg d f).gates = d.gates := rfl
@[simp] theorem setDbg_credits (d : Dev) (f : DbgSt → DbgSt) : (setDbg d f).credits = d.credits := rfl
@[simp] theorem setDbg_filters (d : Dev) (f : DbgSt → DbgSt) : (setDbg d f).filters = d.filters := rfl
@[simp] theorem setDbg_meters (d : Dev) (f : DbgSt → DbgSt) : (setDbg d f).meters = d.meters := rfl
@[simp] theorem setDbg_pend (d : Dev) (f : DbgSt → DbgSt) : (setDbg d f).pend = d.pend := rfl
@[simp] theorem setDbg_agedAt (d : Dev) (f : DbgSt → DbgSt) : (setDbg d f).agedAt = d.agedAt := rfl
@[simp] theorem setDbg_nextFid (d : Dev) (f : DbgSt → DbgSt) : (setDbg d f).nextFid = d.nextFid := rfl
@[simp] theorem setDbg_frerQ (d : Dev) (f : DbgSt → DbgSt) : (setDbg d f).frerQ = d.frerQ := rfl
@[simp] theorem setDbg_flush (d : Dev) (f : DbgSt → DbgSt) : (setDbg d f).flush = d.flush := rfl
@[simp] theorem setDbg_diagSer (d : Dev) (f : DbgSt → DbgSt) : (setDbg d f).diagSer = d.diagSer := rfl
@[simp] theorem setDbg_evidAt (d : Dev) (f : DbgSt → DbgSt) : (setDbg d f).evidAt = d.evidAt := rfl
@[simp] theorem setDbg_rateRem (d : Dev) (f : DbgSt → DbgSt) : (setDbg d f).rateRem = d.rateRem := rfl
@[simp] theorem setDbg_logAt (d : Dev) (f : DbgSt → DbgSt) : (setDbg d f).logAt = d.logAt := rfl
@[simp] theorem setDbg_retired1 (d : Dev) (f : DbgSt → DbgSt) : (setDbg d f).retired1 = d.retired1 := rfl
@[simp] theorem setDbg_scrub (d : Dev) (f : DbgSt → DbgSt) : (setDbg d f).scrub = d.scrub := rfl
@[simp] theorem setDbg_ferryIn (d : Dev) (f : DbgSt → DbgSt) : (setDbg d f).ferryIn = d.ferryIn := rfl
@[simp] theorem setDbg_ferry (d : Dev) (f : DbgSt → DbgSt) : (setDbg d f).ferry = d.ferry := rfl
@[simp] theorem setDbg_cans (d : Dev) (f : DbgSt → DbgSt) : (setDbg d f).cans = d.cans := rfl
@[simp] theorem setDbg_lins (d : Dev) (f : DbgSt → DbgSt) : (setDbg d f).lins = d.lins := rfl
@[simp] theorem setDbg_tapQ (d : Dev) (f : DbgSt → DbgSt) : (setDbg d f).tapQ = d.tapQ := rfl
@[simp] theorem setDbg_manQ (d : Dev) (f : DbgSt → DbgSt) : (setDbg d f).manQ = d.manQ := rfl
@[simp] theorem setDbg_car (d : Dev) (f : DbgSt → DbgSt) : (setDbg d f).car = d.car := rfl
@[simp] theorem setDbg_man (d : Dev) (f : DbgSt → DbgSt) : (setDbg d f).man = d.man := rfl
@[simp] theorem setDbg_diagPrev (d : Dev) (f : DbgSt → DbgSt) : (setDbg d f).diagPrev = d.diagPrev := rfl
@[simp] theorem setDbg_commitBy (d : Dev) (f : DbgSt → DbgSt) : (setDbg d f).commitBy = d.commitBy := rfl
@[simp] theorem setDbg_host (d : Dev) (f : DbgSt → DbgSt) : (setDbg d f).host = d.host := rfl
@[simp] theorem setDbg_xwe (d : Dev) (f : DbgSt → DbgSt) : (setDbg d f).xwe = d.xwe := rfl
@[simp] theorem setDbg_pair (d : Dev) (f : DbgSt → DbgSt) : (setDbg d f).pair = d.pair := rfl
@[simp] theorem setDbg_buoy (d : Dev) (f : DbgSt → DbgSt) : (setDbg d f).buoy = d.buoy := rfl
@[simp] theorem setDbg_pwr (d : Dev) (f : DbgSt → DbgSt) : (setDbg d f).pwr = d.pwr := rfl
@[simp] theorem setDbg_scarab (d : Dev) (f : DbgSt → DbgSt) : (setDbg d f).scarab = d.scarab := rfl
@[simp] theorem setDbg_boot (d : Dev) (f : DbgSt → DbgSt) : (setDbg d f).boot = d.boot := rfl

/-! ### `setBoot` -/

@[simp] theorem setBoot_now (d : Dev) (f : BootSt → BootSt) : (setBoot d f).now = d.now := rfl
@[simp] theorem setBoot_regs (d : Dev) (f : BootSt → BootSt) : (setBoot d f).regs = d.regs := rfl
@[simp] theorem setBoot_act (d : Dev) (f : BootSt → BootSt) : (setBoot d f).act = d.act := rfl
@[simp] theorem setBoot_frz (d : Dev) (f : BootSt → BootSt) : (setBoot d f).frz = d.frz := rfl
@[simp] theorem setBoot_frzSel (d : Dev) (f : BootSt → BootSt) : (setBoot d f).frzSel = d.frzSel := rfl
@[simp] theorem setBoot_tbl (d : Dev) (f : BootSt → BootSt) : (setBoot d f).tbl = d.tbl := rfl
@[simp] theorem setBoot_epoch (d : Dev) (f : BootSt → BootSt) : (setBoot d f).epoch = d.epoch := rfl
@[simp] theorem setBoot_retired (d : Dev) (f : BootSt → BootSt) : (setBoot d f).retired = d.retired := rfl
@[simp] theorem setBoot_srst (d : Dev) (f : BootSt → BootSt) : (setBoot d f).srst = d.srst := rfl
@[simp] theorem setBoot_commitAt (d : Dev) (f : BootSt → BootSt) : (setBoot d f).commitAt = d.commitAt := rfl
@[simp] theorem setBoot_refillAt (d : Dev) (f : BootSt → BootSt) : (setBoot d f).refillAt = d.refillAt := rfl
@[simp] theorem setBoot_tideRef (d : Dev) (f : BootSt → BootSt) : (setBoot d f).tideRef = d.tideRef := rfl
@[simp] theorem setBoot_sigFrom (d : Dev) (f : BootSt → BootSt) : (setBoot d f).sigFrom = d.sigFrom := rfl
@[simp] theorem setBoot_frees (d : Dev) (f : BootSt → BootSt) : (setBoot d f).frees = d.frees := rfl
@[simp] theorem setBoot_evq (d : Dev) (f : BootSt → BootSt) : (setBoot d f).evq = d.evq := rfl
@[simp] theorem setBoot_out (d : Dev) (f : BootSt → BootSt) : (setBoot d f).out = d.out := rfl
@[simp] theorem setBoot_memOut (d : Dev) (f : BootSt → BootSt) : (setBoot d f).memOut = d.memOut := rfl
@[simp] theorem setBoot_fcn (d : Dev) (f : BootSt → BootSt) : (setBoot d f).fcn = d.fcn := rfl
@[simp] theorem setBoot_time (d : Dev) (f : BootSt → BootSt) : (setBoot d f).time = d.time := rfl
@[simp] theorem setBoot_quays (d : Dev) (f : BootSt → BootSt) : (setBoot d f).quays = d.quays := rfl
@[simp] theorem setBoot_ports (d : Dev) (f : BootSt → BootSt) : (setBoot d f).ports = d.ports := rfl
@[simp] theorem setBoot_tx (d : Dev) (f : BootSt → BootSt) : (setBoot d f).tx = d.tx := rfl
@[simp] theorem setBoot_susp (d : Dev) (f : BootSt → BootSt) : (setBoot d f).susp = d.susp := rfl
@[simp] theorem setBoot_gates (d : Dev) (f : BootSt → BootSt) : (setBoot d f).gates = d.gates := rfl
@[simp] theorem setBoot_credits (d : Dev) (f : BootSt → BootSt) : (setBoot d f).credits = d.credits := rfl
@[simp] theorem setBoot_filters (d : Dev) (f : BootSt → BootSt) : (setBoot d f).filters = d.filters := rfl
@[simp] theorem setBoot_meters (d : Dev) (f : BootSt → BootSt) : (setBoot d f).meters = d.meters := rfl
@[simp] theorem setBoot_pend (d : Dev) (f : BootSt → BootSt) : (setBoot d f).pend = d.pend := rfl
@[simp] theorem setBoot_agedAt (d : Dev) (f : BootSt → BootSt) : (setBoot d f).agedAt = d.agedAt := rfl
@[simp] theorem setBoot_nextFid (d : Dev) (f : BootSt → BootSt) : (setBoot d f).nextFid = d.nextFid := rfl
@[simp] theorem setBoot_frerQ (d : Dev) (f : BootSt → BootSt) : (setBoot d f).frerQ = d.frerQ := rfl
@[simp] theorem setBoot_flush (d : Dev) (f : BootSt → BootSt) : (setBoot d f).flush = d.flush := rfl
@[simp] theorem setBoot_diagSer (d : Dev) (f : BootSt → BootSt) : (setBoot d f).diagSer = d.diagSer := rfl
@[simp] theorem setBoot_evidAt (d : Dev) (f : BootSt → BootSt) : (setBoot d f).evidAt = d.evidAt := rfl
@[simp] theorem setBoot_rateRem (d : Dev) (f : BootSt → BootSt) : (setBoot d f).rateRem = d.rateRem := rfl
@[simp] theorem setBoot_logAt (d : Dev) (f : BootSt → BootSt) : (setBoot d f).logAt = d.logAt := rfl
@[simp] theorem setBoot_retired1 (d : Dev) (f : BootSt → BootSt) : (setBoot d f).retired1 = d.retired1 := rfl
@[simp] theorem setBoot_scrub (d : Dev) (f : BootSt → BootSt) : (setBoot d f).scrub = d.scrub := rfl
@[simp] theorem setBoot_ferryIn (d : Dev) (f : BootSt → BootSt) : (setBoot d f).ferryIn = d.ferryIn := rfl
@[simp] theorem setBoot_ferry (d : Dev) (f : BootSt → BootSt) : (setBoot d f).ferry = d.ferry := rfl
@[simp] theorem setBoot_cans (d : Dev) (f : BootSt → BootSt) : (setBoot d f).cans = d.cans := rfl
@[simp] theorem setBoot_lins (d : Dev) (f : BootSt → BootSt) : (setBoot d f).lins = d.lins := rfl
@[simp] theorem setBoot_tapQ (d : Dev) (f : BootSt → BootSt) : (setBoot d f).tapQ = d.tapQ := rfl
@[simp] theorem setBoot_manQ (d : Dev) (f : BootSt → BootSt) : (setBoot d f).manQ = d.manQ := rfl
@[simp] theorem setBoot_car (d : Dev) (f : BootSt → BootSt) : (setBoot d f).car = d.car := rfl
@[simp] theorem setBoot_man (d : Dev) (f : BootSt → BootSt) : (setBoot d f).man = d.man := rfl
@[simp] theorem setBoot_diagPrev (d : Dev) (f : BootSt → BootSt) : (setBoot d f).diagPrev = d.diagPrev := rfl
@[simp] theorem setBoot_commitBy (d : Dev) (f : BootSt → BootSt) : (setBoot d f).commitBy = d.commitBy := rfl
@[simp] theorem setBoot_host (d : Dev) (f : BootSt → BootSt) : (setBoot d f).host = d.host := rfl
@[simp] theorem setBoot_xwe (d : Dev) (f : BootSt → BootSt) : (setBoot d f).xwe = d.xwe := rfl
@[simp] theorem setBoot_pair (d : Dev) (f : BootSt → BootSt) : (setBoot d f).pair = d.pair := rfl
@[simp] theorem setBoot_buoy (d : Dev) (f : BootSt → BootSt) : (setBoot d f).buoy = d.buoy := rfl
@[simp] theorem setBoot_pwr (d : Dev) (f : BootSt → BootSt) : (setBoot d f).pwr = d.pwr := rfl
@[simp] theorem setBoot_scarab (d : Dev) (f : BootSt → BootSt) : (setBoot d f).scarab = d.scarab := rfl
@[simp] theorem setBoot_dbg (d : Dev) (f : BootSt → BootSt) : (setBoot d f).dbg = d.dbg := rfl

end Sys2Proof.Machine
end

