-- ==== Sys2Proof/Laws/Resets.lean ====
section
/-! SUPPORT. What a chip reset and a power-on reset leave of the parts of the device that are not registers. -/

namespace Sys2Proof.Machine

/-- A choice between two devices that agree on a part agrees on it. -/
theorem ite_part {α : Type} (f : Dev → α) (c : Prop) [Decidable c] {a b : Dev} {x : α} (ha : f a = x) (hb : f b = x) :
    f (if c then a else b) = x := by split <;> assumption

/-- Raising an interrupt changes no part of the device but registers, the host's message table and what leaves the device. -/
theorem irq_part {α : Type} (f : Dev → α) (h1 : ∀ d pg off v, f (wr d pg off v) = f d) (h2 : ∀ (d : Dev) h, f { d with host := h } = f d)
    (h3 : ∀ d o, f (emit d o) = f d) (d : Dev) (pg : Page) (b : Nat) : f (irq d pg b) = f d := by
  unfold irq irqRawPut
  refine ite_part f _ ?_ (h1 ..)
  unfold msix
  refine ite_part f _ ?_ (h1 ..)
  unfold msixVec
  refine ite_part f _ ((h2 _ _).trans (h1 ..)) ?_
  unfold hostMem
  exact ite_part f _ ((h3 _ (.msix _ _)).trans (h1 ..)) ((h2 _ _).trans (h1 ..))

/-- Raising an interrupt changes nothing of the boot record, the pair, the Carapace. -/
theorem irq_rest (d : Dev) (pg : Page) (b : Nat) : (irq d pg b).boot = d.boot ∧ (irq d pg b).pair = d.pair ∧ (irq d pg b).car = d.car
    ∧ (irq d pg b).now = d.now :=
  ⟨irq_part Dev.boot (fun _ _ _ _ => rfl) (fun _ _ => rfl) (fun _ _ => rfl) d pg b, irq_part Dev.pair (fun _ _ _ _ => rfl) (fun _ _ => rfl) (fun _ _ => rfl) d pg b,
   irq_part Dev.car (fun _ _ _ _ => rfl) (fun _ _ => rfl) (fun _ _ => rfl) d pg b, irq_part Dev.now (fun _ _ _ _ => rfl) (fun _ _ => rfl) (fun _ _ => rfl) d pg b⟩

/-- Dropping the update lock changes nothing of the boot record but a slot's state and the session. -/
theorem updDrop_boot (d : Dev) : (updDrop d).boot.sel = d.boot.sel ∧ (updDrop d).boot.trio = d.boot.trio
    ∧ (updDrop d).boot.outer = d.boot.outer := by
  unfold updDrop updRelease
  split
  · rename_i x _
    rw [(irq_rest _ _ _).1]
    unfold setSlotSt
    by_cases h : x.target = 0
    · simp only [if_pos h]; exact ⟨rfl, rfl, rfl⟩
    · simp only [if_neg h]
      by_cases h1 : x.target = 1
      · simp only [if_pos h1]; exact ⟨rfl, rfl, rfl⟩
      · simp only [if_neg h1]; exact ⟨rfl, rfl, rfl⟩
  · exact ⟨rfl, rfl, rfl⟩

/-- Dropping the update lock leaves the pair, the Carapace and the instant. -/
theorem updDrop_pair (d : Dev) : (updDrop d).pair = d.pair ∧ (updDrop d).car = d.car ∧ (updDrop d).now = d.now := by
  unfold updDrop updRelease
  split
  · obtain ⟨-, h2, h3, h4⟩ := irq_rest (setBoot (setSlotSt d _ 0) fun b => { b with session := none }) .upd 0
    exact ⟨h2, h3, h4⟩
  · exact ⟨rfl, rfl, rfl⟩

/-- The device a chip reset starts from: local time restored, the update lock dropped. -/
def resetFrom (d : Dev) : Dev := updDrop (if d.time.stopped then timeRestore d else d)

/-- Storing a register changes no other part of the device. -/
theorem wr_rest (d : Dev) (pg : Page) (off : Nat) (v : W64) : (wr d pg off v).boot = d.boot ∧ (wr d pg off v).pair = d.pair
    ∧ (wr d pg off v).car = d.car ∧ (wr d pg off v).fcn = d.fcn ∧ (wr d pg off v).time = d.time ∧ (wr d pg off v).now = d.now :=
  ⟨rfl, rfl, rfl, rfl, rfl, rfl⟩

/-- The boot record after a chip reset: no image runs, a boot is due with its cause. -/
theorem chipReset_boot (d : Dev) (c : Nat) : (chipReset d c).boot = { (resetFrom d).boot with
    image := none, hdr := [], confirm := none, session := none, actAt := none, due := true, cause := c } := by
  unfold chipReset
  exact ite_part Dev.boot _ rfl rfl

/-- The straps of a pair survive a chip reset. -/
theorem chipReset_pair (d : Dev) (c : Nat) : (chipReset d c).pair.strapEn = (resetFrom d).pair.strapEn
    ∧ (chipReset d c).pair.unit = (resetFrom d).pair.unit := by
  unfold chipReset
  exact ⟨ite_part (fun e => e.pair.strapEn) _ rfl rfl, ite_part (fun e => e.pair.unit) _ rfl rfl⟩

end Sys2Proof.Machine
end

