-- ==== Sys2Proof/Laws/Services.lean ====
section
/-! SUPPORT. What the start of a staged mailbox message does, once for all of its commands. -/

namespace Sys2Proof.Machine

/-- A served message of a command that takes its length, and whose class the channel may use, has its effect and its answer. -/
theorem mboxStart_served {d : Dev} {ch code : Nat} {p : List Byte} (h : Safety.Served d ch code p) (priv : Option Nat)
    (hp : ∀ b, priv = some b → Safety.privileged d ch b = true) (lens : Nat → Bool) (hl : lens p.length = true)
    (f : List Byte → Dev → Answer × Dev) :
    mboxStart d ch code priv lens f = (match f p (Safety.opened d ch) with
      | (some (r, q), d1) => mboxReply d1 ch r q
      | (none, d1) => d1) := by
  obtain ⟨l, h1, h2, h3, h4, h5⟩ := h.staged
  unfold mboxStart
  rw [h1]
  dsimp only
  rw [h2, h3, h4, h.known.2, h.runs, h.turn, h.steady, h.known.1]
  have hf := h.fits
  rw [if_neg (by simp), if_neg (by simp), if_neg (by simp [hl]; omega)]
  cases priv with
  | none => simp; rfl
  | some b => have := hp b rfl; unfold Safety.privileged at this; simp [this]; rfl

end Sys2Proof.Machine
end

