-- ==== Sys2Proof/Tests/Slice0.lean ====
section
/-! SUPPORT. The author's own checks: for each check of WellFormed a command that fails it; for every statement with premises a
state and operands that meet them together (`meets_…`), clause by clause and at the boundary where clauses meet; single operations
checked against the manual's own examples and tables. -/

set_option Elab.async false

namespace Sys2Proof.Tests

open Sys2Proof Sys2Proof.Machine Sys2Proof.Safety

/-! ### Commands whose operands spell nothing that can arrive -/

theorem test_width_register_write : ¬ WellFormed (.registerWrite 0 .host 0 4 0) := by decide
theorem test_width_table_write : ¬ WellFormed (.tableWindowWrite 0 .host 0x01000000 4 0) := by decide
theorem test_width_register_read : ¬ WellFormed (.registerRead 0 .host 0 4) := by decide
theorem test_width_drain_read : ¬ WellFormed (.apertureDrainRead 0 .host 0 4) := by decide
theorem test_missing_page : ¬ WellFormed (.irqForce 0 .host (.port 26 1) 0) ∧ ¬ WellFormed (.errForce 0 .host (.port 27 3) 0)
    ∧ ¬ WellFormed (.pageLock 0 .host (.port 28 1)) := by decide
theorem test_missing_page_control : ¬ WellFormed (.blockEnable 0 .host (.port 26 1)) ∧ ¬ WellFormed (.blockDisable 0 .host (.port 26 1))
    ∧ ¬ WellFormed (.blockQuiesced 0 (.port 26 1)) ∧ ¬ WellFormed (.freeze 0 .host (.port 26 1) true) := by decide
theorem test_missing_page_reset : ¬ WellFormed (.blockSoftReset 0 none (.port 26 1)) ∧ ¬ WellFormed (.softResetEnd 0 (.port 26 1))
    ∧ ¬ WellFormed (.resetTimeout 0 (.port 26 1)) ∧ ¬ WellFormed (.resetShadowClose 0 (.port 26 1)) := by decide
theorem test_missing_page_commit : ¬ WellFormed (.commitImmediate 0 .host (.port 26 1) 1) ∧ ¬ WellFormed (.tideJoin 0 .host (.port 26 1) 1 0)
    ∧ ¬ WellFormed (.commitSwitch 0 (.port 26 1)) ∧ ¬ WellFormed (.mirrorRefillEnd 0 (.port 26 1))
    ∧ ¬ WellFormed (.signaturePass 0 (.port 26 1)) := by decide
theorem test_can_frame : ¬ WellFormed (.canFrameReceived 0 0 { id := 0x800, dlc := 0, data := [] } 0)
    ∧ ¬ WellFormed (.canFrameReceived 0 0 { id := 1, dlc := 16, data := [] } 0)
    ∧ ¬ WellFormed (.canFrameReceived 0 0 { id := 1, dlc := 2, data := [0] } 0)
    ∧ ¬ WellFormed (.canFrameReceived 0 0 { id := 1, dlc := 0, data := [], sdt := 256 } 0) := by decide
theorem test_lin_frame : ¬ WellFormed (.linFrameReceived 0 0 { fid := 64, data := [0] } none 0)
    ∧ ¬ WellFormed (.linFrameReceived 0 0 { fid := 1, data := [] } none 0) := by decide
theorem test_queue_of_port_c : ¬ WellFormed (.txDoorbell 0 { portC := true, q := 8 } 0) ∧ ¬ WellFormed (.rxDoorbell 0 { portC := true, q := 8 } 0)
    ∧ ¬ WellFormed (.pcieReadCompletion 0 { portC := true, q := 8 } .error) ∧ ¬ WellFormed (.coalesceTimeout 0 { portC := true, q := 8 } true)
    ∧ ¬ WellFormed (.hostQueueEnable 0 .scarab { portC := true, q := 8 } true 0) := by decide
theorem test_requester : ¬ WellFormed (.pcieCompletionTimeout 0 (.rxQueue { portC := true, q := 8 })) := by decide
theorem test_decoded : ¬ WellFormed (.buoyFrameDecoded 0 0 (.valid { id := 0x800, dlc := 0, data := [] })) := by decide
theorem test_bus_length : ¬ WellFormed (.claimRoundEnd 0 [true]) := by decide
theorem test_speed : ¬ WellFormed (.linkUp 0 0 7 false false 0) := by decide
theorem test_frame_length : ¬ WellFormed (.headerWindowComplete 0 0 { octets := List.replicate 16385 0 }) := by
  simp only [WellFormed, Instr.ok, List.length_replicate, decide_eq_true_eq]; decide
theorem test_ill_formed_lets_time_pass : Lands 0 (.linkUp 0 0 7 false false 0) State.reset (devAt State.reset.dev 0) := rfl

/-! ### Devices to speak of -/

/-- The reset device with these registers written (page, offset, word), in stored and active copy. -/
def withRegs (l : List (Page × Nat × Nat)) : Dev :=
  { l.foldl (fun d e => wr d e.1 e.2.1 (BitVec.ofNat 64 e.2.2)) resetDev with
    act := l.foldl (fun t e => kvPut t (e.1.base + e.2.1) (BitVec.ofNat 64 e.2.2)) [] }

/-- The device as a command at instant 0 finds it. -/
abbrev at0 (d : Dev) : Dev := devAt d 0

/-- A page that runs. -/
def on (pg : Page) : List (Page × Nat × Nat) := [(pg, 0x10, 1), (pg, 0x18, 1)]

/-- `Accepts` as a value to compute. -/
def acceptsB (d : Dev) (m : Master) (pg : Page) : Bool :=
  pg.Exists && !d.fcn.safe && domCond d pg.domain == 1 && ownerAllows d m pg
    && (m != .host || (decide (pwrState d < 3) && d.pwr.entry.isNone))

theorem accepts_of {d : Dev} {m : Master} {pg : Page} (h : acceptsB d m pg = true) : Accepts d m pg := by
  simp only [acceptsB, Bool.and_eq_true, Bool.or_eq_true, bne_iff_ne, decide_eq_true_eq, beq_iff_eq, Bool.not_eq_true',
    Option.isNone_iff_eq_none, ne_eq] at h
  obtain ⟨⟨⟨⟨h1, h2⟩, h3⟩, h4⟩, h5⟩ := h
  exact ⟨h1, h2, h3, h4, fun hm => h5.resolve_left fun hn => hn hm⟩

theorem all_none {α : Type} {o : Option α} {p : α → Prop} (h : o = none) : ∀ x, o = some x → p x := by simp [h]

theorem all_some {α : Type} {o : Option α} {p : α → Prop} (v : α) (h : o = some v) (hp : p v) : ∀ x, o = some x → p x := by
  intro x hx
  rw [h] at hx
  exact Option.some.inj hx ▸ hp

/-! ### Premises that can be met: registers and pages -/

theorem meets_StepRunsFrontCommand : State.reset.pending = [] := rfl

theorem meets_EveryArrivingCommandCompletes : WellFormed (.linkUp 0 0 6 false false 0) ∧ step State.reset = .next State.reset :=
  ⟨by decide, rfl⟩

theorem meets_StepKeepsMemoryCanonical : MemOk State.reset ∧ step State.reset = .next State.reset ∧ State.reset.pending = [] :=
  ⟨by unfold MemOk; decide, rfl, rfl⟩

theorem meets_QueueDrainsInOneStepPerCommand : MemOk { State.reset with pending := [.registerRead 0 .host 0 3] } := by
  unfold MemOk; decide

theorem meets_UnwrittenMemoryBytesStay :
    ∀ e ∈ (settle (devAt resetDev 0).buoy.cl ([] : List Host.Cell) resetDev).memOut, 0 < e.1 ∨ e.1 + e.2.length ≤ 0 := by decide +kernel

theorem meets_FieldsActByType :
    (∃ f : Fld, f.kind = .rw) ∧ (∃ f : Fld, f.kind = .w1c) ∧ (∃ f : Fld, f.kind = .ro) ∧ (∃ f : Fld, f.kind = .rwd)
    ∧ (∃ f : Fld, f.kind = .rwl) ∧ (∃ f : Fld, f.kind = .rws)
    ∧ (∃ r, Page.chip.rowAt 0x20 = some r ∧ ∀ f ∈ r.flds, f.kind ≠ .ctr)
    ∧ (∃ r, (Page.quay 0 0).rowAt 0x210 = some r ∧ ∃ f ∈ r.flds, f.kind = .ctr) ∧ frozenPage resetDev (.quay 0 0) = none :=
  ⟨⟨{ lo := 0, len := 1, kind := .rw, rst := 0 }, rfl⟩, ⟨{ lo := 0, len := 1, kind := .w1c, rst := 0 }, rfl⟩, ⟨{ lo := 0, len := 1, kind := .ro, rst := 0 }, rfl⟩, ⟨{ lo := 0, len := 1, kind := .rwd, rst := 0 }, rfl⟩, ⟨{ lo := 0, len := 1, kind := .rwl, rst := 0 }, rfl⟩, ⟨{ lo := 0, len := 1, kind := .rws, rst := 0 }, rfl⟩,
    ⟨_, rfl, by decide⟩, ⟨_, rfl, by decide⟩, by decide⟩

theorem meets_AccessErrorIsLogged : pageOf 0x7000 = none ∧ rd resetDev .chip 0x110 = 0
    ∧ rd (withRegs [(.chip, 0x110, 1)]) .chip 0x110 ≠ 0 := by decide

theorem meets_RefusedWriteOnlyLogs :
    (at0 { resetDev with fcn := { resetDev.fcn with safe := true } }).fcn.safe = true
    ∧ let d := at0 (withRegs [(.bwt 0, 0x8, 1)])
      Master.app ≠ .host ∧ d.fcn.safe = false ∧ (0x003007f8 : Nat) % 8 = 0 ∧ (0x003007f8 : Nat) < 0x01000000 ∧ pageOf 0x003007f8 = some (.bwt 0)
      ∧ domCond d (Page.bwt 0).domain = 1 ∧ (0x003007f8 : Nat) % 0x1000 < 0x800 ∧ ownerAllows d .app (.bwt 0) = false := by decide +kernel

theorem meets_PageHeaderWritesAct : let d := at0 resetDev
    Accepts d .host .chip ∧ forceAllowed d .host = true ∧ locked d .chip = false
    ∧ (winPage 0x01000000 = .bwt 0 ∧ writeCause d .scarab 0x01000000 3 = 0 ∧ sealedAddr d 0x01000000 = false
      ∧ (winLen 0).2 = false ∧ (winLayout 0x01000000).2 = false)
    ∧ (winPage 0x01800000 = .bwt 0 ∧ writeCause d .scarab 0x01800000 3 = 0 ∧ sealedAddr d 0x01800000 = false
      ∧ (winLen 2).2 = true ∧ shadowFrozen d (.bwt 0) = false ∧ (winLayout 0x01800000).2 = false) := by
  intros
  repeat' first | decide +kernel | exact accepts_of (by decide +kernel) | apply And.intro

theorem meets_RegisterReadsAnswer : let d := at0 resetDev
    (Page.chip.Exists = true ∧ domCond d Page.chip.domain = 1 ∧ pwrState d < 3 ∧ d.pwr.entry = none
      ∧ secretFor .host .chip 0xff8 = false ∧ drainRead d .chip 0xff8 (Page.chip.base + 0xff8) 3 = none)
    ∧ (domCond d (Page.quay 0 2).domain = 1 ∧ secretFor .scarab (.quay 0 2) 0x800 = false
      ∧ (drainRead d (.quay 0 2) 0x800 ((Page.quay 0 2).base + 0x800) 3).isSome = true) := by decide +kernel

theorem meets_PageControlActs : let d := at0 resetDev; let e := at0 (withRegs (on .xwe))
    (Accepts d .scarab .xwe ∧ enabled d .xwe = false ∧ enableRefused d .xwe = false ∧ rb d .xwe 0x10 2 ≠ true)
    ∧ Accepts e .scarab .xwe ∧ enabled e .xwe = true := by
  intros
  repeat' first | decide +kernel | exact accepts_of (by decide +kernel) | apply And.intro

theorem meets_BlockSoftResetActs : let d := at0 resetDev
    ((∀ n i, Page.xwe ≠ .quay n i) ∧ kvGet d.srst (blockBase .xwe) = none ∧ (∀ n, Page.xwe.quayOf = some n → (quay d n.val).isoAt = none)
      ∧ Accepts d .scarab .xwe)
    ∧ let e := at0 { resetDev with srst := [(Page.xwe.base, 0)], now := 100 * usTicks }
      kvGet e.srst (blockBase .xwe) = some 0 ∧ 0 + 100 * usTicks ≤ e.now := by
  refine ⟨⟨?_, ?_, all_none (by decide), ?_⟩, ?_⟩
  · intro n i h; cases h
  · decide +kernel
  · exact accepts_of (by decide +kernel)
  · decide +kernel

/-- The device with quay 1 reset at local time `x`, isolated since `i`, local time `l`. -/
def quayDev (x l : Nat) (i : Option Nat) : Dev :=
  { resetDev with quays := [(1, { resetAt := some x, isoAt := i })], time := { loc := l } }

theorem meets_QuayResetActs :
    (let d := at0 (quayDev 0 secUnits none);
      (quay d 1).isoAt = none ∧ domUp d 6 = true ∧ ∀ x, (quay d 1).resetAt = some x → x + secUnits ≤ locNow d)
    ∧ (let d := at0 (quayDev 1 secUnits none); (quay d 1).isoAt = none ∧ domUp d 6 = true ∧ (quay d 1).resetAt = some 1 ∧ locNow d < 1 + secUnits)
    ∧ Accepts (at0 resetDev) .host (.quay 1 0)
    ∧ (quay (at0 (quayDev 0 0 (some 0))) 1).isoAt ≠ none := by
  refine ⟨⟨by decide +kernel, by decide +kernel, all_some 0 (by decide +kernel) (by decide +kernel)⟩, by decide +kernel,
    accepts_of (by decide +kernel), by decide +kernel⟩

theorem meets_IllFormedCommandsLetTimePass : ¬ WellFormed (.linkUp 0 0 7 false false 0) := by decide

theorem meets_CommitRequestActs : let v := fun g : Nat => BitVec.ofNat 64 g
    Page.chip.hasShadow = false ∧ Page.ferry.hasShadow = true
    ∧ (genOf resetDev .ferry + 1) % 2 ^ 32 = 1 ∧ fld (v 2) 0 32 ≠ 1 ∧ fld (v 1) 0 32 = 1
    ∧ shadowFrozen (withRegs [(.ferry, 0x18, 0x10)]) .ferry = true ∧ genOf (withRegs [(.ferry, 0x18, 0x10)]) .ferry = 0
    ∧ shadowFrozen resetDev .ferry = false ∧ bit (v 0x100000001) 32 = true ∧ fld (v 0x100000001) 0 32 = 1
    ∧ (Page.can 0).hasShadow = true ∧ (Page.can 0).tide = false ∧ genOf resetDev (.can 0) = 0 ∧ Page.ferry.tide = true
    ∧ slotState (withRegs [(.chip, 0x410, 8)]) 0 = 2 ∧ slotState (withRegs [(.chip, 0x410, 4)]) 0 = 1
    ∧ fld (v 0x100000001) 33 3 = 0 ∧ bit (v 1) 32 = false := by decide +kernel

theorem meets_CommitCommandsAct : Page.ferry.Exists = true ∧ Accepts (at0 resetDev) .scarab .ferry
    ∧ (let d := at0 { resetDev with commitAt := [(Page.bwt 0 |>.base, 0)], now := 32 }
      kvGet d.commitAt (Page.bwt 0).base = some 0 ∧ switchDue (.bwt 0) 0 ≤ d.now)
    ∧ (let d := at0 { resetDev with commitAt := [(Page.bwt 0 |>.base, 0)], now := 31 }
      kvGet d.commitAt (Page.bwt 0).base = some 0 ∧ d.now < switchDue (.bwt 0) 0)
    ∧ (let d := at0 { resetDev with refillAt := [(Page.bwt 0 |>.base, 7)], now := 7 }
      kvGet d.refillAt (Page.bwt 0).base = some 7 ∧ 7 ≤ d.now ∧ inReset d (.bwt 0) = false ∧ Page.bwt 0 ≠ .xwe
      ∧ kvGet d.tideRef (Page.bwt 0).base = none)
    ∧ (let d := at0 { resetDev with refillAt := [(Page.bwt 0 |>.base, 7)], srst := [(Page.bwt 0 |>.base, 0)], now := 7 }
      kvGet d.refillAt (Page.bwt 0).base = some 7 ∧ 7 ≤ d.now ∧ inReset d (.bwt 0) = true)
    ∧ (let d := at0 (withRegs [(.bwt 1, 0x10, 9), (.bwt 1, 0x18, 1)])
      ab d (.bwt 1) 0x10 3 = true ∧ disabled d (.bwt 1) = false) := by
  repeat' first | decide +kernel | exact accepts_of (by decide +kernel) | apply And.intro

theorem meets_SwitchMakesShadowActive : ∀ i, Page.ferry ≠ .buoy i := by
  intro i h; cases h

/-- Tide slot 3 in a state, its time 0 in local time, with two pages joined. -/
def tideDev (state : Nat) : Dev := withRegs [(.chip, 0x470, state * 4 + 0x20000), (.chip, 0x468, 4 * 2 ^ 48)]

theorem meets_TideCommandsAct : Accepts (at0 resetDev) .host .chip ∧ slotState (at0 (tideDev 0)) 3 ≤ 1 ∧ slotState (at0 (tideDev 1)) 3 ≤ 1
    ∧ 2 ≤ slotState (at0 (tideDev 2)) 3 ∧ slotState (at0 (tideDev 1)) 3 = 1 ∧ armReject (at0 (tideDev 1)) 3 = 1
    ∧ armReject (at0 { tideDev 1 with regs := kvPut (tideDev 1).regs 0x460 1 }) 3 = 0
    ∧ slotState (at0 { tideDev 1 with regs := kvPut (tideDev 1).regs 0x460 1 }) 3 = 1
    ∧ slotState (at0 (tideDev 3)) 3 = 3 ∧ bit (2 : W64) 0 = false ∧ bit (1 : W64) 1 = false ∧ bit (3 : W64) 0 = true
    ∧ slotState (at0 (tideDev 2)) 3 = 2 ∧ (slotTime (at0 (tideDev 2)) 3).1 ≤ timeOf (at0 (tideDev 2)) (slotTime (at0 (tideDev 2)) 3).2 := by
  repeat' first | decide +kernel | exact accepts_of (by decide +kernel) | apply And.intro

theorem meets_IntegrityChecksReport : let d := at0 resetDev
    regionUp d 2 = true ∧ regionUp d 14 = true ∧ domUp d 5 = true ∧ domUp d 9 = true ∧ ¬ (0 ∈ d.retired1) ∧ pwrState d < 3
    ∧ (seenTwice (raise d .chip 1) 1 3).1 = false
    ∧ (let e := at0 { resetDev with scrub := { seen := [(1, 3)] } }; (seenTwice (raise e .chip 1) 1 3).1 = true
      ∧ kvD (seenTwice (raise e .chip 1) 1 3).2.scrub.spares 7 0 < 32)
    ∧ windowCount 5 = 1600 ∧ windowCount 5 < 20 * (1681 - windowCount 5) ∧ windowCount 5 < 20 * (windowCount 5 - 1519)
    ∧ 20 * (1680 - windowCount 5) ≤ windowCount 5 ∧ 20 * (windowCount 5 - 1520) ≤ windowCount 5
    ∧ (50000 : Nat) < 50001 := by decide +kernel

/-- The bank of the word has no spare left (its number is the device's, log 4). -/
theorem meets_IntegrityChecksReport_spent :
    let x := seenTwice (raise (at0 { resetDev with scrub := { seen := [(1, 3)], spares := [(Config.tableBank 3, 32)] } }) .chip 1) 1 3
    x.1 = true ∧ kvD x.2.scrub.spares (Config.tableBank 3) 0 = 32 := by
  intro x
  have h : x.2.scrub.spares = [(Config.tableBank 3, 32)] := rfl
  exact ⟨by decide +kernel, by rw [h]; simp [kvD, kvGet]⟩

/-! ### Premises that can be met: ports and media -/

/-- A port whose MAC and PHY run and whose link is up, with more registers. -/
def portDev (p : Nat) (l : List (Page × Nat × Nat)) : Dev :=
  withRegs (on (macPage p) ++ on (phyPage p) ++ [(macPage p, 0x80, 0x11), (macPage p, 0xb8, 1)] ++ l)

/-- The same device with what the port holds beside registers, at instant n. -/
def portWith (d : Dev) (p n : Nat) (x : PortSt) : Dev := { setPort d p x with now := n }

theorem meets_PauseAndLpiAct : rxAccepts (at0 (portDev 4 [])) 4 = true
    ∧ (let d := at0 (portWith (portDev 4 []) 4 9 { pauseEnd := some 9 }); (portSt d 4).pauseEnd = some 9 ∧ 9 ≤ d.now)
    ∧ (let d := at0 (portWith (portDev 4 []) 4 8 { pauseEnd := some 9 }); (portSt d 4).pauseEnd = some 9 ∧ d.now < 9)
    ∧ (let d := at0 { portDev 4 [(macPage 4, 0x88, 0x100), (macPage 4, 0xa0, 0x101)] with now := usTicks };
      eeeReady d 4 = true ∧ portBusy d 4 = false ∧ lpiOn d 4 = false ∧ gateSoon d 4 (eeeTw d 4 + usTicks) = false ∧ (portSt d 4).emptyFrom + eeeIdle d 4 ≤ d.now)
    ∧ (let d := at0 (portWith (portDev 4 [(macPage 4, 0xb8, 0x201)]) 4 9 { lpiFrom := some 1, lpiWakeAt := some 9 });
      lpiOn d 4 = true ∧ (portSt d 4).lpiWakeAt = some 9 ∧ 9 ≤ d.now ∧ (portSt d 4).lpiFrom = some 1)
    ∧ (let d := at0 { portDev 4 [(macPage 4, 0xb8, 0x201), (macPage 4, 0x270, 2 ^ 32 + 1000)] with
        gates := [(4, { oper := some { en := true, dom := 4, entries := [(0, 0, 2000), (255, 0, 998000)] } })] };
      lpiOn d 4 = true ∧ (portSt d 4).lpiWakeAt = none ∧ gateSoon d 4 (eeeTw d 4) = true)
    ∧ (let d := at0 (portDev 12 []); linkIsUp d 12 = true ∧ portType 12 = .g ∧ rb d (macPage 12) 0xb8 10 ≠ true) := by
  repeat' first | decide +kernel | apply And.intro

theorem meets_LinkChangesAct : linkIsUp (at0 (portDev 4 [])) 4 = true ∧ linkIsUp (at0 resetDev) 4 = false
    ∧ (let d := at0 (portDev 4 [(macPage 4, 0xb8, 0), (phyPage 4, 0xa0, 1)]);
      linkIsUp d 4 = false ∧ running d (phyPage 4) = true ∧ (portSt d 4).jabber = false)
    ∧ (let d := at0 (portWith (portDev 4 [(macPage 4, 0xb8, 0), (phyPage 4, 0xa0, 1)]) 4 0 { record := some (3, true), warmFrom := some 0 });
      linkIsUp d 4 = false ∧ running d (phyPage 4) = true ∧ (portSt d 4).jabber = false
      ∧ (warmTrying d 4 && !warmPast d 4 (warmWindow d 4 + 1) && true && (decide ((4 : Nat) < 4) || (portSt d 4).record == some (3, true))) = true)
    ∧ rf (at0 (portDev 4 [(macPage 4, 0xb0, 1)])) (macPage 4) 0xb0 0 2 = 1 := by decide +kernel

/-- Port p in a warm attempt since instant 0, at instant n. -/
def warmDev (p n : Nat) : Dev :=
  portWith (portDev p [(macPage p, 0xb8, 0), (phyPage p, 0xa0, 0x3041)]) p n { record := some (3, true), warmFrom := some 0 }

theorem meets_WarmRelinkActs : warmPort 19 = true ∧ Accepts (at0 (portDev 19 [])) .scarab (phyPage 19) ∧ linkIsUp (at0 (portDev 19 [])) 19 = true
    ∧ (let d := at0 (warmDev 4 0);
      warmTrying d 4 = true ∧ rf d (phyPage 4) 0xa0 4 8 < 5 ∧ rf d (phyPage 4) 0xa0 4 8 = 4 ∧ rf d (phyPage 4) 0xa0 12 3 = 3)
    ∧ (let d := at0 (warmDev 4 (warmWindow (warmDev 4 0) 4));
      warmTrying d 4 = true ∧ (portSt d 4).warmFrom = some 0 ∧ 0 + warmWindow d 4 ≤ d.now)
    ∧ (let d := at0 (warmDev 4 (300 * usTicks - 1)); warmTrying d 4 = true ∧ (portSt d 4).warmFrom = some 0 ∧ d.now < 0 + 300 * usTicks
      ∧ d.now < 0 + warmWindow d 4)
    ∧ (let d := at0 (warmDev 3 (300 * usTicks)); warmTrying d 3 = true ∧ (portSt d 3).warmFrom = some 0 ∧ 0 + 300 * usTicks ≤ d.now)
    ∧ warmTrying (at0 (warmDev 3 0)) 3 = true := by
  repeat' first | decide +kernel | exact accepts_of (by decide +kernel) | apply And.intro

theorem meets_SharedSegmentEventsAct : portType 20 = .s
    ∧ (let d := at0 (portDev 20 [(phyPage 20, 0xd8, 1)]); running d (phyPage 20) = true ∧ ab d (phyPage 20) 0xd8 0 = true ∧ linkIsUp d 20 = true
      ∧ fld (portSt d 20).plcaNow 1 8 = 0)
    ∧ (let d := at0 (portWith (portDev 20 [(phyPage 20, 0xd8, 3)]) 20 (400 * usTicks) { plcaNow := 3 });
      running d (phyPage 20) = true ∧ ab d (phyPage 20) 0xd8 0 = true ∧ linkIsUp d 20 = true ∧ fld (portSt d 20).plcaNow 1 8 ≠ 0
      ∧ (portSt d 20).beaconAt + 400 * usTicks ≤ d.now ∧ rb d (phyPage 20) 0xe0 1 = false)
    ∧ (let d := at0 (portDev 20 [(phyPage 20, 0xd8, 3)]); d.now < (portSt d 20).beaconAt + 400 * usTicks)
    ∧ (let f : TxFrame := { copy := { fid := 0, ing := 4, port := 20, octets := [], len := none }, tc := 0, start := 0, ends := 9, octets := [] };
      let d := at0 { portDev 20 [] with tx := [(20, f)] }; kvGet d.tx 20 = some f ∧ f.tries + 1 < 16 ∧ 16 ≤ { f with tries := 15 }.tries + 1
      ∧ running d (phyPage 20) = true ∧ (portSt d 20).jabber = false ∧ d.now < f.start + 2 * msTicks
      ∧ (let e := at0 { d with now := 2 * msTicks }; kvGet e.tx 20 = some f ∧ f.start + 2 * msTicks ≤ e.now)) := by decide +kernel

theorem meets_Tc10Acts : let d := at0 (portDev 4 [(phyPage 4, 0xc0, 2)])
    (tc10Port 4 = true ∧ linkIsUp d 4 = true ∧ Accepts d .scarab (phyPage 4))
    ∧ (rf d (phyPage 4) 0xc8 0 3 ≠ 1 ∧ rb d (phyPage 4) 0xc0 1 = true
      ∧ ((queued d (quayOfPort 4)).any fun e => e.2.port == 4) = false)
    ∧ rb (at0 (portDev 4 [(phyPage 4, 0xc0, 0)])) (phyPage 4) 0xc0 1 = false
    ∧ let e := at0 (portWith (portDev 4 [(phyPage 4, 0xc8, 1)]) 4 (16 * msTicks) { tc10From := some 0 });
      rf e (phyPage 4) 0xc8 0 3 = 1 ∧ (portSt e 4).tc10From = some 0 ∧ 0 + 16 * msTicks ≤ e.now := by
  intros
  repeat' first | decide +kernel | exact accepts_of (by decide +kernel) | apply And.intro

theorem meets_CableTestAndSqiAct : Accepts (at0 resetDev) .scarab (phyPage 0) ∧ portType 0 = .b ∧ Accepts (at0 resetDev) .scarab (phyPage 4)
    ∧ portType 4 ≠ .b ∧ disabled (at0 resetDev) (phyPage 4) = true ∧ disabled (at0 (portDev 4 [])) (phyPage 4) = false
    ∧ Accepts (at0 (portDev 4 [])) .scarab (phyPage 4)
    ∧ rf (at0 (withRegs [(phyPage 4, 0xb8, 1)])) (phyPage 4) 0xb8 0 3 = 1 ∧ portType 19 = .g ∧ linkIsUp (at0 (portDev 19 [])) 19 = true
    ∧ (let d := at0 { portDev 19 [] with now := msTicks }; linkIsUp d 19 = true ∧ (portSt d 19).sqiAt + msTicks ≤ d.now)
    ∧ (let d := at0 { portDev 19 [] with now := msTicks - 1 }; d.now < (portSt d 19).sqiAt + msTicks) := by
  repeat' first | decide +kernel | exact accepts_of (by decide +kernel) | apply And.intro

/-! ### Premises that can be met: frames, zones, queues, gates -/

/-- The device with table words. -/
def withTbl (d : Dev) (l : List (Nat × Nat)) : Dev := l.foldl (fun d e => twr d e.1 (BitVec.ofNat 64 e.2)) d

/-- An untagged frame of n octets without FCS. -/
def plain (n : Nat) : EthFrame := { octets := List.replicate 12 1 ++ [0x12, 0x34] ++ List.replicate (n - 14) 0 }

/-- A frame of n octets without FCS in reception on port 4, whose MAC_MAXLEN.MAX is 64, and the ready headers of its quay. -/
def recvDev (n : Nat) (ready : List ReadyHdr) : Dev :=
  let d := setPort (portDev 4 (on (quayPage 0 0) ++ [(macPage 4, 0x90, 64)])) 4 { rx := [{ fid := 0, octets := List.replicate n 1 }] }
  { d with quays := [(0, { ready := ready })] }

theorem meets_ReceptionActs :
    (rxAccepts (at0 (withRegs (on (macPage 26) ++ [(macPage 26, 0x80, 1)]))) 26 = true ∧ (plain 60).octets.length = 60)
    ∧ (let d := at0 (portDev 4 [(macPage 4, 0x80, 0x21)]); rxAccepts d 4 = true
      ∧ ab (mediaCount d 4 (plain 60).media) (macPage 4) 0x80 5 = true)
    ∧ (let d := mediaCount (at0 (portDev 4 [])) 4 (plain 59).media;
      rxAccepts (at0 (portDev 4 [])) 4 = true ∧ (plain 59).octets.length + 4 < 64 ∧ (plain 59).preambleOk = true
      ∧ macsecHead d 4 (plain 60).octets = (some (plain 60).octets, d) ∧ nodeClass d 4 (plain 60) = 0 ∧ macsecRxForce d 4 = false)
    ∧ (let d := at0 (recvDev 60 []);
      (inReception (portSt d 4)).map (fun r => (r.gone, r.decided, r.preempt, r.octets.length)) = some (0, false, false, 60)
      ∧ af d (macPage 4) 0x90 0 14 = 64)
    ∧ (let d := at0 (recvDev 61 []);
      (inReception (portSt d 4)).map (·.octets.length) = some 61 ∧ af d (macPage 4) 0x90 0 14 < 61 + 4)
    ∧ (let h : ReadyHdr := { fid := 0, port := 4, ready := 0, frame := plain 60 }
      let d := at0 (recvDev 60 [h]); nextReady (quay d 0) = some h ∧ canEnter d 0 = true ∧ h.pres = none ∧ (∀ n < 4, (quay d n).pipe = [])
      ∧ d.now < entryCycle d 0 h + 19)
    ∧ (let h : ReadyHdr := { fid := 0, port := 28, ready := 0, frame := plain 60, pres := some {} }
      let d := at0 (recvDev 60 [h]); nextReady (quay d 0) = some h ∧ canEnter d 0 = true ∧ h.pres = some {})
    ∧ canEnter (at0 resetDev) 0 = false := by
  repeat' first | decide +kernel | apply And.intro

/-- Port 4 takes untagged frames as VLAN 5 (R109, R110). -/
def untagDev : Dev := withRegs [(quayPage 0 0, 0x100 + slotOfPort 4 * 8, 2 ^ 18 + 5)]

/-- How the decision classifies the frame of `plain 60` on port 4. -/
def plainClass (d : Dev) : Option (Nat × Nat) := classify (portCfg d (curView d) 4) (parse (plain 60).octets (parseCfg 0))

/-- R57: a frame that enters at 13 is decided at 32, where a commit accepted at 0 switches; one that enters at 12 is not. -/
theorem test_switch_decides_at_decision_point :
    let d : Dev := { resetDev with commitAt := [((Page.quay 0 0).base, 0)] }
    (curView (switchedAt d (13 + 19))).epoch = 1 ∧ (curView (switchedAt d (12 + 19))).epoch = 0 := by decide +kernel

/-- R124: of the headers that the pipelines hold the earliest entry is decided first, of two of one cycle that of the lower quay. -/
theorem test_decisions_in_order : let h (p : Nat) : ReadyHdr := { fid := p, port := p, ready := 0, frame := plain 60 }
    let d (a b : Nat) : Dev := { resetDev with quays := [(0, { pipe := [(a, h 4)] }), (2, { pipe := [(b, h 14)] })] }
    (pipeNext (d 8 8)).map (·.1) = some 0 ∧ (pipeNext (d 8 7)).map (·.1) = some 2 := by decide +kernel

/-- R116: what was issued to be visible from 20 on is read from cycle 20 on, also by a frame that is decided after that. -/
theorem test_read_sees_what_was_visible : let d := applyPend (issue resetDev 20 0x01400000 [7]) 25
    tIn d.tbl 0x01400000 = 7 ∧ tIn (tableAt d 20) 0x01400000 = 7 ∧ tIn (tableAt d 19) 0x01400000 = 0
    ∧ tIn (tableAt (issue resetDev 20 0x01400000 [7]) 20) 0x01400000 = 7 := by decide +kernel

theorem meets_DecisionDropsAreCounted : (4 : Nat) < 29 ∧ plainClass (withRegs [(quayPage 0 0, 0x100 + slotOfPort 4 * 8, 0)]) = none ∧ plainClass untagDev = some (5, 0)
    ∧ vlanEntry (curView untagDev).tbl 5 = none
    ∧ (let t := (curView (withTbl untagDev [(zoneBase + 5 * 16, 2 ^ 63)])).tbl; vlanEntry t 5 = some (0, 0, none) ∧ 0 / 2 ^ 4 % 2 = 0)
    ∧ (let t := (curView (withTbl untagDev [(zoneBase + 5 * 16, 2 ^ 63 + 16)])).tbl;
      vlanEntry t 5 = some (16, 0, none) ∧ 16 / 2 ^ 4 % 2 = 1 ∧ zoneOf t 4 5 = none) := by
  repeat' first | decide +kernel | apply And.intro

/-- Endpoint 32 in zone 1 and port 4 in zone 2; rule 3 is valid, matches every key and has a rate gate where g says so. -/
def ruleDev (g : Nat) : Dev :=
  withTbl resetDev [(zoneBase + 0x14000 + 4 * 8, 2 ^ 63 + 2), (ruleAddr 3 + 80, 2 ^ 63), (ruleAddr 3 + 88, g),
    (zoneBase + 0x10000 + 264, 2 ^ 8)]

/-- A CAN frame from channel 0 for port 4, as Breakwater sees it. -/
def bwCan (d : Dev) : BwIn :=
  { q := 3, vw := curView d, subj := { kind := 2, src := 32, srcZone := 1, pcp := 0, vid := 0, flags := 0, stream := none, body := 0 },
    parsed := none, dests := [4], len := 64, e := 0 }

theorem meets_WinningRuleIsLowestMatch : kvSorted (ruleDev 0).tbl ∧ winner (ruleDev 0).tbl 7 = some 3 ∧ winner resetDev.tbl 7 = none
    ∧ (2047 : Nat) < 2048 ∧ (bwCan (ruleDev 0)).parsed = none
    ∧ (breakwater (ruleDev 0) (bwCan (ruleDev 0))).2.acts.map (fun x => (x.1, x.2.fromRule)) = [(4, some 3)] := by
  repeat' first | decide +kernel | apply And.intro

theorem meets_VerdictsAndRateGatesCount : bit (tIn (curView (ruleDev 0)).tbl (ruleAddr 3 + 88)) 0 = false
    ∧ bit (tIn (curView (ruleDev 0x1003)).tbl (ruleAddr 3 + 88)) 0 = true := by decide +kernel

theorem meets_SweepsAct : rf (at0 (withRegs [(.quay 0 0, 0xb0, 0)])) (.quay 0 0) 0xb0 0 16 = 0
    ∧ (let d := at0 { withRegs [(.quay 0 0, 0xb0, 1)] with time := { loc := 5 * secUnits } };
      rf d (.quay 0 0) 0xb0 0 16 = 1 ∧ d.agedAt + max 1 10 * secUnits / 2 ≤ locNow d)
    ∧ (let d := at0 { withRegs [(.quay 0 0, 0xb0, 12)] with time := { loc := 6 * secUnits - 1 } };
      rf d (.quay 0 0) 0xb0 0 16 = 12 ∧ locNow d < d.agedAt + max 12 10 * secUnits / 2)
    ∧ Accepts (at0 resetDev) .scarab (.quay 2 0) ∧ bit (1 : W64) 0 = true
    ∧ (let d := at0 { withTbl resetDev [(frerAddr 7, 2 ^ 63), (frerAddr 7 + 16, 2)] with time := { loc := 2 * 65536000000 } };
      bit (trd d (frerAddr 7)) 63 = true ∧ bit (trd d (frerAddr 7)) 26 = false ∧ fld (trd d (frerAddr 7 + 16)) 0 16 = 2
      ∧ (locMs d % 2 ^ 32 + 2 ^ 32 - fld (trd d (frerAddr 7 + 16)) 32 32) % 2 ^ 32 = 2)
    ∧ (let d := at0 { withTbl resetDev [(frerAddr 7, 2 ^ 63), (frerAddr 7 + 16, 3)] with time := { loc := 2 * 65536000000 } };
      (locMs d % 2 ^ 32 + 2 ^ 32 - fld (trd d (frerAddr 7 + 16)) 32 32) % 2 ^ 32 < fld (trd d (frerAddr 7 + 16)) 0 16)
    ∧ fld (trd (at0 resetDev) (frerAddr 7 + 16)) 0 16 = 0
    ∧ flowEntries (at0 resetDev).tbl = []
    ∧ (let d := at0 { withTbl resetDev [(0x01000040, 2 ^ 63)] with time := { loc := 10 ^ 6 * 65536000000000 } };
      flowEntries d.tbl = [0x01000040] ∧ bit (tIn (fullTbl d) 0x01000040) 24 = false
      ∧ flowTimeout d (tIn (fullTbl d) 0x01000040) * 1000
        < (locMs d % 2 ^ 32 + 2 ^ 32 - fld (tIn (fullTbl d) (0x01000040 + 48)) 0 32) % 2 ^ 32) := by
  repeat' first | decide +kernel | exact accepts_of (by decide +kernel) | apply And.intro

theorem meets_FlowCommandsAct : Accepts (at0 resetDev) .scarab (.bwt 0) ∧ rb (at0 resetDev) (.bwt 0) 0xb8 63 = false
    ∧ (let d := at0 (withRegs [(.bwt 0, 0xb8, 2 ^ 63)]); Accepts d .scarab (.bwt 0) ∧ rb d (.bwt 0) 0xb8 63 = true)
    ∧ (at0 resetDev).flush = none ∧ (at0 { resetDev with flush := some (2, 0, 0) }).flush = some (2, 0, 0) := by
  repeat' first | decide +kernel | exact accepts_of (by decide +kernel) | apply And.intro

/-- A mailbox message of a command with a payload. -/
def message (code : Nat) (p : List Byte) : List Byte := leBytes 2 code ++ List.replicate 6 0 ++ leBytes 4 p.length ++ List.replicate 20 0 ++ p

/-- A device whose firmware runs, with a message staged on a channel and every class of commands allowed. -/
def serving (d : Dev) (ch code : Nat) (p : List Byte) : Dev :=
  { wr d (.mbox 0) 0x80 (BitVec.ofNat 64 (2 ^ 32 - 1)) with
    boot := { d.boot with image := some 0, due := false }, host := { d.host with mbox := [(ch, { staged := some (message code p) })] } }

/-- What `Served` asks beside the message, as a value to compute. -/
def servedB (d : Dev) (ch code : Nat) : Bool :=
  mboxKnown.contains code && !romServes d && firmwareRuns d && mboxNext d == some ch && d.car.lcNext.isNone

theorem served_of {d : Dev} {ch code : Nat} {p : List Byte} (hm : (mbox d ch).staged = some (message code p))
    (hc : code < 2 ^ 16 ∧ p.length ≤ 8160) (h : servedB d ch code = true) : Served d ch code p := by
  simp only [servedB, Bool.and_eq_true] at h
  obtain ⟨⟨⟨⟨h3, h4⟩, h5⟩, h6⟩, h7⟩ := h
  have hp : (leBytes 2 code ++ List.replicate 6 0 ++ leBytes 4 p.length ++ List.replicate 20 0).length = 32 := by simp [leBytes]
  have h1 : leNat ((message code p).take 2) = code := by
    show leNat (leBytes 2 code) = code
    simp only [leBytes, leNat, BitVec.toNat_ofNat]
    omega
  have h2 : leNat (slice (message code p) 8 4) = p.length := by
    show leNat (leBytes 4 p.length) = p.length
    simp only [leBytes, leNat, BitVec.toNat_ofNat]
    omega
  have hs : slice (message code p) 32 p.length = p := by
    unfold message slice
    rw [show 32 = _ from hp.symm, List.drop_left, List.take_length]
  refine ⟨⟨_, hm, h1, h2, hs, ?_⟩, hc.2, ⟨h3, by simpa using h4⟩, h5, by simpa using h6, by simpa using h7⟩
  unfold message
  exact Nat.le_of_eq (by rw [List.length_append, hp])

theorem meets_DiagSessionsAct : let bwt : Page := .bwt 1
    (let d := at0 (serving resetDev 0 0x40 (List.replicate 256 0));
      privileged d 0 5 = true ∧ Served d 0 0x40 (List.replicate 256 0) ∧ (diagTokenResult (List.replicate 256 0) (opened d 0)).1 = 8)
    ∧ (let d := at0 (serving resetDev 3 0x41 [3]); privileged d 3 5 = true ∧ Served d 3 0x41 [3] ∧ octetAt [3] 0 = 3)
    ∧ (let d := at0 { withRegs [(bwt, 0x110, 1), (bwt, 0x108, 2)] with time := { loc := 2 * secUnits } };
      rb d bwt 0x110 0 = true ∧ Accepts d .scarab bwt ∧ (rd d bwt 0x108).toNat = locSec d)
    ∧ (let d := at0 { withRegs [(bwt, 0x110, 1), (bwt, 0x108, 2)] with time := { loc := 2 * secUnits - 1 } };
      rb d bwt 0x110 0 = true ∧ locSec d < (rd d bwt 0x108).toNat) := by
  intros
  repeat' first | decide +kernel | exact accepts_of (by decide +kernel) | exact served_of rfl (by decide +kernel) (by decide +kernel) | apply And.intro

/-- A workshop token of slot 9 for local time, serial 1, valid in second 0. -/
def workToken : List Byte := [1, 0, 4, 9, 1, 0, 0, 0] ++ List.replicate 248 0

/-- A device in LC_OEM whose slot 9 holds a workshop key. -/
def workDev : Dev := { withRegs [(.carapace, 0x80, 2)] with car := { slots := [(9, { attr := BitVec.ofNat 64 (6 * 2 ^ 12 + 8) })] } }

/-- A copy of a frame of 64 octets for port 4. -/
def copy4 : Copy := { fid := 1, ing := 5, port := 4, octets := List.replicate 60 1, len := some 64 }

/-- Port 4 sends, quay 0 holds a copy for it in queue cell 5. -/
def sendDev : Dev :=
  { portDev 4 (on (quayPage 0 1) ++ [(macPage 4, 0x80, 3)]) with quays := [(0, { qcells := [(5, { copies := [copy4], elig := true })] })] }

/-- Port 4 has a frame in transmission. -/
def sendingDev : Dev := { sendDev with tx := [(4, { copy := copy4, tc := 0, start := 0, ends := 0, octets := List.replicate 60 1 })], quays := [] }

theorem meets_TransmissionActs : txReady (at0 resetDev) 4 = false
    ∧ (let d := at0 { sendDev with quays := [] }; txReady d 4 = true ∧ kvGet d.tx 4 = none ∧ kvGet d.susp 4 = none
      ∧ pick (lookPort (cbsSync d 4) 4) 4 (fun t => !preemptable (lookPort (cbsSync d 4) 4) 4 t || !false) = none)
    ∧ (let d := at0 sendDev; txReady d 4 = true ∧ kvGet d.tx 4 = none ∧ kvGet d.susp 4 = none
      ∧ let d1 := lookPort (cbsSync d 4) 4
        kvGet d1.tx 4 = none ∧ kvGet d1.susp 4 = none ∧ (mergeActive d1 4 && (gatesOf d1 4).hold) = false
        ∧ pick d1 4 (fun t => !preemptable d1 4 t || !false) = some (0, 5) ∧ (takeHead d1 4 0 5).2 = some copy4)
    ∧ (let d := cbsSync (at0 sendingDev) 4; (kvGet d.tx 4).map (fun f => (f.copy.bad, f.copy.tsId, f.octets.length)) = some (false, none, 60)
      ∧ rb d (macPage 4) 0x80 12 = false ∧ rb d (macPage 4) 0x80 13 = false)
    ∧ (let f : TxFrame := { copy := { copy4 with tsId := some 7 }, tc := 0, start := 0, ends := 0, octets := List.replicate 60 1 }
      let d := cbsSync (at0 { sendingDev with tx := [(20, { f with copy := { f.copy with port := 20 } })] }) 20
      (kvGet d.tx 20).map (fun f => (f.copy.bad, f.copy.tsId, f.stamp)) = some (false, some 7, none)
      ∧ rb d (macPage 20) 0x80 12 = false ∧ rb d (macPage 20) 0x80 13 = false)
    ∧ portType 4 ≠ .s ∧ portType 20 = .s ∧ txReady (at0 resetDev) 20 = false
    ∧ (cbsCfg (at0 resetDev) 4 6).1 = false ∧ (cbsCfg (at0 (withRegs [(macPage 4, 0x270, 2 ^ 32 + 1000)])) 4 6).1 = true := by
  repeat' first | decide +kernel | apply And.intro

/-- A gate list in local time from CT `ct`. -/
def gateList (ct : Nat) : GateList := { en := true, dom := 4, entries := [(1, 0, 1000000)], ct := ct }

/-- Shaper 7 of quay 0 waits in coarse slot c for NET n; two queue elements of it are loaded nowhere else. -/
def coarseDev (c n : Nat) : Dev :=
  { resetDev with quays := [(0, { shapers := [(7, { slot := some (true, c), net := n })] })], time := { loc := 1023 * slotUnits } }

theorem meets_GateAndShaperEventsAct : operList (cbsSync (at0 resetDev) 4) 4 = none
    ∧ (let d := cbsSync (at0 { resetDev with gates := [(4, { oper := some (gateList 0) })] }) 4; operList d 4 = some (gateList 0) ∧ kvGet d.tx 4 = none)
    ∧ (let f : TxFrame := { copy := copy4, tc := 1, start := 0, ends := 9, octets := [], preempt := true, total := 200 }
      let d0 := cbsSync (at0 { portDev 4 [(macPage 4, 0xb0, 4)] with gates := [(4, { oper := some (gateList 0) })], tx := [(4, f)] }) 4
      let now := gatesNow d0 4 (selLead d0 4)
      let d1 := lookPort (setPort d0 4 { portSt d0 4 with gateClass := now.1 }) 4
      let d2 := wf (wf d1 (gatePg 4).1 ((gatePg 4).2 + 0x20) 8 8 now.1) (gatePg 4).1 ((gatePg 4).2 + 0x20) 16 11 now.2.2
      operList d0 4 = some (gateList 0) ∧ mergeActive d2 4 = true ∧ now = (1, 0, 0) ∧ kvGet d2.tx 4 = some f ∧ f.preempt = true
      ∧ (kvGet d2.susp 4).isNone = true ∧ now.1 / 2 ^ f.tc % 2 = 0
      ∧ (cutPoint (setGates d2 4 { gatesOf d2 4 with hold := (gatesOf d2 4).hold }) 4 f d2.now).isSome = true)
    ∧ (let d := at0 { resetDev with gates := [(4, { pend := some (gateList 9) })], time := { loc := 9 } };
      (gatesOf d 4).pend = some (gateList 9) ∧ (gateList 9).ct ≤ timeOf d (gateList 9).dom)
    ∧ (let d := at0 { resetDev with gates := [(4, { pend := some (gateList 10) })], time := { loc := 9 } };
      (gatesOf d 4).pend = some (gateList 10) ∧ timeOf d (gateList 10).dom < (gateList 10).ct)
    ∧ (gatesOf (at0 resetDev) 4).pend = none
    ∧ (let d := at0 (coarseDev 1 0); (quay d 0).shapers = [(7, { slot := some (true, 1) })] ∧ 1 ≤ (locNow d / slotUnits + 1) / 1024
      ∧ slotLoad d 0 (false, 0) < 16)
    ∧ (let d := at0 (coarseDev 2 0); (quay d 0).shapers = [(7, { slot := some (true, 2) })] ∧ (locNow d / slotUnits + 1) / 1024 < 2)
    ∧ (let d := at0 { withRegs (on (quayPage 0 2) ++ [(quayPage 0 2, 0x80, 0x201)]) with time := { loc := 2 * 65536000 } };
      running d (quayPage 0 2) = true ∧ rb d (quayPage 0 2) 0x80 0 = true ∧ rf d (quayPage 0 2) 0x80 8 10 = 2
      ∧ (quay d 0).sampAt / (2 * 65536000) < locNow d / (2 * 65536000))
    ∧ (let d := at0 { withRegs (on (quayPage 0 2) ++ [(quayPage 0 2, 0x80, 0x201)]) with time := { loc := 2 * 65536000 - 1 } };
      locNow d / (2 * 65536000) ≤ (quay d 0).sampAt / (2 * 65536000))
    ∧ rb (at0 resetDev) (quayPage 0 2) 0x80 0 = false := by
  repeat' first | decide +kernel | apply And.intro

/-! ### Premises that can be met: time -/

/-- Domain 1 enabled, with steps that wait, at period n. -/
def domDev (n : Nat) (steps : List TimeStep) : Dev :=
  { withRegs [(.time 0, 0x140, 1)] with now := n, time := { doms := [(1, { on := true, ctr := 2 ^ 56, steps := steps })] } }

theorem meets_TimeDomainCommandsAct : let pg : Page := .time 0
    Accepts (at0 resetDev) .scarab pg
    ∧ toSigned 40 549755813 = 549755813 ∧ toSigned 40 (2 ^ 40 - 549755813) = -549755813 ∧ toSigned 40 549755814 = 549755814
    ∧ toSigned 40 (2 ^ 40 - 549755814) = -549755814
    ∧ rb (at0 resetDev) pg (tReg 1 0) 0 = false
    ∧ (let d := at0 { domDev 0 [] with time := { doms := [(1, { on := true })], touts := [(0, { state := 1, dom := 1 })] } };
      Accepts d .scarab pg ∧ rb d pg (tReg 1 0) 0 = true ∧ (domUses d 1).any id = true)
    ∧ (let d := at0 (domDev 0 []); Accepts d .scarab pg ∧ rb d pg (tReg 1 0) 0 = true ∧ (domUses d 1).any id = false ∧ (dom d 1).steps = []
      ∧ fld (rd d pg (tReg 1 0x18)) 0 32 < 1000000000 ∧ d.time.snapDue = none)
    ∧ (let x : TimeStep := { edge := 5, abs := false, val := -(2 : Int) ^ 16 };
      ((dom (at0 (domDev 19 [x])) 1).steps = [x] ∧ (at0 (domDev 19 [x])).now / 4 < 5)
      ∧ (dom (at0 (domDev 20 [x])) 1).steps = [x] ∧ 5 ≤ (at0 (domDev 20 [x])).now / 4
      ∧ stepCtr (at0 (domDev 20 [x])) { dom (at0 (domDev 20 [x])) 1 with steps := [] } x = some 0
      ∧ stepCtr (at0 (domDev 20 [x])) { dom (at0 (domDev 20 [x])) 1 with steps := [] } { x with val := -(2 : Int) ^ 16 - 1 } = none)
    ∧ (let d := at0 { withRegs [(pg, 0x140, 0x10003)] with now := msTicks };
      rf d pg (tReg 1 0) 16 16 = 1 ∧ rb d pg (tReg 1 0) 1 = true ∧ (dom d 1).wdFrom + 1 * msTicks ≤ d.now)
    ∧ rf (at0 (withRegs [(pg, 0x140, 0)])) pg (tReg 1 0) 16 16 = 0 := by
  intros
  repeat' first | decide +kernel | exact accepts_of (by decide +kernel) | apply And.intro

theorem meets_TimedInputsAndOutputsAct : let pg : Page := .time 1
    Accepts (at0 resetDev) .scarab pg
    ∧ toutReject (writeFields (at0 resetDev) pg 0x80 (setBit (1 : W64) 0 true)) 0 ≠ 0
    ∧ (let d := at0 (withRegs [(pg, 0x88, 1), (pg, 0xa0, 10)]);
      Accepts d .scarab pg ∧ toutReject (writeFields d pg 0x80 (setBit (0x11 : W64) 0 true)) 0 = 0)
    ∧ (let d := at0 { resetDev with time := { touts := [(2, { state := 1, dom := 4, next := 65536 })] } };
      (tout d 2).state = 1 ∧ (tout d 2).next ≤ timeOf d (tout d 2).dom + 65536 ∧ (tout d 2).active = false)
    ∧ (let d := at0 { resetDev with time := { touts := [(2, { state := 2, dom := 4, next := 65536, active := true, periodic := true })] } };
      (tout d 2).state = 2 ∧ (tout d 2).next ≤ timeOf d (tout d 2).dom + 65536 ∧ (tout d 2).active = true ∧ (tout d 2).periodic = true)
    ∧ (let d := at0 { resetDev with time := { touts := [(2, { state := 2, dom := 4, next := 65537, active := true })] } };
      timeOf d (tout d 2).dom + 65536 < (tout d 2).next ∧ (tout d 2).periodic = false)
    ∧ (let d := at0 { withRegs [(pg, 0x218, 7)] with time := { loc := 655360, tcapAt := [(1, 0)], tcaps := [(1, [[]])] } };
      rb d pg 0x218 0 = true ∧ rf d pg 0x218 1 2 = 3 ∧ (∀ x, kvGet d.time.tcapAt 1 = some x → x + 655360 ≤ locNow d) ∧ (kvD d.time.tcaps 1 []).length < 8)
    ∧ (let d := at0 { withRegs [(pg, 0x218, 3)] with time := { loc := 655359, tcapAt := [(1, 0)], tcaps := [(1, List.replicate 8 [])] } };
      rb d pg 0x218 0 = true ∧ rf d pg 0x218 1 2 = 1 ∧ kvGet d.time.tcapAt 1 = some 0 ∧ locNow d < 0 + 655360 ∧ 8 ≤ (kvD d.time.tcaps 1 []).length) := by
  intros
  repeat' first
    | decide +kernel | exact accepts_of (by decide +kernel) | exact all_some 0 (by decide +kernel) (by decide +kernel) | apply And.intro

/-- With a signature that verifies (which no concrete one can be shown to do, log 4) the token of `workToken` opens a session. -/
theorem meets_DiagSessionsAct_valid (hv : ∀ k m s, Config.verify 1 k m s = true) :
    let d := opened (at0 (serving workDev 0 0x40 workToken)) 0
    Served (at0 (serving workDev 0 0x40 workToken)) 0 0x40 workToken ∧ workToken.length = 256 ∧ (diagTokenResult workToken d).1 = 0 := by
  intro d
  refine ⟨served_of rfl (by decide +kernel) (by decide +kernel), by decide +kernel, ?_⟩
  unfold diagTokenResult
  have h1 : useSlot d (octetAt workToken 3) 3 [6] = (some (slotValue (slotOf d 9)), (useSlot d 9 3 [6]).2) := by decide +kernel
  dsimp only
  rw [if_neg (by decide +kernel), h1]
  dsimp only
  rw [if_neg (by simp only [tokenSigned, hv]; decide +kernel), if_neg (by decide +kernel), if_neg (by decide +kernel),
    if_neg (by decide +kernel), if_neg (by decide +kernel), if_neg (by decide +kernel), if_neg (by decide +kernel)]

/-! ### Premises that can be met: the vehicle edge -/

/-- A CAN frame of eight octets. -/
def can8 : CanFrame := { id := 0x123, dlc := 8, data := List.replicate 8 7 }

/-- CAN controller 2 runs; its receive FIFO holds n frames of 8 octets, its transmit area the frame `can8` requested at 0. -/
def canDev (n : Nat) (l : List (Page × Nat × Nat)) : Dev :=
  { withRegs (on (canPg 2) ++ l) with
    ferry := { ready := List.replicate n { src := 34, can := some can8 } }, cans := [(2, { tx := [{ f := can8, reqAt := 0 }] })] }

theorem meets_CanFramesAct : can8.ok = true ∧ can8.xlf = false ∧ can8.fdf = false ∧ canBlocks can8 = 2
    ∧ (let d := at0 (canDev 0 []); running d (canPg 2) = true ∧ canState d 2 < 2 ∧ canHasFormat d 2 can8 = true)
    ∧ rxBlocks (canDev 255 []) 2 + 2 = 512 ∧ 512 < rxBlocks (canDev 256 []) 2 + 2
    ∧ running (at0 resetDev) (canPg 2) = false ∧ canState (at0 (canDev 0 [(canPg 2, 0xc0, 0x20000)])) 2 = 2
    ∧ canHasFormat (at0 (canDev 0 [(canPg 2, 0x80, 0)])) 2 { can8 with fdf := true } = false
    ∧ (let d := at0 (canDev 0 []); canCut d 2 0 = false ∧ canOnBus d 2 0 = some { f := can8, reqAt := 0 }
      ∧ tdcFrame d 2 { can8 with esi := can8.fdf && canState d 2 == 1 } = false ∧ rb d (canPg 2) 0x80 4 = false)
    ∧ (let f := { can8 with fdf := true, brs := true }
      let d := at0 { canDev 0 [(canPg 2, 0x90, 2 ^ 40)] with cans := [(2, { tx := [{ f := f, reqAt := 0 }] })] }
      canCut d 2 0 = false ∧ canOnBus d 2 0 = some { f := f, reqAt := 0 } ∧ tdcFrame d 2 { f with esi := f.fdf && canState d 2 == 1 } = true)
    ∧ canCut (at0 resetDev) 2 0 = true
    ∧ rf (at0 (withRegs [(canPg 2, 0xa8, 0)])) (canPg 2) 0xa8 0 16 = 0 ∧ rf (at0 (withRegs [(canPg 2, 0xa8, 1)])) (canPg 2) 0xa8 0 16 ≠ 0 := by
  repeat' first | decide +kernel | apply And.intro

theorem meets_CanErrorsAct : (255 : Nat) < 256
    ∧ (let d := at0 (canDev 0 []); running d (canPg 2) = true ∧ canState d 2 < 2)
    ∧ (let d := at0 (canDev 0 [(canPg 2, 0x80, 4)]); running d (canPg 2) = true ∧ canState d 2 < 2 ∧ rb d (canPg 2) 0x80 2 = true)
    ∧ (let d := at0 (canDev 0 [(canPg 2, 0xc0, 0x20000), (canPg 2, 0x80, 0)]);
      canState d 2 = 2 ∧ Accepts d .scarab (.can 2) ∧ (can d 2).recover = false ∧ rb d (canPg 2) 0x80 5 = false)
    ∧ rb (at0 (canDev 0 [(canPg 2, 0xc0, 0x20000), (canPg 2, 0x80, 0x20)])) (canPg 2) 0x80 5 = true
    ∧ canState (at0 (canDev 0 [(canPg 2, 0xc0, 0x30000)])) 2 = 3 := by
  repeat' first | decide +kernel | exact accepts_of (by decide +kernel) | apply And.intro

/-- LIN channel 3 runs as master (c bit 0) with its schedule on; entry 5 holds w. -/
def linDev (c w : Nat) (x : LinSt) : Dev :=
  { withTbl (withRegs (on (linPg 3) ++ [(linPg 3, 0x80, c), (linPg 3, 0x88, 1)])) [(0x03E06000 + 3 * 0x400 + 5 * 16, w)] with lins := [(3, x)] }

theorem meets_LinActs :
    (let d := at0 (linDev 1 (2 ^ 63 + 0x40 + 7) {}); linMaster d 3 = true ∧ (lin d 3).slotEnd = none ∧ (lin d 3).gosleep = false
      ∧ d.pair.yield = none ∧ rb d (linPg 3) 0x88 0 = true ∧ rb d (linPg 3) 0xa8 0 = false ∧ (lin d 3).resume = none ∧ linSilent d 3 = false
      ∧ linNext d.tbl 3 0 = some 5 ∧ bit (linEntry d.tbl 3 5) 6 = true ∧ Accepts d .scarab (.lin 3)
      ∧ claimGated d = false ∧ domUp d 14 = true)
    ∧ (let d := at0 { linDev 1 (2 ^ 63 + 0x40 + 7) {} with pair := { strapEn := true } }; linMaster d 3 = true ∧ claimGated d = true
      ∧ running d (linPg 3) = true ∧ d.pair.yield = none ∧ linFor d.tbl 3 7 = some (linEntry d.tbl 3 5) ∧ bit (linEntry d.tbl 3 5) 6 = true)
    ∧ (let d := at0 (linDev 1 (2 ^ 63 + 0x40 + 7) { sched := 0, slotEnd := some 1 }); (lin d 3).slotEnd = some 1 ∧ d.now < 1)
    ∧ domUp (at0 (setDomCond resetDev 14 0)) 14 = false
    ∧ (let d := at0 (linDev 1 (2 ^ 63 + 7) {});
      linNext d.tbl 3 0 = some 5 ∧ bit (linEntry d.tbl 3 5) 6 = false ∧ pubValid d 3 (fld (linEntry d.tbl 3 5) 0 6) = false)
    ∧ (let d := at0 (wb (linDev 1 (2 ^ 63 + 7) {}) (linPg 3) 0x600 7 true); pubValid d 3 (fld (linEntry d.tbl 3 5) 0 6) = true ∧ linMaster d 3 = true)
    ∧ (let d := at0 (linDev 1 0 { gosleep := true }); linMaster d 3 = true ∧ (lin d 3).slotEnd = none ∧ (lin d 3).gosleep = true)
    ∧ (let d := at0 (linDev 0 (2 ^ 63 + 0x40 + 7) { hdrFid := some 7 });
      running d (linPg 3) = true ∧ linMaster d 3 = false ∧ rb d (linPg 3) 0x80 29 = false ∧ linFor d.tbl 3 8 = none
      ∧ linFor d.tbl 3 7 = some (linEntry d.tbl 3 5) ∧ bit (linEntry d.tbl 3 5) 6 = true
      ∧ ({ fid := 7, data := [1] } : LinFrame).ok = true ∧ (lin d 3).hdrFid = some 7 ∧ (lin d 3).hdrFid ≠ some 8
      ∧ linSumOk d 3 { fid := 7, data := [1] } = true ∧ linSumOk d 3 { fid := 7, data := [1], enhanced := true } = false
      ∧ (lin d 3).respBy ≤ d.now)
    ∧ (let d := at0 (linDev 0 0 { hdrFid := some 7, respBy := 1 }); d.now < (lin d 3).respBy)
    ∧ (let d := at0 { linDev 1 0 { resume := some 9 } with now := 9 }; (lin d 3).resume = some 9 ∧ 9 ≤ d.now)
    ∧ (let d := at0 { linDev 1 0 { resume := some 9 } with now := 8 }; (lin d 3).resume = some 9 ∧ d.now < 9) := by
  repeat' first | decide +kernel | exact accepts_of (by decide +kernel) | apply And.intro

/-- The Ferry runs and holds this, at period n. -/
def ferryDev (n : Nat) (f : FerrySt) : Dev := { withRegs (on .ferry) with ferry := f, now := n }

/-- Work of CAN channel 2. -/
def work2 : EdgeWork := { id := 1, src := 34, can := some can8 }

theorem meets_FerryActs :
    (let d := at0 (ferryDev (4 * edgeTicks) { lastAt := some 0 });
      running d .ferry = true ∧ domUp d 14 = true ∧ (∀ x, d.ferry.lastAt = some x → x + 4 * edgeTicks ≤ d.now) ∧ ferryTake d = none)
    ∧ (let d := at0 (ferryDev 0 { ready := [work2] }); running d .ferry = true ∧ domUp d 14 = true
      ∧ (ferryTake d).map (·.1) = some work2 ∧ work2.stream = none ∧ work2.can.isSome = true)
    ∧ (let v : Verdicts := { work := work2, carry := false, fwd := [], epoch := 0, at0 := 0 }
      (at0 (ferryDev 30 { back := [v] })).ferry.back = [v] ∧ v.at0 + 30 ≤ (at0 (ferryDev 30 { back := [v] })).now
      ∧ v.fwd = [] ∧ (at0 (ferryDev 29 { back := [v] })).now < v.at0 + 30)
    ∧ (let v : Verdicts := { work := work2, carry := false, fwd := [35], epoch := 0, at0 := 0 }
      let d := at0 (withTbl (ferryDev 30 { back := [v] }) [(0x03E00000 + 5 * 32, 2 ^ 63 + 34 * 2 ^ 32 + 0x123)])
      let p := ferryPlan (setFerry d fun f => { f with back := [] }) (viewOf (setFerry d fun f => { f with back := [] }) 0) v.work
      d.ferry.back = [v] ∧ v.at0 + 30 ≤ d.now ∧ v.fwd ≠ [] ∧ v.work.late = false ∧ p.route = some 5 ∧ p.stream = none)
    ∧ (let x : Window := { epoch := 0, fgen := 0, opened := 1, msgs := [] }
      let y : Window := { epoch := 0, fgen := 0, opened := 0, msgs := [{ work := 1, src := 34, octets := [], ports := [4] }] }
      let d := at0 (ferryDev 0 { windows := [(0, x), (1, y)] });
      kvGet d.ferry.windows 0 = some x ∧ locNow d < x.opened + windowUs (viewOf d x.epoch).tbl 0 * 65536000
      ∧ kvGet d.ferry.windows 1 = some y ∧ y.opened + windowUs (viewOf d y.epoch).tbl 1 * 65536000 ≤ locNow d ∧ y.msgs ≠ [] ∧ x.msgs = [])
    ∧ (let d := at0 { ferryDev 0 {} with ferryIn := [copy4] }; d.ferryIn = [copy4] ∧ running d .ferry = true)
    ∧ (can (at0 resetDev) 2).lastRx = none ∧ (can (at0 { resetDev with cans := [(2, { lastRx := some work2 })] }) 2).lastRx = some work2
    ∧ (let d := at0 (ferryDev (10 * usTicks + 1) { ready := [work2] });
      running d .ferry = true ∧ ∃ w ∈ d.ferry.ready, w.ready + 10 * usTicks < d.now)
    ∧ (let d := at0 (ferryDev (10 * usTicks) { ready := [work2], carriers := [[work2]] });
      (∀ w ∈ d.ferry.ready, d.now ≤ w.ready + 10 * usTicks) ∧ ∀ l ∈ d.ferry.carriers, ∀ w ∈ l, d.now ≤ w.ready + 10 * usTicks) := by
  repeat' first | decide +kernel | exact all_some 0 (by decide +kernel) (by decide +kernel) | apply And.intro

/-- The witness engine runs and holds this; comparator 0 compares signal 1 with signal 2 and tolerates a deviation of 1. -/
def xweDev (x : XweSt) (l : List (Page × Nat × Nat)) : Dev :=
  { withRegs (on .xwe ++ [(.xwe, 0x100, 0x30201 * 256), (.xwe, 0x108, 2 ^ 24), (.xwe, 0x110, 2 ^ 32 * 4095 + 2 ^ 8)] ++ l) with xwe := x }

theorem meets_WitnessEngineActs : let tp : Tap := { wtag := 0, verdict := 0, src := 4 }
    (at0 resetDev).xwe.fifo = [] ∧ running (at0 resetDev) .xwe = false ∧ (at0 (xweDev { busyTo := 1 } [])).now < 1
    ∧ (let d := at0 (xweDev { fifo := [tp] } []); d.xwe.fifo = [tp] ∧ running d .xwe = true ∧ d.xwe.busyTo ≤ d.now)
    ∧ domOn (at0 (xweDev {} [])) 1 = false
    ∧ (let d := at0 (xweDev {} [(.xwe, 0x80, 1)]);
      af d .xwe 0x80 0 10 * 65536000000 ≠ 0 ∧ running d .xwe = true ∧ domOn d 4 = true ∧ kvGet d.xwe.lastTick 4 = none)
    ∧ (let d := at0 (xweDev { lastTick := [(4, 0)] } [(.xwe, 0x80, 1)]); let per := af d .xwe 0x80 0 10 * 65536000000
      kvGet d.xwe.lastTick 4 = some 0 ∧ timeOf d 4 / per * per ≤ 0)
    ∧ (let e := xweDev { sigs := [(2, { has := true, val := 4 * 65536 }), (1, { has := true, val := 2 * 65536 })], cmps := [(0, { state := 1, onset := some 0 })] } []
      let vw := curView e
      (cmpCond e vw 0 1).rcDev = some (4 * 65536, -(2 * 65536)) ∧ (kvD e.xwe.cmps 0 {}).state = 1 ∧ (kvD e.xwe.cmps 0 {}).onset = some 0
      ∧ (fld (cmpReg e vw 0 2) 0 24 : Int) * 256 + (fld (cmpReg e vw 0 2) 24 8 : Int) * 262144 / 256 < 131072
      ∧ fld (cmpReg e vw 0 2) 44 12 * 655360000000 < 1 - 0) := by
  intros
  repeat' first | decide +kernel | apply And.intro

/-! ### Premises that can be met: wake, network management, power -/

theorem meets_WakeSourcesAct : let pg : Page := .buoy 0
    (let d := at0 (withRegs [(pg, 0x108, 2 ^ 20 + 50 * 2 ^ 12)]); let c := ac d pg (0x100 + 1 * 8)
      bit c 20 = true ∧ bit c 2 = false ∧ fld c 12 8 = 50)
    ∧ bit (ac (at0 (withRegs [(pg, 0x108, 0)])) pg 0x108) 20 = false
    ∧ (let d := at0 (withRegs [(pg, 0x108, 2 ^ 20 + 4)]); let c := ac d pg 0x108
      bit c 20 = true ∧ bit c 2 = true ∧ bit c 3 = false ∧ (Decoded.valid can8).ok = true ∧ can8.fdf = false ∧ can8.xlf = false)
    ∧ (let d := at0 { withRegs [(pg, 0x108, 2 ^ 20 + 4 + 8 + 3 * 16)] with buoy := { fec := [(1, 3)] } }; let c := ac d pg 0x108
      bit c 3 = true ∧ fld c 4 8 = 3 ∧ kvD d.buoy.fec 1 0 = 3 ∧ kvD d.buoy.fec 2 0 + 1 ≤ 3)
    ∧ (let d := at0 (withRegs [(pg, 0x1c8, 2 ^ 16 + 150)]); let c := ac d pg (0x1c0 + 1 * 8)
      bit c 16 = true ∧ fld c 0 13 = 150)
    ∧ (let d := at0 (withRegs [(pg, 0x240, 1)]); ab d pg 0x240 0 = true ∧ running d (phyPage 4) = false)
    ∧ ab (at0 resetDev) pg 0x240 0 = false
    ∧ (let d := at0 (withRegs [(pg, 0x210, 1)]); ab d pg (0x200 + 2 * 8) 0 = true ∧ d.buoy.pins.contains 2 = false)
    ∧ (let d := at0 { withRegs [(pg, 0x210, 1)] with buoy := { pins := [2] } }; ab d pg 0x210 0 = true ∧ d.buoy.pins.contains 2 = true) := by
  intros
  repeat' first | decide +kernel | apply And.intro

/-- Cluster 1 is valid with its three times 1,000 ms and these bits of word 0, and holds c, at period n; NM_LOCAL is l. -/
def nmDev (w l n : Nat) (c : Cluster) : Dev :=
  { withRegs [(.buoy 3, 0xa0, 1 + w), (.buoy 3, 0xa8, 1), (.buoy 3, 0xb0, 1000 * (2 ^ 32 + 2 ^ 16 + 1)), (.buoy 0, 0x400, l)] with
    buoy := { cl := [(1, c)] }, now := n }

/-- The same cluster in state s at period n, with a keep-alive of instant 0 that waits. -/
def kaDev (w s n : Nat) : Dev := let d := nmDev w 0 n { state := s }; { d with buoy := { d.buoy with kaDue := [(1, 0)] } }

/-- The device that has taken that keep-alive. -/
def kaTaken (d : Dev) : Dev := setBuoy d fun b => { b with kaDue := kvDel b.kaDue 1 }

/-- And restarted the timer of its cluster. -/
def kaRestarted (d : Dev) : Dev := setClus (kaTaken d) 1 fun c => { c with lastKa := some (kaTaken d).now, timer := (kaTaken d).now }

/-- The latest period at which a time of 1,000 ms that began at 0 has not passed for NM (R288: less 1 %, on ticks of 1 ms). -/
def nmLast : Nat := 1000 * 1584000 - msTicks - 1

theorem meets_NetworkManagementActs : Accepts (at0 resetDev) .scarab (.buoy 0) ∧ kvGet (at0 resetDev).buoy.kaDue 1 = none
    ∧ (let d := at0 (kaDev 0 1 298); kvGet d.buoy.kaDue 1 = some 0 ∧ d.now < 0 + 299)
    ∧ (let d := at0 { kaDev 0 1 299 with act := [] }; kvGet d.buoy.kaDue 1 = some 0 ∧ 0 + 299 ≤ d.now ∧ clValid (kaTaken d) 1 = false)
    ∧ (let d := at0 (kaDev 0x50002 1 299); kvGet d.buoy.kaDue 1 = some 0 ∧ 0 + 299 ≤ d.now ∧ clValid (kaTaken d) 1 = true
      ∧ (kaRestarted d).pwr.entry = none ∧ (clus d 1).state = 1)
    ∧ (let d := at0 (kaDev 0x50002 2 299); clValid (kaTaken d) 1 = true ∧ (clus d 1).state = 2 ∧ (clAwake (kaRestarted d) 1).pwr.entry = none)
    ∧ (let d := at0 (kaDev 0x50002 3 299); clValid (kaTaken d) 1 = true ∧ (clus d 1).state = 3 ∧ (clus d 1).ponr = none
      ∧ (clAwake (clCancel (kaRestarted d) 1) 1).pwr.entry = none)
    ∧ (let d := at0 (nmDev 0x50002 0 (nmLast + 1) { state := 1 });
      (clus d 1).state = 1 ∧ localNeed d 1 = false ∧ timerOut d (clus d 1).timer (fld (clWord d 1 2) 0 16) = true)
    ∧ (let d := at0 (nmDev 0x50002 0 nmLast { state := 1 }); (clus d 1).state = 1 ∧ timerOut d (clus d 1).timer (fld (clWord d 1 2) 0 16) = false)
    ∧ (let d := at0 (nmDev 0x50002 0 (nmLast + 1) { state := 2 }); (clus d 1).state = 2 ∧ timerOut d (clus d 1).entered (fld (clWord d 1 2) 16 16) = true)
    ∧ (let d := at0 (nmDev 0x50002 0 nmLast { state := 2 }); (clus d 1).state = 2 ∧ timerOut d (clus d 1).entered (fld (clWord d 1 2) 16 16) = false)
    ∧ (let d := at0 (nmDev 0x50002 0 (nmLast + 1) { state := 5 });
      (clus d 1).state = 5 ∧ timerOut d (clus d 1).entered (fld (clWord d 1 2) 32 16) = true ∧ (clus d 1).woken = none)
    ∧ (let d := at0 (nmDev 0 0 495 { state := 3 }); sleepFrom d 1 + 495 ≤ d.now ∧ clValid d 1 = true ∧ (clus d 1).state = 3 ∧ (clus d 1).ponr = none ∧ (clCan d 1).isSome = true
      ∧ ((clLins d 1).all fun l => !domUp d 14 || !linMaster d l || rb d (linPg l) 0xa8 0) = true)
    ∧ (let d := at0 (nmDev 0 0 494 { state := 3 }); d.now < sleepFrom d 1 + 495 ∧ clValid d 1 = true ∧ (clCan d 1).isSome = true)
    ∧ (let d := at0 (nmDev 0x50002 0 (af resetDev (.buoy 0) 0x80 8 8 * usTicks) { state := 3, ponr := some 0 });
      (clus d 1).state = 3 ∧ (clus d 1).ponr = some 0 ∧ 0 + af d (.buoy 0) 0x80 8 8 * usTicks = d.now ∧ (clus d 1).latch = none ∧ clCan d 1 = none)
    ∧ (let d := at0 (nmDev 0x50002 0 (af resetDev (.buoy 0) 0x80 8 8 * usTicks - 1) { state := 3, ponr := some 0 });
      (clus d 1).ponr = some 0 ∧ d.now < 0 + af d (.buoy 0) 0x80 8 8 * usTicks) := by
  repeat' first | decide +kernel | exact accepts_of (by decide +kernel) | apply And.intro

theorem meets_KeeperActs : let pg : Page := .buoy 0
    (let d := at0 { withRegs [(pg, 0x280, 1)] with buoy := { kicked := true } };
      Accepts d .scarab pg ∧ masterCode .scarab = keeperMaster d ∧ d.buoy.kicked = true ∧ rb d pg 0x280 0 = true)
    ∧ (let d := at0 { withRegs [(pg, 0x280, 1)] with buoy := { kicked := true }, now := 99 * msTicks };
      d.buoy.keepAt + 99 * msTicks ≤ d.now ∧ d.buoy.kicked = true ∧ rb d pg 0x280 0 = true ∧ rb d pg 0x288 3 = false)
    ∧ (at0 { resetDev with now := 99 * msTicks - 1 }).now < 0 + 99 * msTicks
    ∧ (let d := at0 (withRegs [(pg, 0x280, 0x11)]); Accepts d .scarab pg ∧ masterCode .scarab ≠ keeperMaster d)
    ∧ (let d := at0 { withRegs [(pg, 0x280, 1), (pg, 0x288, 1)] with now := 99 * msTicks };
      d.buoy.kicked = false ∧ rf d pg 0x288 0 2 ≠ 2 ∧ rb d pg 0x280 0 = true ∧ d.buoy.keepAt + 99 * msTicks ≤ d.now)
    ∧ (let d := at0 { withRegs [(pg, 0x280, 1), (pg, 0x288, 2)] with now := 99 * msTicks }; d.buoy.kicked = false ∧ rf d pg 0x288 0 2 = 2 ∧ rb d pg 0x288 3 = false)
    ∧ rb (at0 resetDev) pg 0x280 0 = false := by
  intros
  repeat' first | decide +kernel | exact accepts_of (by decide +kernel) | apply And.intro

/-- PWR_CTRL allows state s and up; a cluster sleeps; debug is closed; period n, and the power manager holds x. -/
def pwrDev (s n : Nat) (x : PwrSt) : Dev :=
  { withRegs [(.pwr, 0x80, s + 2 ^ 16), (.buoy 3, 0xa0, 1), (.dbg, 0x80, 0)] with
    now := n, buoy := { cl := [(1, { state := 4 })] }, pwr := x }

theorem meets_QuayGatingActs :
    (let d := at0 (pwrDev 1 usTicks {}); d.fcn.safe = false ∧ (quay d 2).isoAt = none ∧ pwrTarget d ≠ 0 ∧ domCond d 7 = 1
      ∧ p1Idle d 2 = true ∧ ∀ y, kvGet d.pwr.idle1 2 = some y → y + usTicks ≤ d.now)
    ∧ pwrTarget (at0 (pwrDev 0 0 {})) = 0 ∧ pwrTarget (at0 (pwrDev 1 0 {})) < 2
    ∧ (let d := at0 (pwrDev 2 usTicks {}); 2 ≤ pwrTarget d ∧ domUp d 7 = true ∧ p2Idle d 2 = true
      ∧ ∀ y, kvGet d.pwr.idle2 2 = some y → y + max 1 (rf d .pwr 0x80 16 16) * usTicks ≤ d.now)
    ∧ (let d := at0 (setDomCond (pwrDev 0 0 {}) 7 2); pwrState d < 3 ∧ domCond d 7 = 2 ∧ (quay d 2).restore = none)
    ∧ (let d := at0 { setDomCond (pwrDev 0 640 {}) 7 2 with quays := [(2, { restore := some (0, 2) })] };
      (quay d 2).restore = some (0, 2) ∧ 0 + 640 ≤ d.now ∧ ¬ (domCond d 7 = 3 ∧ pwrTarget d = 1 ∧ p1Idle d 2 = true))
    ∧ (let d := at0 { setDomCond (pwrDev 0 (48 * usTicks - 1) {}) 7 3 with quays := [(2, { restore := some (0, 3) })] };
      (quay d 2).restore = some (0, 3) ∧ d.now < 0 + 48 * usTicks) := by
  repeat' first
    | decide +kernel | exact all_some 0 (by decide +kernel) (by decide +kernel) | apply And.intro

theorem meets_DeepStatesAct :
    (let d := at0 (pwrDev 3 0 { deepAt := some 0 }); halted d = false ∧ pwrState d < 3 ∧ d.pwr.entry = none ∧ pwrTarget d = 3
      ∧ d.pwr.deepAt = some 0 ∧ 0 + rf d .pwr 0x80 32 16 * msTicks ≤ d.now)
    ∧ (let d := at0 { pwrDev 4 0 { deepAt4 := some 0 } with regs := kvPut (pwrDev 4 0 {}).regs (Page.pwr.base + 0x80) (BitVec.ofNat 64 (2 ^ 32 + 4)) };
      pwrTarget d = 4 ∧ d.pwr.deepAt4 = some 0 ∧ d.now < 0 + rf d .pwr 0x80 32 16 * msTicks)
    ∧ (let d := at0 (withRegs [(.pwr, 0x88, 3), (.pwr, 0x80, 8)]); rb d .pwr 0x80 3 = true ∧ pwrState d = 3)
    ∧ rb (at0 (withRegs [(.pwr, 0x80, 0)])) .pwr 0x80 3 = false
    ∧ (let d := at0 (pwrDev 3 (130 * usTicks) { entry := some (3, 0) });
      d.pwr.entry = some (3, 0) ∧ d.pwr.latched = none ∧ halted d = false ∧ ponrAt 3 0 ≤ d.now ∧ resyncing d = false ∧ d.scarab.digFrom ≤ d.now)
    ∧ (let d := at0 (pwrDev 4 (1610 * usTicks) { entry := some (4, 0) });
      d.pwr.entry = some (4, 0) ∧ d.pwr.latched = none ∧ halted d = false ∧ ponrAt 4 0 ≤ d.now)
    ∧ (at0 resetDev).pwr.entry = none ∧ (at0 resetDev).pwr.exit = none
    ∧ (let d := at0 { withRegs [(.pwr, 0x88, 3)] with pwr := { exit := some (true, 2), exitStep := (exitTimes 3).length }, boot := { due := false } };
      d.pwr.exit = some (true, 2) ∧ halted d = false ∧ 3 ≤ pwrState d ∧ (exitTimes (pwrState d)).length ≤ d.pwr.exitStep)
    ∧ (let d := at0 { withRegs [(.pwr, 0x88, 3)] with pwr := { exit := some (true, 2) }, boot := { due := false } };
      d.pwr.exitStep < (exitTimes (pwrState d)).length)
    ∧ (let d := at0 (withRegs [(.pwr, 0x88, 3), (.pwr, 0x80, 8)]); halted d = false ∧ d.pwr.entry = none ∧ d.pwr.exit = none) := by
  repeat' first | decide +kernel | apply And.intro

/-! ### Premises that can be met: the host side -/

/-- Queue pair 1 of port H holds x; port H takes frames where r says so; `sig` periods of coalescing have passed. -/
def hqDev (n : Nat) (r : Bool) (x : HostQ) : Dev :=
  let d := withRegs (if r then on (macPage 26) ++ [(macPage 26, 0x80, 1)] else [])
  setHostQ { hqPut d with now := n } 1 x
where
  /-- COAL_US = 3 on the RX ring. -/
  hqPut (d : Dev) : Dev := wr d (hqPage 1) (hqOff 1 true + 8) (BitVec.ofNat 64 (3 * 2 ^ 32))

theorem meets_FrameQueuesAct :
    let q : QueueRef := { portC := false, q := 15 }
    let c : QueueRef := { portC := true, q := 7 }
    let w : QueueRef := { portC := false, q := 1 }
    (q.ok = true ∧ q.portC = false ∧ (at0 resetDev).fcn.safe = false ∧ pwrState (at0 resetDev) < 3 ∧ (at0 resetDev).pwr.entry = none)
    ∧ (c.ok = true ∧ c.portC = true ∧ Accepts (at0 resetDev) .scarab (.scarab 1) ∧ Accepts (at0 resetDev) .scarab (hqPage (QueueRef.idx c))
      ∧ Accepts (at0 resetDev) .host (hqPage (QueueRef.idx q)))
    ∧ (w.ok = true ∧ QueueRef.idx w = 1)
    ∧ (hostQ (at0 (hqDev 0 true { phase := 1 })) 1).phase ≠ 2 ∧ (hostQ (at0 (hqDev 0 true { phase := 1 })) 1).phase ≠ 0
    ∧ (let d := at0 (hqDev 0 true { phase := 2, descs := [[0, 64]] }); let h := hostQ d 1
      h.phase = 2 ∧ (h.data ++ List.replicate 63 0).length < descLen h.descs ∧ descLen h.descs ≤ (h.data ++ List.replicate 64 0).length
      ∧ bit ((h.descs.headD []).getD 1 0) 18 = false ∧ bit ((h.descs.headD []).getD 1 0) 17 = false ∧ rxAccepts d 26 = true)
    ∧ rxAccepts (at0 (hqDev 0 false { phase := 2, descs := [[0, 64]] })) 26 = false
    ∧ (let d := at0 (hqDev (3 * usTicks) true { sigRx := 1 });
      (hostQ d 1).sigRx ≠ 0 ∧ (hostQ d 1).sigRxAt + fld (hqCfg d 1 true) 32 16 * usTicks = d.now)
    ∧ (let d := at0 (hqDev (3 * usTicks - 1) true { sigRx := 1 });
      (hostQ d 1).sigRx ≠ 0 ∧ d.now < (hostQ d 1).sigRxAt + fld (hqCfg d 1 true) 32 16 * usTicks) := by
  intros
  repeat' first | decide +kernel | exact accepts_of (by decide +kernel) | apply And.intro

theorem tag_length (key l : List Byte) : (inbTag key l).length = 16 := by
  simp [inbTag, gmac, cryptoN, fitLen]; omega

/-- In-band management enabled as e says, with a key in its slot and epoch 0. -/
def inbDev (e : Nat) : Dev :=
  let d := serving (withRegs [(.mbox 0, 0x88, e)]) 3 1 []
  { d with car := { slots := [(inbSlot d, { attr := BitVec.ofNat 64 (2 ^ 12 + 12) })] } }

/-- A read request of one word at 0 with counter 1, to which its tag is appended. -/
def inbBody (epoch : Nat) : List Byte := [1, 1, 0, 1] ++ beBytes 4 epoch ++ beBytes 4 1 ++ List.replicate 8 0

theorem meets_SerialManagementActs :
    (octetAt [0x0B, 0, 0, 0, 0] 0 = 0x0B ∧ octetAt [2] 0 = 2 ∧ spiOn (at0 (withRegs [(.host 0, 0x88, 1)])) = true)
    ∧ (let body : List Byte := [2, 0, 0, 0, 0x10] ++ List.replicate 8 1
      (body ++ [BitVec.ofNat 8 (crc8 body)]).length = 14
      ∧ crc8 ((body ++ [BitVec.ofNat 8 (crc8 body)]).take 13) = octetAt (body ++ [BitVec.ofNat 8 (crc8 body)]) 13
      ∧ crc8 body ≠ octetAt (body ++ [BitVec.ofNat 8 (crc8 body + 1)]) 13)
    ∧ firmwareRuns (at0 (inbDev 1)) = true ∧ inbKey (at0 (serving resetDev 3 1 [])) = none
    ∧ (∀ key, inbTag key (([] : List Byte).take (0 - 16)) ≠ ([] : List Byte).drop (0 - 16))
    ∧ (inbKey (at0 (inbDev 1))).isSome = true ∧ (at0 (inbDev 1)).host.inbEpoch = 0 ∧ (at0 (inbDev 1)).host.inbLast = none
    ∧ rb (at0 (inbDev 1)) (.mbox 0) 0x88 0 = true ∧ rb (at0 (inbDev 0)) (.mbox 0) 0x88 0 = false
    ∧ (inbReads [] 1 0 (at0 (inbDev 1))).1.isSome = true := by
  refine ⟨by decide +kernel, by decide +kernel, by decide +kernel, by decide +kernel, ?_, by decide +kernel, by decide +kernel,
    by decide +kernel, by decide +kernel, by decide +kernel, by decide +kernel⟩
  intro key h
  have := congrArg List.length h
  rw [tag_length] at this
  simp at this

theorem meets_SerialManagementActs_tagged (key : List Byte) :
    let l := fun e => inbBody e ++ inbTag key (inbBody e)
    (∀ e, inbTag key ((l e).take ((l e).length - 16)) = (l e).drop ((l e).length - 16) ∧ (l e).length = 36)
    ∧ octetAt (l 0) 0 = 1 ∧ octetAt (l 0) 1 = 1 ∧ beNat (slice (l 0) 2 2) = 1 ∧ beNat (slice (l 0) 4 4) = 0
    ∧ octetAt (l 1) 0 = 1 ∧ octetAt (l 1) 1 = 1 ∧ beNat (slice (l 1) 2 2) = 1 ∧ beNat (slice (l 1) 4 4) = 1 := by
  intro l
  have hb : ∀ e, (inbBody e).length = 20 := fun e => by simp [inbBody, beBytes, leBytes]
  have hl : ∀ e, (l e).length = 36 := fun e => by simp [l, hb, tag_length]
  refine ⟨fun e => ⟨?_, hl e⟩, rfl, rfl, rfl, rfl, rfl, rfl, rfl, rfl⟩
  rw [hl, show 36 - 16 = (inbBody e).length by simp [hb]]
  simp [l]

theorem meets_MailboxActs : let pg : Page := mboxPg 2
    Accepts (at0 resetDev) .scarab pg ∧ (at0 resetDev |> (mbox · 2)).req.length + 8 ≤ 8192 ∧ mboxState (at0 resetDev) 2 = 0
    ∧ masterCode .scarab = mboxMaster 2 ∧ masterCode .app ≠ mboxMaster 2
    ∧ (let d := at0 (setMbox resetDev 2 { req := List.replicate 8184 0 }); (mbox d 2).req.length + 8 = 8192)
    ∧ (let d := at0 (setMbox resetDev 2 { req := List.replicate 8192 0 }); 8192 < (mbox d 2).req.length + 8)
    ∧ mboxState (at0 (withRegs [(pg, 0x88, 1)])) 2 ≠ 0
    ∧ Served (at0 (serving resetDev 2 1 [])) 2 1 [] := by
  intros
  repeat' first | decide +kernel | exact accepts_of (by decide +kernel) | exact served_of rfl (by decide +kernel) (by decide +kernel) | apply And.intro

/-- Lighter channel 5 with these words (offset, word) while the Lighter runs. -/
def ltDev (l : List (Nat × Nat)) : Dev :=
  l.foldl (fun d e => ltWr d 5 e.1 (BitVec.ofNat 64 e.2)) (withRegs (on (.lighter 0)))

/-- A configuration: 1 request line cycle, line 0, bursts of one word. -/
def ltCfg : Nat := 1 + 2 ^ 16

theorem meets_LighterActs : let l2 := 2 * 2 ^ 60; let l1 := 2 ^ 60
    (Accepts (at0 resetDev) .scarab (ltPg 5) ∧ ltArmed (at0 resetDev) 5 = false ∧ ltArmed (at0 (ltDev [(0x28, 0x40)])) 5 = true
      ∧ ltState (at0 (ltDev [(0x28, 1)])) 5 = 1 ∧ ltState (at0 (ltDev [(0x28, 0x1e)])) 5 = 2 ∧ ltResult (at0 (ltDev [(0x28, 0x1e)])) 5 = 7
      ∧ ltState (at0 resetDev) 5 ≠ 2 ∧ ltState (at0 (ltDev [(0x28, 1)])) 5 ≠ 0)
    ∧ (let d := at0 (ltDev [(0x28, 0x40)]); running d (.lighter 0) = true ∧ ltState d 5 = 0 ∧ ltArmed d 5 = true ∧ (ltRd d 5 0x50).toNat = 0)
    ∧ (let d := at0 (ltDev [(0x28, 0x40), (0x40, l2), (0x48, l1), (0x50, 8), (0x58, ltCfg)]);
      (ltRd d 5 0x50).toNat = 8 ∧ ltRangeOk (ltRd d 5 0x40).toNat 8 (bit (ltRd d 5 0x58) 14) = true
      ∧ ltRangeOk (ltRd d 5 0x48).toNat 8 (bit (ltRd d 5 0x58) 15) = true ∧ ltCfgOk (ltRd d 5 0x58) = true)
    ∧ ltGrant (at0 resetDev) ≠ some 5
    ∧ (let d := at0 (ltDev [(0x28, 1), (0, l2), (8, l1), (0x10, 8), (0x18, ltCfg)]);
      ltGrant d = some 5 ∧ ltHostReady d (ltRd d 5 0).toNat = true ∧ ltHostReady d (ltRd d 5 8).toNat = true ∧ ltBurstLen d 5 = 8
      ∧ (ltFetch [] d .scarab (ltRd d 5 0).toNat 8 false none).1 = some (List.replicate 8 0)
      ∧ (ltStore [] d .scarab (ltRd d 5 8).toNat 8 false (List.replicate 8 0)).1 = some ()
      ∧ (ltFetch [] d .scarab (2 ^ 60 * 2 + 2 ^ 40) 8 false none).1 = none ∧ (ltStore [] d .scarab (2 ^ 60 + 2 ^ 40) 8 false (List.replicate 8 0)).1 = none) := by
  intros
  repeat' first | decide +kernel | exact accepts_of (by decide +kernel) | apply And.intro

/-! ### Premises that can be met: security, the Scarab, faults -/

/-- A command of Carapace for slot 9 that runs. -/
def carCmd9 (op : Nat) (attr : Nat) : CarCmd := { op := op, slot := 9, attr := BitVec.ofNat 64 attr, data := [], out := [], master := 0 }

/-- Slots 0 and 1 hold the device keys that attestation uses. -/
def attestSlots : List (Nat × KeySlot) := [(0, { attr := BitVec.ofNat 64 (4 * 2 ^ 12 + 4) }), (1, { attr := BitVec.ofNat 64 (7 * 2 ^ 12 + 4) })]

theorem meets_KeyCommandsAct_commands :
    Accepts (at0 resetDev) .scarab .carapace ∧ rb (at0 resetDev) .carapace 0x100 63 = false
    ∧ Accepts (at0 (withRegs [(.carapace, 0x100, 2 ^ 63)])) .scarab .carapace ∧ rb (at0 (withRegs [(.carapace, 0x100, 2 ^ 63)])) .carapace 0x100 63 = true
    ∧ (at0 resetDev).car.cmd = none ∧ (at0 { resetDev with car := { cmd := some (carCmd9 3 0) } }).car.cmd = some (carCmd9 3 0)
    ∧ (carCmd9 3 0).slot = 9 ∧ badAttr 0 = true ∧ badAttr (carCmd9 1 0x1000).attr = false ∧ bit (carCmd9 1 0x1000).attr 10 = false
    ∧ goodValue (ktypeOf (carCmd9 1 0x1000).attr) [] = true ∧ trngOk (at0 (withRegs [(.carapace, 0x80, 0x40)])) = true
    ∧ ktypeOf (carCmd9 2 0x1000).attr ≠ 5 ∧ ktypeOf (carCmd9 2 0x1000).attr ≠ 6
    ∧ ktypeOf (slotOf (at0 resetDev) 9).attr = 0
    ∧ (let d := at0 { resetDev with car := { slots := [(9, { attr := 0x1000 })] } };
      ktypeOf (slotOf d 9).attr ≠ 0 ∧ bit (slotOf d 9).attr 7 = false ∧ bit (slotOf d 9).attr 24 = false)
    ∧ (at0 { resetDev with car := { trngStop := true } }).car.trngStop = true
    ∧ (at0 { resetDev with car := { draws := 2 ^ 20 } }).car.draws = 2 ^ 20 * ((at0 resetDev).car.reseeds + 1)
    ∧ (at0 resetDev).car.draws < 2 ^ 20 * ((at0 resetDev).car.reseeds + 1)
    ∧ (let d := at0 { resetDev with car := { recheckAt := [(5, 0)] }, now := 100 * msTicks };
      ∀ x, kvGet d.car.recheckAt 5 = some x → x + 100 * msTicks ≤ d.now)
    ∧ (let d := at0 { resetDev with car := { recheckAt := [(5, 0)] }, now := 100 * msTicks - 1 };
      kvGet d.car.recheckAt 5 = some 0 ∧ d.now < 0 + 100 * msTicks)
    ∧ (let d := withTbl resetDev [(saAddr 3, 2 ^ 63 + 5 * 2 ^ 56 + 9 * 2 ^ 44)]; let w := trd d (saAddr 3)
      bit w 63 = true ∧ fld w 56 6 = 5 ∧ slotUsable d (fld w 44 8) 0 (if fld w 52 2 % 2 = 0 then [1] else [2]) = false) := by
  repeat' first
    | decide +kernel | exact accepts_of (by decide +kernel) | exact all_some 0 (by decide +kernel) (by decide +kernel) | apply And.intro

/-- A KEY_GENERATE payload for slot s with attributes of an AES-128 key. -/
def genMsg (s : Nat) : List Byte := leBytes 8 s ++ leBytes 8 0x1000

theorem meets_KeyCommandsAct_messages :
    (let p := List.replicate 80 0; Served (at0 (serving resetDev 0 0x10 p)) 0 0x10 p ∧ privileged (at0 (serving resetDev 0 0x10 p)) 0 0 = true
      ∧ p.length = 80)
    ∧ (Served (at0 (serving resetDev 3 0x11 (genMsg 7))) 3 0x11 (genMsg 7) ∧ octetAt (genMsg 7) 0 = 7 ∧ (genMsg 7).length = 16)
    ∧ (let d := at0 (serving (withRegs [(.carapace, 0x80, 0x40)]) 3 0x11 (genMsg 8));
      Served d 3 0x11 (genMsg 8) ∧ (keyGenOp (opened d 3) 1 8 0x1000).1 = 0
      ∧ pubLen (ktypeOf (slotOf (keyGenOp (opened d 3) 1 8 0x1000).2 8).attr) = 0)
    ∧ (let p := List.replicate 40 0
      let d := at0 { serving (withRegs [(.carapace, 0x80, 8)]) 1 0x13 p with car := { slots := attestSlots } };
      Served d 1 0x13 p ∧ rootPresent (opened d 1) = true ∧ (attestSign (opened d 1) [] true).1.isSome = true)
    ∧ (let p := List.replicate 40 0
      let d := at0 (serving (withRegs [(.carapace, 0x80, 8)]) 1 0x13 p);
      Served d 1 0x13 p ∧ rootPresent (opened d 1) = true ∧ (attestSign (opened d 1) [] true).1 = none)
    ∧ (let p : List Byte := 1 :: List.replicate 39 0
      let d := at0 { serving (withRegs [(.carapace, 0x80, 8)]) 1 0x12 p with car := { slots := attestSlots } };
      Served d 1 0x12 p ∧ rootPresent (opened d 1) = true ∧ ktypeOf (slotOf (opened d 1) (octetAt p 0)).attr ≠ 0
      ∧ bit (slotOf (opened d 1) (octetAt p 0)).attr 24 = false ∧ (attestSign (opened d 1) [] false).1.isSome = true)
    ∧ (let p := List.replicate 40 0
      Served (at0 (serving resetDev 1 0x12 p)) 1 0x12 p ∧ Served (at0 (serving resetDev 1 0x13 p)) 1 0x13 p
      ∧ rootPresent (opened (at0 (serving resetDev 1 0x12 p)) 1) = false) := by
  repeat' first | decide +kernel | exact accepts_of (by decide +kernel) | exact served_of rfl (by decide +kernel) (by decide +kernel) | apply And.intro

/-- A life-cycle token from LC_TEST to LC_SCRAP, for this device, with a nonce of zeros. -/
def scrapToken : List Byte := [2, 0, 1, 5, 0, 0, 0, 0] ++ List.replicate 16 0 ++ wordBytes serialWord ++ List.replicate 224 0

theorem meets_EvidenceAndLifeCycleAct :
    (Accepts (at0 resetDev) .scarab .manifest ∧ subTypeOk (fld (rd (at0 resetDev) .manifest 0xb0) 0 16) = false
      ∧ subTypeOk (fld (rd (at0 (withRegs [(.manifest, 0xb0, 0xD)])) .manifest 0xb0) 0 16) = true
      ∧ (at0 resetDev).man.signing = none ∧ (at0 resetDev).man.sealDue = none ∧ (at0 resetDev).man.refused = 0
      ∧ (at0 resetDev).man.staging.all (fun r => r.type != 0xF0) = true ∧ (at0 resetDev).man.sinceSeal + (at0 resetDev).man.staging.length < 64)
    ∧ (let r : ManRec := { type := 2, source := 0, body := [] }; let x : ManRec := { type := 0xF0, source := 0, body := [1, 0] };
      domUp (at0 resetDev) 2 = true ∧ (at0 { resetDev with man := { staging := [r] } }).man.staging = [r] ∧ r.type ≠ 0xF0
      ∧ (at0 { resetDev with man := { staging := [x] } }).man.staging = [x] ∧ x.type = 0xF0 ∧ octetAt x.body 1 = 0)
    ∧ (at0 { resetDev with man := { signing := some 0 } }).man.signing = some 0
    ∧ Served (at0 (serving resetDev 0 0x60 [])) 0 0x60 []
    ∧ (let p := fun n : Nat => List.replicate 4 (0 : Byte) ++ leBytes 2 n ++ List.replicate 6 0
      (Served (at0 (serving resetDev 0 0x61 (p 64))) 0 0x61 (p 64) ∧ leNat (slice (p 64) 4 2) = 64 ∧ (p 64).length = 12)
      ∧ Served (at0 (serving resetDev 0 0x61 (p 63))) 0 0x61 (p 63) ∧ (manifestRead (p 63) (opened (at0 (serving resetDev 0 0x61 (p 63))) 0)).1.isSome = true
      ∧ (manifestRead (p 63) (raise (opened (at0 (serving resetDev 0 0x61 (p 63))) 0) .chip 15)).1.isSome = true
      ∧ (manifestRead (p 63) (raise (opened (at0 (serving resetDev 0 0x61 (p 63))) 0) .chip 31)).1.isSome = true)
    ∧ (let d := at0 (serving (withRegs [(.carapace, 0x80, 0x40)]) 2 0x70 []);
      privileged d 2 3 = true ∧ Served d 2 0x70 [] ∧ trngOk (opened d 2) = true)
    ∧ (let p := List.replicate 256 (1 : Byte); let d := at0 (serving resetDev 2 0x70 p); Served d 2 0x70 p ∧ octetAt p 2 ≠ lcOf (opened d 2))
    ∧ (let d := at0 { resetDev with car := { lcNext := some (5, 0) }, now := 10 * msTicks };
      d.car.lcNext = some (5, 0) ∧ halted d = false ∧ 0 + 10 * msTicks ≤ d.now)
    ∧ (rb (at0 (withRegs [(.carapace, 0xa0, 0xf1f)])) .carapace 0xa0 11 = true ∧ rb (at0 (withRegs [(.carapace, 0xa0, 0xf1f)])) .carapace 0xa0 1 = true
      ∧ domCond (at0 resetDev) 1 ≠ 0 ∧ pwrState (at0 resetDev) < 3 ∧ rb (at0 (withRegs [(.carapace, 0xa0, 0)])) .carapace 0xa0 4 = false) := by
  repeat' first | decide +kernel | exact accepts_of (by decide +kernel) | exact served_of rfl (by decide +kernel) (by decide +kernel) | apply And.intro

theorem meets_EvidenceAndLifeCycleAct_token :
    let d := at0 { serving (withRegs [(.carapace, 0x80, 1)]) 2 0x70 scrapToken with car := { lcNonce := some (List.replicate 32 0) } }
    Served d 2 0x70 scrapToken ∧ scrapToken.length = 256 ∧ octetAt scrapToken 2 = lcOf (opened d 2) ∧ octetAt scrapToken 3 = 5
    ∧ lcOf (opened d 2) = 1 ∧ leNat (scrapToken.take 2) = 2 ∧ tokenHere (opened d 2) scrapToken = true
    ∧ (opened d 2).car.lcNonce = some (slice scrapToken 32 32) := by
  refine ⟨served_of rfl (by decide +kernel) (by decide +kernel), by decide +kernel, by decide +kernel, by decide +kernel, by decide +kernel, by decide +kernel, ?_, ?_⟩
  · have h1 : slice scrapToken 8 16 = List.replicate 16 0 := rfl
    have h2 : slice scrapToken 24 8 = wordBytes serialWord := rfl
    simp only [tokenHere, h1, h2, beq_self_eq_true, Bool.and_true]
    decide +kernel
  · rfl

/-- Three cores vote; core 2 was in a minority at local time 0 and it is local time l. -/
def voteDev (l : Nat) (x : ScarabSt) : Dev := { withRegs [(.scarab 0, 0x80, 0)] with time := { loc := l }, scarab := x }

theorem meets_ScarabCommandsAct :
    (let d := at0 (voteDev secUnits { lastMin := [(2, 0)] }); voting d = true ∧ resyncing d = false ∧ d.scarab.left = none
      ∧ (∀ x, kvGet d.scarab.lastMin 2 = some x → x + secUnits ≤ locNow d) ∧ (∀ x, kvGet d.scarab.lastMin 1 = some x → x + secUnits ≤ locNow d)
      ∧ d.scarab.digDone = 0 ∧ digestsDue d = 0
      ∧ (0 : W64) ≠ 1 ∧ (1 : W64) ≠ 2 ∧ Accepts d .scarab (.scarab 0) ∧ rb d (.scarab 0) 0x80 8 = false ∧ lockBroken d = false ∧ trio d = false)
    ∧ (let d := at0 { withRegs [(.scarab 0, 0x80, 0)] with now := 66 + 4096 };
      voting d = true ∧ resyncing d = false ∧ d.scarab.left = none ∧ d.scarab.digDone < digestsDue d)
    ∧ (let d := at0 { withRegs [(.scarab 0, 0x88, 100)] with time := { loc := 100 * (secUnits / 1000) - 1 } }; let ms := rf d (.scarab 0) 0x88 0 7
      locNow d < d.scarab.testAt + (if 1 ≤ ms ∧ ms ≤ 100 then ms else 100) * (secUnits / 1000))
    ∧ (let d := at0 (voteDev (100 * (secUnits / 1000)) {}); let ms := rf d (.scarab 0) 0x88 0 7
      d.scarab.testAt + (if 1 ≤ ms ∧ ms ≤ 100 then ms else 100) * (secUnits / 1000) ≤ locNow d ∧ voting d = true ∧ resyncing d = false)
    ∧ (let d := at0 { voteDev (100 * (secUnits / 1000)) { resyncAt := some 0 } with regs := kvPut [] ((Page.scarab 0).base + 0x80) 4 }
      let ms := rf d (.scarab 0) 0x88 0 7
      d.scarab.testAt + (if 1 ≤ ms ∧ ms ≤ 100 then ms else 100) * (secUnits / 1000) ≤ locNow d ∧ voting d = true ∧ resyncing d = true)
    ∧ (let d := at0 { withRegs [(.scarab 0, 0x80, 4)] with scarab := { resyncAt := some 0 }, now := 1999 };
      resyncing d = true ∧ d.scarab.resyncAt = some 0 ∧ d.now < 0 + 2000 ∧ d.scarab.testDue = none)
    ∧ (let d := at0 { withRegs [(.scarab 0, 0x80, 4)] with scarab := { resyncAt := some 0 }, now := 2000 };
      voting d = true ∧ resyncing d = true ∧ d.scarab.resyncAt = some 0 ∧ d.scarab.testDue = none ∧ 0 + 2000 ≤ d.now)
    ∧ rb (at0 (withRegs [(.scarab 0, 0x80, 0x100)])) (.scarab 0) 0x80 8 = true ∧ trio (at0 (withRegs [(.scarab 0, 0x80, 1)])) = true := by
  repeat' first
    | decide +kernel | exact accepts_of (by decide +kernel) | exact all_none (by decide +kernel)
    | exact all_some 0 (by decide +kernel) (by decide +kernel) | apply And.intro

/-- The FCN holds this, at period n, in local time l. -/
def fcnDev (n l : Nat) (x : Fcn) : Dev := { resetDev with fcn := x, now := n, time := { loc := l } }

theorem meets_FaultCommandsAct : sourcePage 64 = some (.chip, 32) ∧ (at0 resetDev).fcn.chipRst = none
    ∧ (let d := at0 { fcnDev (5 * msTicks - 1) 0 { chipRst := some 0 } with man := { signing := some 0 } };
      d.fcn.chipRst = some 0 ∧ leftAt d 0 ≤ d.now ∧ secIntact d = true ∧ d.now < 0 + 5 * msTicks ∧ d.man.signing ≠ none)
    ∧ (let d := at0 (fcnDev (5 * msTicks) 0 { chipRst := some 0 }); d.fcn.chipRst = some 0 ∧ leftAt d 0 ≤ d.now ∧ 0 + 5 * msTicks ≤ d.now)
    ∧ (let d := at0 { withRegs [(.pwr, 0x88, 3)] with fcn := { chipRst := some 0 } }; d.fcn.chipRst = some 0 ∧ d.now < leftAt d 0)
    ∧ (let d := at0 (fcnDev 9 0 { minUntil := some 9 }); d.fcn.minUntil = some 9 ∧ 9 ≤ d.now ∧ d.fcn.relPend = false)
    ∧ (let d := at0 (fcnDev 9 0 { minUntil := some 9, relPend := true }); d.fcn.relPend = true ∧ d.fcn.safe = false)
    ∧ (let d := at0 (fcnDev 8 0 { minUntil := some 9 }); d.fcn.minUntil = some 9 ∧ d.now < 9)
    ∧ (Accepts (at0 resetDev) .scarab (.fcn 0) ∧ fcnLocked (at0 resetDev) = false ∧ bit (1 : W64) 1 = false)
    ∧ (let d := at0 (withRegs [(.fcn 0, 0x60, 1), (.fcn 1, 0x60, 1), (.fcn 2, 0x60, 1)]);
      Accepts d .scarab (.fcn 0) ∧ fcnLocked d = true ∧ d.fcn.held = true ∧ d.fcn.minUntil = none)
    ∧ (let d := at0 (fcnDev 0 (100 * 65536000000) {}); pwrState d < 3 ∧ d.fcn.lastTest + 100 * 65536000000 = locNow d)
    ∧ (let d := at0 (fcnDev 0 0 { exitTest := true }); pwrState d < 3 ∧ d.fcn.exitTest = true)
    ∧ (let d := at0 (fcnDev 0 (100 * 65536000000 - 1) {}); d.fcn.exitTest = false ∧ locNow d < d.fcn.lastTest + 100 * 65536000000)
    ∧ (let d := at0 resetDev; let old := rd d (.fcn 1) (0x800 + 8 * 8);
      Accepts d .scarab (.fcn 1) ∧ locked d (.fcn 1) = false ∧ (sourcePage 8).isSome = true ∧ bit old 15 = false ∧ fld old 12 3 ≤ 4
      ∧ 5 ≤ fld (5 : W64) 0 3 ∧ fld (4 : W64) 0 3 ≤ 4 ∧ bit (4 : W64) 6 = false ∧ bit (4 : W64) 7 = false ∧ bit (4 : W64) 8 = false) := by
  repeat' first | decide +kernel | exact accepts_of (by decide +kernel) | apply And.intro

/-! ### Premises that can be met: debug, the pair, update, boot -/

/-- An interpretation of the functions that log 4 leaves open: nothing but zeros, and every signature verifies. -/
abbrev ZeroCrypto : Prop := (∀ i l, Config.crypto i l = []) ∧ ∀ i k m s, Config.verify i k m s = true

/-- Debug state: level, scope bits, life cycle; what debug holds beside registers; period n, local time l. -/
def dbgDev (st lc n l : Nat) (x : DbgSt) : Dev :=
  { withRegs [(.dbg, 0x80, st), (.carapace, 0x80, lc + 0x40)] with dbg := x, now := n, time := { loc := l } }

theorem meets_DebugCommandsAct :
    (let d := at0 (serving (dbgDev 0 1 0 0 {}) 0 0x30 []); privileged d 0 2 = true ∧ Served d 0 0x30 [] ∧ (challengeOp (opened d 0)).1.isSome = true)
    ∧ (let d := at0 (serving resetDev 0 0x30 []); Served d 0 0x30 [] ∧ (challengeOp (opened (wb d .carapace 0x80 6 false) 0)).1 = none)
    ∧ Served (at0 (serving resetDev 0 0x31 [])) 0 0x31 []
    ∧ (let p := List.replicate 256 (0 : Byte); let d := at0 (serving resetDev 0 0x31 p); Served d 0 0x31 p ∧ tokenResult (opened d 0) p ≠ 0)
    ∧ (Accepts (at0 (dbgDev 0 1 0 0 {})) .scarab .dbg ∧ dbgLevel (at0 (dbgDev 0 1 0 0 {})) = 0)
    ∧ (let d := at0 { wr (dbgDev 0x1e 1 0 (5 * secUnits) { maxS := 1 }) .dbg 0x88 5 with dbg := { maxS := 1 } };
      Accepts d .scarab .dbg ∧ dbgLevel d = 2 ∧ d.dbg.maxS ≠ 0 ∧ domUp d 2 = true ∧ (rd d .dbg 0x88).toNat = locSec d ∧ mayDrive d = true
      ∧ scrap d = false ∧ tapAsleep d = false ∧ mayInvade d 0 = true ∧ mayInvade d 6 = true)
    ∧ (let d := at0 (wr (dbgDev 2 1 0 (5 * secUnits - 1) { maxS := 1 }) .dbg 0x88 5); dbgLevel d ≠ 0 ∧ locSec d < (rd d .dbg 0x88).toNat
      ∧ mayDrive d = false ∧ mayInvade d 0 = false)
    ∧ (let d := at0 (dbgDev 0 1 0 (60 * secUnits) { lockAt := some 0 });
      d.dbg.nonceAt + 60 * secUnits ≤ locNow d ∧ d.dbg.lockAt = some 0 ∧ 0 + 60 * secUnits ≤ locNow d)
    ∧ (let d := at0 (dbgDev 0 1 0 (60 * secUnits - 1) { lockAt := some 0 });
      locNow d < d.dbg.nonceAt + 60 * secUnits ∧ d.dbg.lockAt = some 0 ∧ locNow d < 0 + 60 * secUnits)
    ∧ (let d := at0 (dbgDev 0 5 0 0 {}); scrap d = true ∧ tapOff d = false) ∧ tapOff (at0 (setDomCond resetDev 1 0)) = true
    ∧ (let d := at0 (wr (dbgDev 0 1 0 0 {}) .pwr 0x88 3); scrap d = false ∧ tapAsleep d = true ∧ dmiWakes d = true)
    ∧ firmwareRuns (at0 (serving (dbgDev 0 1 0 0 {}) 0 1 [])) = true := by
  repeat' first | decide +kernel | exact accepts_of (by decide +kernel) | exact served_of rfl (by decide +kernel) (by decide +kernel) | apply And.intro

/-- A debug token of level 2 for this device, with a nonce of zeros. -/
def dbgTok : List Byte := [3, 0, 2, 7, 0, 0, 0, 0] ++ List.replicate 16 0 ++ wordBytes serialWord ++ List.replicate 32 0
  ++ [1, 0, 0, 0] ++ List.replicate 188 0

theorem meets_DebugCommandsAct_token (hz : ZeroCrypto) :
    let d := opened (at0 (serving (dbgDev 0 1 0 0 { nonce := some (List.replicate 32 0) }) 0 0x31 dbgTok)) 0
    dbgTok.length = 256 ∧ tokenResult d dbgTok = 0 := by
  intro d
  refine ⟨by decide +kernel, ?_⟩
  have h1 : slice dbgTok 8 16 = List.replicate 16 0 := rfl
  have h2 : slice dbgTok 24 8 = wordBytes serialWord := rfl
  have ha : dbgAuthority d dbgTok = some true := by
    unfold dbgAuthority tokenSigned
    rw [if_pos (by decide +kernel), hz.2]
  have ht : tokenHere d dbgTok = true := by
    simp only [tokenHere, h1, h2, beq_self_eq_true, Bool.and_true]
    decide +kernel
  unfold tokenResult
  rw [if_neg (by decide +kernel), if_neg (by decide +kernel), ha]
  dsimp only
  rw [if_neg (by decide +kernel), ht, if_neg (by decide), if_neg (show ¬ (d.dbg.nonce ≠ some (slice dbgTok 32 32) ∨ d.dbg.nonceAt + 60 * secUnits ≤ locNow d) by decide +kernel), if_neg (by decide +kernel)]

/-- A paired unit with these bits of PAIR_CTRL, CLAIM_PRIO 3 and this state, its key in slot 9, at period n. -/
def pairDev (ctrl n : Nat) (x : PairSt) : Dev :=
  { withRegs [(.pair 0, 0x80, ctrl), (.pair 0, 0x88, 3), (.pair 0, 0xb0, 9)] with
    pair := { x with strapEn := true }, boot := { due := false, image := some 0 }, now := n,
    car := { slots := [(9, { attr := BitVec.ofNat 64 (2 * 2 ^ 12 + 12) })] } }

/-- The sampled bits of a round in which a unit alone drives the number n. -/
def busOf (n : Nat) : List Bool := (List.range 8).map fun i => n / 2 ^ (7 - i) % 2 == 1

theorem meets_PairCommandsAct_claim :
    (at0 resetDev).pair.strapEn = false ∧ (at0 (pairDev 0 0 {})).pair.strapEn = true
    ∧ (let d := at0 (pairDev 3 (12 * claimBit - 10) { roundAt := some 0 }); ∀ x, d.pair.roundAt = some x → x + 12 * claimBit ≤ d.now + 10)
    ∧ (let d := at0 (pairDev 3 (12 * claimBit - 11) { roundAt := some 0 }); d.pair.roundAt = some 0 ∧ d.now + 10 < 0 + 12 * claimBit)
    ∧ (let d := at0 (pairDev 3 (9 * claimBit - 1) { round := some 0 }); (busOf 6).length = 8 ∧ d.pair.round = some 0 ∧ d.now < 0 + 9 * claimBit)
    ∧ claimNumber (at0 (pairDev 0 0 {})) = 0
    ∧ claimNumber (at0 (pairDev 3 0 {})) = 6
    ∧ (let d := at0 (pairDev 3 (9 * claimBit) { round := some 0, number := 6 }); (busOf 6).length = 8 ∧ d.pair.strapEn = true
      ∧ d.pair.round = some 0 ∧ 0 + 9 * claimBit ≤ d.now ∧ d.pair.yield = none ∧ rf d (.pair 1) 0x80 0 2 = 0 ∧ claimNumber d ≠ 0 ∧ arbitrate 6 (busOf 6) 8 false false = (busOf 6, false, false) ∧ holding d = false)
    ∧ (let d := at0 (wb (pairDev 3 0 { round := some 0, number := 70 }) (.pair 0) 0xc0 0 true);
      claimNumber d = 70 ∧ holding d = true ∧ arbitrate 70 (busOf 70) 8 false false = (busOf 70, false, false)
      ∧ arbitrate 70 (busOf 71) 8 false false = (busOf 70, true, false))
    ∧ Accepts (at0 (pairDev 3 0 {})) .scarab (.pair 0) := by
  repeat' first
    | decide +kernel | exact accepts_of (by decide +kernel) | exact all_some 0 (by decide +kernel) (by decide +kernel) | apply And.intro

theorem meets_PairCommandsAct_heartbeats :
    (let d := at0 (pairDev 3 hbTicks { sentAt := some 0, kickAt := some 0 }); pairOn d = true ∧ domUp d 2 = true ∧ d.pwr.entry = none
      ∧ d.fcn.safe = false ∧ (∀ x, d.pair.sentAt = some x → x + hbTicks ≤ d.now) ∧ d.pair.kickAt = some 0 ∧ d.now ≤ 0 + hbTicks
      ∧ (pairKey d 2).1.isSome = true)
    ∧ (let d := at0 (pairDev 3 (hbTicks - 1) { sentAt := some 0 }); d.pair.sentAt = some 0 ∧ d.now < 0 + hbTicks
      ∧ ∀ x, d.pair.kickAt = some x → x + hbTicks < d.now)
    ∧ (List.replicate 63 (0 : Byte)).length ≠ 64
    ∧ (let d := at0 { pairDev 3 0 {} with car := {} }; (pairKey d 3).1 = none ∧ pairOn d = true)
    ∧ (let d := at0 (pairDev 3 (3 * hbTicks) { seen := [(0, 0), (1, 1)], miss := [(0, 2)] });
      kvGet d.pair.seen 0 = some 0 ∧ (d.now - 0) / hbTicks = 3 ∧ kvD d.pair.miss 0 0 < 3 ∧ missCount d 1 < 3)
    ∧ (let d := at0 (pairDev 3 (3 * hbTicks - 1) { seen := [(0, 0)] }); kvGet d.pair.seen 0 = some 0 ∧ (d.now - 0) / hbTicks < 3) := by
  repeat' first
    | decide +kernel | exact all_none (by decide +kernel) | exact all_some 0 (by decide +kernel) (by decide +kernel) | apply And.intro

/-- A heartbeat of the other unit with partner epoch 1 and sequence number n, without its tag. -/
def hbBody (n : Nat) : List Byte := [1, 1, 1, 6, 0, 0, 0, 0, 1, 0, 0, 0, BitVec.ofNat 8 n, 0, 0, 0] ++ List.replicate 32 0

theorem meets_PairCommandsAct_accepted (key : List Byte) :
    let l := fun n => hbBody n ++ gmac key (hbIv (hbBody n)) (hbBody n)
    let d := at0 (pairDev 3 0 { partner := some 1, seqs := [(0, 1), (1, 1)] })
    (∀ n, (l n).length = 64 ∧ gmac key (hbIv (l n)) ((l n).take 48) = (l n).drop 48) ∧ pairOn d = true ∧ domUp d 2 = true
    ∧ (pairKey d 3).1.isSome = true
    ∧ leNat (slice (l 2) 8 4) = 1 ∧ leNat (slice (l 2) 12 4) = 2 ∧ leNat (slice (l 1) 12 4) = 1 ∧ octetAt (l 2) 1 ≠ d.pair.unit.toNat
    ∧ (let e := (pairKey d 3).2; e.pair.partner = some 1 ∧ kvGet e.pair.seqs 0 = some 1 ∧ d.pair.lost = false
      ∧ (e.pair.seqs.map (·.2)).foldl max 0 < 2)
    ∧ ∃ m : List Byte, m.length = 64 ∧ gmac key (hbIv m) (m.take 48) ≠ m.drop 48 := by
  have hg : ∀ k i m, (gmac k i m).length = 16 := fun k i m => by simp [gmac, cryptoN, fitLen]; omega
  have hb : ∀ n, (hbBody n).length = 48 := fun n => by simp [hbBody]
  have hi : ∀ n t, hbIv (hbBody n ++ t) = hbIv (hbBody n) := fun n t => rfl
  intro l d
  refine ⟨fun n => ⟨by simp [l, hb, hg], ?_⟩, by decide +kernel, by decide +kernel, by decide +kernel, rfl, rfl, rfl, ?_,
    by decide +kernel, ?_⟩
  · simp only [l, hi]
    rw [show 48 = _ from (hb n).symm, List.take_left, List.drop_left]
  · rw [show octetAt (l 2) 1 = 1 from rfl]; decide +kernel
  · by_cases h : gmac key (hbIv (hbBody 0)) (hbBody 0) = List.replicate 16 0
    · refine ⟨hbBody 0 ++ List.replicate 16 1, by simp [hb], ?_⟩
      rw [hi, show 48 = _ from (hb 0).symm, List.take_left, List.drop_left, h]
      decide
    · refine ⟨hbBody 0 ++ List.replicate 16 0, by simp [hb], ?_⟩
      rw [hi, show 48 = _ from (hb 0).symm, List.take_left, List.drop_left]
      exact h

theorem meets_PairCommandsAct_rest :
    (let d := at0 { withRegs [(.pair 0, 0x80, 7), (.pair 0, 0xb8, 2 ^ 35 + 2 ^ 34)] with pair := { strapEn := true }, time := { loc := 65536 * 1100000 } };
      bit (rd d (.pair 0) 0xb8) 35 = true ∧ pairOn d = true ∧ (timeOf d (fld (rd d (.pair 0) 0xb8) 32 3) / 65536 - 100000) / 1000000 = 1
      ∧ d.pair.digest = none)
    ∧ (let d := at0 { resetDev with time := { loc := 65536 * 1099999 } }; (timeOf d (fld (rd d (.pair 0) 0xb8) 32 3) / 65536 - 100000) / 1000000 = 0)
    ∧ rotOn (at0 (pairDev 0 0 {})) = false
    ∧ (let d := at0 (pairDev 7 (5 * msTicks) { rotRun := true });
      rotOn d = true ∧ d.pair.rotRun = true ∧ d.pair.rotWait = false ∧ d.pair.rotAt + 5 * msTicks ≤ d.now)
    ∧ (let d := at0 (pairDev 7 0 {}); rotOn d = true ∧ d.pair.rotRun = false ∧ d.pair.rotWait = false)
    ∧ (let d := at0 (pairDev 7 (5 * msTicks - 1) { rotRun := true }); rotOn d = true ∧ d.pair.rotRun = true ∧ d.now < d.pair.rotAt + 5 * msTicks)
    ∧ (let d := at0 (pairDev 7 (5 * msTicks) { rotRun := true, rotWait := true, bank := 31 });
      rotOn d = true ∧ d.pair.rotWait = true ∧ d.pair.rotAt + 5 * msTicks ≤ d.now ∧ ¬ (3 ∈ d.retired1))
    ∧ (let d := at0 (pairDev 7 0 {}); Accepts d .scarab (.pair 0) ∧ holding d = false ∧ d.pair.offline = false)
    ∧ (let d := at0 (wb (pairDev 7 0 {}) (.pair 0) 0xc0 0 true); Accepts d .scarab (.pair 0) ∧ holding d = true)
    ∧ (at0 (pairDev 7 0 { offline := true })).pair.offline = true
    ∧ (let d := at0 (serving (withRegs [(.carapace, 0x80, 0x40)]) 1 0x50 []); Served d 1 0x50 [] ∧ trngOk (opened d 1) = true)
    ∧ (let p := List.replicate 256 (0 : Byte); let d := at0 (serving resetDev 1 0x51 p); Served d 1 0x51 p ∧ privileged d 1 4 = true
      ∧ d.pair.yield = none ∧ yieldResult p (opened d 1) = 1)
    ∧ (at0 (pairDev 7 0 {})).pair.offline = false
    ∧ (at0 { resetDev with pair := { yield := some { ch := 1, at0 := 0 } } }).pair.yield = some { ch := 1, at0 := 0 }
    ∧ (let d := at0 { resetDev with now := 60000 * msTicks }; d.pair.nonceAt + 60000 * msTicks = d.now) := by
  repeat' first | decide +kernel | exact accepts_of (by decide +kernel) | exact served_of rfl (by decide +kernel) (by decide +kernel) | apply And.intro

/-- A yield token for this device with a nonce of zeros; f is its FORCE octet. -/
def yieldTok (f : Byte) : List Byte := [5, 0, f, 0, 0, 0, 0, 0] ++ List.replicate 16 0 ++ wordBytes serialWord ++ List.replicate 224 0

/-- A unit that holds the claim (h) and has a live partner whose heartbeat shows state 6 and a health word. -/
def yieldDev (h : Nat) : Dev :=
  opened (at0 (serving { withRegs [(.pair 0, 0xc0, h)] with pair := { nonce := some (List.replicate 32 0), hb := hbBody 1 } } 1 0x51 (yieldTok 1))) 1

theorem meets_PairCommandsAct_yield (hz : ZeroCrypto) :
    (yieldTok 1).length = 256 ∧ yieldResult (yieldTok 1) (yieldDev 1) = 0 ∧ yieldResult (yieldTok 1) (yieldDev 0) = 4 := by
  have h1 : slice (yieldTok 1) 8 16 = List.replicate 16 0 := rfl
  have h2 : slice (yieldTok 1) 24 8 = wordBytes serialWord := rfl
  have ho : ∀ h, h = 0 ∨ h = 1 → ownerSigned (yieldDev h) (yieldTok 1) = true := fun h e => by
    simp only [ownerSigned, tokenSigned, hz.2, Bool.and_true]
    rcases e with rfl | rfl <;> decide +kernel
  have ht : ∀ h, tokenHere (yieldDev h) (yieldTok 1) = (slice (yieldTok 1) 8 16 == deviceId (yieldDev h)) := fun h => by
    simp only [tokenHere, h2, beq_self_eq_true, Bool.and_true]
  refine ⟨by decide +kernel, ?_, ?_⟩
  · unfold yieldResult
    rw [if_neg (by rw [ho _ (by decide)]; decide +kernel), if_neg (by rw [ht]; decide +kernel), if_neg (by decide +kernel), if_neg (by decide +kernel),
      if_neg (by decide +kernel)]
  · unfold yieldResult
    rw [if_neg (by rw [ho _ (by decide)]; decide +kernel), if_neg (by rw [ht]; decide +kernel), if_neg (by decide +kernel), if_pos (by decide +kernel)]

/-- An UPD_OPEN payload for LC_PROV that enrolls an owner, with hashes of zeros: body of one block, confirmed within 100 ms. -/
def openMsg : List Byte := leBytes 4 0x4D495144 ++ leBytes 2 1 ++ leBytes 2 0x2540 ++ [1, 4, 1, 0] ++ leBytes 4 0 ++ List.replicate 8 0
  ++ leBytes 4 4096 ++ leBytes 4 100 ++ List.replicate 6016 0

/-- Its header block. -/
def provHdr : List Byte := fitLen 8192 openMsg

/-- A device in LC_PROV; the update session it holds. -/
def updDev (x : Option UpdSession) : Dev := { withRegs [(.carapace, 0x80, 2)] with boot := { session := x } }

/-- An update session of channel 1 for slot B with these blocks written. -/
def upd1 (got : List Nat) : UpdSession := { ch := 1, target := 1, hdr := provHdr, got := got, lastAt := 0 }

theorem sha384_zero (hz : ZeroCrypto) (l : List Byte) : sha384 l = List.replicate 48 0 := by simp [sha384, cryptoN, fitLen, hz.1]

theorem meets_UpdateCommandsAct_open (hz : ZeroCrypto) : let d := opened (at0 (serving (updDev none) 1 0x20 openMsg)) 1
    Served (at0 (serving (updDev none) 1 0x20 openMsg)) 1 0x20 openMsg ∧ openMsg.length = 6048
    ∧ d.boot.session = none ∧ d.boot.pending = none ∧ hdrCheck d provHdr true false = 0 := by
  intro d
  refine ⟨served_of rfl (by decide +kernel) (by decide +kernel), by decide +kernel, rfl, rfl, ?_⟩
  have hk : keysAccepted d provHdr true = true := by
    unfold keysAccepted
    rw [if_neg (by decide +kernel), if_pos (by decide +kernel), show (true && enrolls d provHdr && (unfused d).isSome) = true by decide +kernel,
      Bool.or_true]
  unfold hdrCheck
  rw [sha384_zero hz, sha384_zero hz, hk, hz.2, hz.2, if_neg (by decide +kernel), if_neg (by decide +kernel), if_neg (by decide +kernel),
    if_neg (by decide +kernel), if_neg (by decide +kernel), if_neg (by decide +kernel), if_neg (by decide +kernel), if_neg (by decide +kernel)]

theorem meets_UpdateCommandsAct_finish (hz : ZeroCrypto) : bodyOk ([] : List Host.Cell) 1 provHdr = true := by
  unfold bodyOk
  rw [sha384_zero hz]
  decide +kernel

/-- An UPD_BLOCK payload of zeros for an offset, with the CRC of its data. -/
def blockMsg (off : Nat) (z : List Byte := List.replicate 4096 0) : List Byte := leBytes 4 off ++ leBytes 4 (crc32 z) ++ List.replicate 8 0 ++ z

theorem crc32_lt (l : List Byte) : crc32 l < 2 ^ 32 := by
  have hstep : ∀ c, c < 2 ^ 32 → crcStepR 32 0xEDB88320 c < 2 ^ 32 := fun c hc => by
    unfold crcStepR
    split
    · exact Nat.xor_lt_two_pow (by omega) (by decide)
    · omega
  have hfold : ∀ (n : List Nat) c, c < 2 ^ 32 → n.foldl (fun a _ => crcStepR 32 0xEDB88320 a) c < 2 ^ 32 := fun n => by
    induction n with
    | nil => exact fun c hc => hc
    | cons x n ih => exact fun c hc => ih _ (hstep c hc)
  have hbytes : ∀ (l : List Byte) c, c < 2 ^ 32 → l.foldl (crcByteR 32 0xEDB88320) c < 2 ^ 32 := fun l => by
    induction l with
    | nil => exact fun c hc => hc
    | cons x l ih => exact fun c hc => ih _ (hfold _ _ (Nat.xor_lt_two_pow hc (by omega)))
  exact Nat.xor_lt_two_pow (hbytes l _ (by decide)) (by decide)

theorem blockMsg_crc (off : Nat) (z : List Byte) : crc32 ((blockMsg off z).drop 16) = leNat (slice (blockMsg off z) 4 4) := by
  have hd : (blockMsg off z).drop 16 = z := rfl
  have hs : slice (blockMsg off z) 4 4 = leBytes 4 (crc32 z) := rfl
  have hn := crc32_lt z
  rw [hd, hs]
  generalize crc32 z = n at hn
  simp only [leBytes, leNat, BitVec.toNat_ofNat]
  omega

theorem meets_UpdateCommandsAct_block : let b := at0 (serving (updDev (some (upd1 []))) 1 0x21 (blockMsg 0))
    Served (at0 (serving (updDev none) 1 0x21 (blockMsg 0))) 1 0x21 (blockMsg 0) ∧ (blockMsg 0).length = 4112
    ∧ Served b 1 0x21 (blockMsg 0) ∧ b.boot.session = some (upd1 [])
    ∧ leNat ((blockMsg 0).take 4) % 4096 = 0 ∧ leNat ((blockMsg 0).take 4) < hdrBody provHdr
    ∧ crc32 ((blockMsg 0).drop 16) = leNat (slice (blockMsg 0) 4 4) ∧ (upd1 []).got.contains (leNat ((blockMsg 0).take 4) / 4096) = false
    ∧ hdrBody provHdr ≤ leNat ((blockMsg 4096).take 4) ∧ leNat ((blockMsg 1).take 4) % 4096 ≠ 0 :=
  ⟨served_of rfl (by decide +kernel) (by decide +kernel), by decide +kernel, served_of rfl (by decide +kernel) (by decide +kernel), rfl, by decide +kernel, by decide +kernel,
    blockMsg_crc 0 _, by decide +kernel, by decide +kernel, by decide +kernel⟩

theorem meets_UpdateCommandsAct_session :
    (let d := at0 (serving (updDev (some (upd1 []))) 1 0x20 openMsg);
      Served d 1 0x20 openMsg ∧ d.boot.session = some (upd1 []) ∧ privileged d 1 1 = true)
    ∧ (let p := List.replicate 6048 (0 : Byte); let d := at0 (serving (updDev none) 1 0x20 p);
      Served d 1 0x20 p ∧ hdrCheck (opened d 1) (fitLen 8192 p) true false = 2)
    ∧ (Served (at0 (serving (updDev (some (upd1 []))) 1 0x22 [])) 1 0x22 [] ∧ (upd1 []).got.length < hdrBody (upd1 []).hdr / 4096
      ∧ hdrBody (upd1 [0]).hdr / 4096 ≤ (upd1 [0]).got.length ∧ (upd1 [0]).target ≠ 2)
    ∧ Served (at0 (serving (updDev (some (upd1 []))) 1 0x24 [])) 1 0x24 []
    ∧ (Served (at0 (serving resetDev 1 0x23 [2, 0])) 1 0x23 [2, 0] ∧ octetAt [2, 0] 0 = 2)
    ∧ (let d := at0 (serving { resetDev with boot := { slotA := 3 } } 1 0x23 [0, 1]);
      Served d 1 0x23 [0, 1] ∧ (activate [] (opened d 1) 0 1).1 = 0 ∧ octetAt [0, 1] 1 = 1)
    ∧ (Accepts (at0 resetDev) .scarab .upd ∧ (at0 resetDev).boot.pending = none
      ∧ (let d := at0 { resetDev with boot := { pending := some 1, confirm := some 5 }, now := 4 };
        d.boot.pending = some 1 ∧ d.boot.confirm = some 5 ∧ d.now < 5)
      ∧ (let d := at0 { resetDev with boot := { pending := some 1, confirm := some 5 }, now := 5 }; d.boot.confirm = some 5 ∧ 5 ≤ d.now))
    ∧ (let d := at0 { updDev (some (upd1 [])) with now := 5000 * msTicks };
      d.boot.session = some (upd1 []) ∧ (upd1 []).lastAt + 5000 * msTicks = d.now) := by
  repeat' first
    | exact accepts_of (by decide +kernel)
    | exact served_of rfl (by decide +kernel) (by decide +kernel) | rfl | decide +kernel | apply And.intro

/-- The boot is due, from this strap, in a life cycle. -/
def bootDev (sel lc : Nat) (x : Carapace) : Dev := { withRegs [(.carapace, 0x80, lc + 0x40)] with boot := { sel := sel }, car := x }

/-- The boot's draw for the root. -/
def bootDraw (d : Dev) : Bool × Dev := rootDraw (lcApply (setScarab (digestStart d d.now) fun x => { x with testAt := locNow d }))

/-- The device of BOOT_SELECT when the choice is made. -/
def bootAt (d : Dev) : Dev :=
  let e := restoreWrapped (deriveDevice (bootDraw d).2)
  wb (wf (wb e (.scarab 0) 0x80 9 d.boot.trio) (.scarab 0) 0x80 0 2 0) (.scarab 0) 0x80 8 true

theorem meets_BootAndResetsAct :
    (let d := at0 { resetDev with boot := { confirm := some 7, actAt := some 0 }, now := 7 };
      halted d = false ∧ d.boot.confirm = some 7 ∧ 7 ≤ d.now ∧ d.boot.actAt = some 0 ∧ d.now < 0 + 10 * msTicks)
    ∧ (let d := at0 { resetDev with boot := { confirm := some 7, actAt := some 0 }, now := 6 }; d.boot.confirm = some 7 ∧ d.now < 7)
    ∧ (let d := at0 { resetDev with boot := { actAt := some 0 }, now := 10 * msTicks }; d.boot.actAt = some 0 ∧ 0 + 10 * msTicks = d.now)
    ∧ halted (at0 (fcnDev 0 0 { chipRst := some 0 })) = true
    ∧ (at0 { resetDev with boot := { due := false } }).boot.due = false
    ∧ (let d := at0 (bootDev 0 5 {}); d.boot.due = true ∧ d.boot.outer = true ∧ halted d = false ∧ domUp d 2 = true ∧ d.boot.trio = false ∧ (bootAt d).boot.late = false
      ∧ lcOf (bootAt d) = 5)
    ∧ (let d := at0 (bootDev 0 2 { rootDue := true, trngStop := true }); d.boot.due = true ∧ (bootDraw d).1 = false
      ∧ (bootAt d).boot.late = false ∧ lcOf (bootAt d) ≠ 5)
    ∧ (let d := at0 (bootDev 0 1 {}); (bootDraw d).1 = true ∧ d.boot.sel = 0 ∧ (bootAt d).boot.late = false ∧ lcOf (bootAt d) ≠ 5)
    ∧ (at0 (bootDev 1 1 {})).boot.sel = 1 ∧ (at0 (bootDev 2 1 {})).boot.sel = 2
    ∧ (at0 resetDev).fcn.safe = false ∧ (at0 resetDev).car.vbatOk = true ∧ (at0 (fcnDev 0 0 { safe := true })).fcn.safe = true
    ∧ (at0 resetDev).boot.outer = true ∧ (at0 { resetDev with boot := { outer := false } }).boot.outer = false
    ∧ (let d := at0 { resetDev with boot := { outer := false }, now := 10 * msTicks }; d.boot.outer = false ∧ d.pwr.enFrom + 10 * msTicks ≤ d.now)
    ∧ (let d := at0 { resetDev with boot := { outer := false }, now := 10 * msTicks - 1 }; d.boot.outer = false ∧ d.now < d.pwr.enFrom + 10 * msTicks) := by
  repeat' first | decide +kernel | apply And.intro

/-! ### Single operations against the manual's own examples and tables -/

/-- The example of chapter 0: page addresses of M2, K3, G5 and S2. -/
theorem test_page_addresses : (Page.port 6 0).base = 0x00218000 ∧ (Page.can 3).base = 0x00423000 ∧ (Page.port 17 0).base = 0x00244000
    ∧ (Page.port 22 0).base = 0x00258000 ∧ pageOf 0x00423ff8 = some (.can 3) := by decide

/-- The example in R109: positions of ports in their quays. -/
theorem test_ports_of_quays : portsOfQuay 0 = [0, 1, 4, 5] ∧ portsOfQuay 3 = [16, 17, 18, 19, 20, 21, 22, 23, 24, 25, 26, 27, 28] := by decide

/-- What leaves the device in answer to a command from reset. -/
def answers (i : Instr) : List Out := match exec i State.reset with | .next s => s.dev.out | _ => []

/-- Table 2.4: PG_ID of page 1 of quay 2, read over the host interface. -/
theorem test_read_pg_id : answers (.registerRead 0 .host 0x00181000 3) = [.readData 0x0001030100020010] := by decide +kernel

/-- Table 8.18 and the example of chapter 8: the reset value of CAN_NBT, and that a channel with it may be enabled. -/
theorem test_can_nbt_reset : rd resetDev (.can 3) 0x88 = 0x0000002020007F02 ∧ canEnableOk (wr resetDev (.can 3) 0x80 0x20) 3 = true := by decide

/-- Table 15.10: sources 272 to 274 are errors of page 1 of port 22. -/
theorem test_sources_of_port_22 : sourcePage 272 = some (.port 22 1, 0) ∧ sourcePage 273 = some (.port 22 1, 1)
    ∧ sourcePage 274 = some (.port 22 1, 2) := by decide

/-- Table 2.14, step 3: the word written to BWT joins slot 2 with NEXT_GEN 42. -/
theorem test_tide_join_word : mkWord [(0, 42), (32, 1), (33, 2)] = 0x000000050000002A := by decide

/-- The gate list of chapter 6 on port 1, in local time in place of domain 0. -/
def gclDev : Dev := withRegs [(macPage 1, 0x200, 0x2FF11 + 8), (macPage 1, 0x208, 77000), (macPage 1, 0x210, 0), (macPage 1, 0x218, 500000)]

/-- The example of R186: switched at 77,010.123458789 s, the list starts at 77,010.1235 s and BASE_IN_PAST is set. -/
theorem test_gcl_start : let d := gateSwitch gclDev 1 (tMake 77010 123458789 0)
    rd d (macPage 1) 0x228 = 0x12CD2 ∧ rd d (macPage 1) 0x230 = 0x075C75E0 ∧ rb d (macPage 1) 0x220 2 = true := by decide +kernel

/-- Shaper 300 of quay 3 with these rates in kb/s and the burst sizes and overhead of Table 6.5, at local time l in ns. -/
def shaper300 (cir pir l : Nat) (x : Shaper) : Dev :=
  { withTbl resetDev [(0x03600000 + 3 * 0x10000 + 300 * 32, cir + pir * 2 ^ 32), (0x03600000 + 3 * 0x10000 + 300 * 32 + 8, 3084 + 1542 * 2 ^ 24 + 20 * 2 ^ 48)] with
    quays := [(3, { shapers := [(300, x)] })], time := { loc := l * 65536 } }

/-- Table 6.5, time 0: frame 1 does not fit the wheel. -/
theorem test_shaper_falls_back : let d := chargeShaper (shaper300 1000 2000 0 {}) 3 300 1522
    (shaper d 3 300).bucket = true ∧ (shaper d 3 300).ct = -1542 * 65536 ∧ (shaper d 3 300).pt = 1542 * 65536
      ∧ (shaper d 3 300).net = 12336000 * 65536 ∧ rd d (quayPage 3 1) 0x100 = 1 := by decide +kernel

/-- Table 6.5, 22.337 ms: frame 3, charged at 2,000 kb/s, returns to the wheel with NET = 28.505 ms. -/
theorem test_shaper_returns : let d := chargeShaper (shaper300 2000 2000 22337000 { bucket := true, ct := -584 * 65536, pt := 1542 * 65536, last := 20000000 * 65536 }) 3 300 1522
    (shaper d 3 300).bucket = false ∧ 28504 ≤ (shaper d 3 300).net / 65536000 ∧ (shaper d 3 300).net / 65536000 ≤ 28505
      ∧ rd d (quayPage 3 1) 0x110 = 1 := by decide +kernel

/-- Table 7.5: TIME_D_0_OFFSET of 1.75 s, applied to a domain at 77,003.4 s. -/
theorem test_step_of_1750_ms : (stepCtr resetDev { ctr := tMake 77003 400000000 0 * 2 ^ 40, on := true }
    { edge := 0, abs := false, val := toSigned 64 0x0000684EE1800000 }) = some (tMake 77005 150000000 0 * 2 ^ 40) := by decide +kernel

/-- Comparator 0 of chapter 9: ABS at 81.2 km/h, tachograph at v; comparator state x, all samples at time t (ms). -/
def witnessDev (v t : Nat) (x : XweCmp) : Dev :=
  { withRegs [(.xwe, 0x100, 2 ^ 16 + 2), (.xwe, 0x108, 0x00FC28F6), (.xwe, 0x110, 1280 + 200 * 2 ^ 32 + 200 * 2 ^ 44 + 50 * 2 ^ 56)] with
    xwe := { sigs := [(0, { has := true, val := v, time := t * 65536000000 }), (1, { has := true, val := 812 * 65536 / 10, time := t * 65536000000 })],
             cmps := [(0, x)] } }

/-- The comparator's state after its evaluation at a time in ms. -/
def witnessAt (v t : Nat) (x : XweCmp) : Nat × Option Nat :=
  let d := witnessDev v t x
  let c := kvD (xweEval d (curView d) (t * 65536000000) 0).xwe.cmps 0 {}
  (c.state, c.since)

/-- Table 9.10: forged samples (0 km/h) and genuine ones (80 km/h), from the first one to the onset record. -/
theorem test_witness_onset : (witnessAt 0 101 {}).1 = 1 ∧ (witnessAt (80 * 65536) 120 { state := 1, onset := some (101 * 65536000000) }).2 = some (120 * 65536000000)
    ∧ (witnessAt 0 2101 { state := 1, onset := some (101 * 65536000000) }).1 = 1
    ∧ (witnessAt 0 2103 { state := 1, onset := some (101 * 65536000000) }).1 = 2 := by decide +kernel

/-- Table 9.10: 500 ms of genuine samples end the violation. -/
theorem test_witness_end : (witnessAt (80 * 65536) 10499 { state := 2, since := some (10000 * 65536000000) }).1 = 2
    ∧ (witnessAt (80 * 65536) 10500 { state := 2, since := some (10000 * 65536000000) }).1 = 0 := by decide +kernel

/-- The example of chapter 17: 0x4B wins a round over 0x0A, which sees a dominant HOLD bit. -/
theorem test_claim_round : (arbitrate 0x4B (busOf 0x4B) 8 false false).2 = (false, false)
    ∧ (arbitrate 0x0A (busOf 0x4B) 8 false false).2 = (true, false) := by decide

/-- R60 names the CRC-32 of IEEE 802.3: its well-known check value over "123456789". -/
theorem test_crc32_check : crc32 [0x31, 0x32, 0x33, 0x34, 0x35, 0x36, 0x37, 0x38, 0x39] = 0xCBF43926 := by decide +kernel

/-- R18, Table 2.12 by hand: an access to an address without a page is logged with its cause. -/
theorem test_access_error : let d := accessErr resetDev 2 2 false 3 0x7000
    rd d .chip 0x100 = 0x7000 ∧ rd d .chip 0x108 = 0x622 ∧ rd d .chip 0x110 = 1 := by decide

end Sys2Proof.Tests
end

section
/-! PROOF. Register writes field by field (R513, R11): the fields of every row stand in ascending order, what each access type does with a
field, what a write of a whole register does, and the statement FieldsActByType. -/

namespace Sys2Proof

/-- The fields of a row stand from the lowest bit upward and do not overlap. -/
abbrev Row.Ascends (r : Row) : Prop := r.flds.Pairwise fun f g => f.lo + f.len ≤ g.lo

theorem headerRows_ascend : ∀ r ∈ headerRows, r.Ascends := by decide

/-- The register tables of the manual give every register's fields in ascending order, page by page. -/
theorem ownRows_ascend (pg : Page) : ∀ r ∈ pg.ownRows, r.Ascends := by
  cases pg with
  | fcn i => revert i; decide
  | quay n i => revert n i; decide
  | port p i =>
    dsimp only [Page.ownRows]
    split
    · split <;> decide
    · split
      · split <;> decide
      · split
        · split <;> decide
        · split <;> decide
  | bwt i => revert i; decide
  | time i => revert i; decide
  | buoy i => revert i; decide
  | lighter i => revert i; decide
  | host i => revert i; decide
  | mbox i => revert i; decide
  | scarab i => revert i; decide
  | pair i => revert i; decide
  | _ => dsimp only [Page.ownRows]; decide

theorem fcnSrcRow_ascends (s : Nat) : (fcnSrcRow s).Ascends := by simp [Row.Ascends, fcnSrcRow]

/-- The row of a register is a row of the page header, of the page's own tables, or an FCN_SRC row. -/
theorem rowAt_cases {pg : Page} {off : Nat} {r : Row} (h : pg.rowAt off = some r) :
    r ∈ headerRows ∨ r ∈ pg.ownRows ∨ ∃ s, r = fcnSrcRow s := by
  unfold Page.rowAt at h
  split at h
  · exact .inl (List.mem_of_find?_eq_some h)
  · split at h
    · split at h
      · exact .inr (.inr ⟨_, (Option.some.inj h).symm⟩)
      · exact .inr (.inl (List.mem_of_find?_eq_some h))
    · exact .inr (.inl (List.mem_of_find?_eq_some h))

theorem rowAt_ascends {pg : Page} {off : Nat} {r : Row} (h : pg.rowAt off = some r) : r.Ascends := by
  obtain hr | hr | ⟨s, rfl⟩ := rowAt_cases h
  · exact headerRows_ascend r hr
  · exact ownRows_ascend pg r hr
  · exact fcnSrcRow_ascends s

end Sys2Proof

namespace Sys2Proof.Machine

/-! ### What each access type does with a field (Table 0.5) -/

section
variable (d : Dev) (pg : Page) (old v w : W64) {f : Fld}

theorem fieldWrite_rw (h : f.kind = .rw) : fieldWrite d pg old v f (w, none) = (mergeFld w v f.lo f.len, none) := by
  simp only [fieldWrite, h]

theorem fieldWrite_w1c (h : f.kind = .w1c) : fieldWrite d pg old v f (w, none) = (w &&& ~~~(v &&& maskOf f.lo f.len), none) := by
  simp only [fieldWrite, h]

/-- The field rule leaves what only hardware changes, and what only acts when 1 is written. -/
theorem fieldWrite_untouched (h : f.kind = .ro ∨ f.kind = .w1s ∨ f.kind = .wo) : fieldWrite d pg old v f (w, none) = (w, none) := by
  obtain h | h | h := h <;> simp only [fieldWrite, h]

/-- A refusal keeps the word, and records its cause unless the value written is the one held. -/
theorem refusal_eq (same : Bool) (cause : Nat) :
    (if same then (w, none) else (w, some cause)) = (w, if same then none else some cause) := by
  cases same <;> rfl

theorem fieldWrite_rwd (h : f.kind = .rwd) : fieldWrite d pg old v f (w, none)
    = if disabled d pg then (mergeFld w v f.lo f.len, none)
      else (w, if old &&& maskOf f.lo f.len == v &&& maskOf f.lo f.len then none else some 1) := by
  simp only [fieldWrite, h, refusal_eq]

theorem fieldWrite_rwl (h : f.kind = .rwl) : fieldWrite d pg old v f (w, none)
    = if locked d pg then (w, if old &&& maskOf f.lo f.len == v &&& maskOf f.lo f.len then none else some 8)
      else (mergeFld w v f.lo f.len, none) := by
  simp only [fieldWrite, h, refusal_eq]

theorem fieldWrite_rws (h : f.kind = .rws) : fieldWrite d pg old v f (w, none)
    = if pg.hasShadow && shadowFrozen d pg then (w, if old &&& maskOf f.lo f.len == v &&& maskOf f.lo f.len then none else some 5)
      else (mergeFld w v f.lo f.len, none) := by
  simp only [fieldWrite, h, refusal_eq]

/-- A cause recorded before a field stays, and the word becomes what it would have become without it. -/
theorem fieldWrite_firstCause (f : Fld) (c : Nat) :
    fieldWrite d pg old v f (w, some c) = ((fieldWrite d pg old v f (w, none)).1, some c) := by
  cases h : f.kind with
  | rwd | rwl | rws => simp only [fieldWrite, h, refusal_eq, ite_self]; split <;> rfl
  | _ => simp only [fieldWrite, h]

end

/-! ### A write of a whole register -/

/-- The word that the fields of a row leave, applied from the lowest bit, and the first cause of a refusal. -/
def rowWrite (d : Dev) (pg : Page) (off : Nat) (v : W64) (r : Row) : W64 × Option Nat :=
  r.flds.foldl (fun acc f => fieldWrite d pg (rd d pg off) v f acc) (rd d pg off, none)

section
variable {d : Dev} {pg : Page} {off : Nat} {v : W64} {r : Row} (hr : pg.rowAt off = some r)
include hr

theorem writeFields_taken (hf : ∀ f ∈ r.flds, f.kind ≠ .ctr) (hx : (rowWrite d pg off v r).2 = none) :
    writeFields d pg off v = wr d pg off (rowWrite d pg off v r).1 := by
  have hp : r.flds.any (fun f => f.kind == .ctr) = false := by simpa using hf
  unfold rowWrite at hx
  simp only [writeFields, hr, hp, hx, rowWrite]
  rfl

theorem writeFields_refused (hf : ∀ f ∈ r.flds, f.kind ≠ .ctr) {c : Nat} (hx : (rowWrite d pg off v r).2 = some c) :
    writeFields d pg off v = conflict (wr d pg off (rowWrite d pg off v r).1) pg c := by
  have hp : r.flds.any (fun f => f.kind == .ctr) = false := by simpa using hf
  unfold rowWrite at hx
  simp only [writeFields, hr, hp, hx, rowWrite]
  rfl

theorem writeFields_ctr (hf : ∃ f ∈ r.flds, f.kind = .ctr) : writeFields d pg off v = ctrWrite d pg off v := by
  have hp : r.flds.any (fun f => f.kind == .ctr) = true := by simpa using hf
  simp only [writeFields, hr, hp, if_true]

end

/-- A counter ignores a value that is not 0 (R11). -/
theorem ctrWrite_ignores (d : Dev) (pg : Page) (off : Nat) {v : W64} (h : v ≠ 0) : ctrWrite d pg off v = d := if_pos h

/-- A counter that no snapshot shows is cleared by 0 (R11). -/
theorem ctrWrite_clears {d : Dev} {pg : Page} (off : Nat) (h : frozenPage d pg = none) : ctrWrite d pg off 0 = wr d pg off 0 := by
  simp only [ctrWrite, h, ne_eq, not_true_eq_false, if_false]

/-- Settles O9: the equation of each access type, the order of every row's fields, and what a write of a register makes of its fields. -/
theorem fieldsActByType : Obligations.FieldsActByType := by
  refine ⟨fun d pg old v w f => ?_, fun pg off r hr => rowAt_ascends hr, fun d pg off v r hr => ⟨fun hf => ?_, fun hf => ?_⟩⟩
  · exact ⟨fieldWrite_rw d pg old v w, fieldWrite_w1c d pg old v w, fieldWrite_untouched d pg old v w, fieldWrite_rwd d pg old v w,
      fieldWrite_rwl d pg old v w, fieldWrite_rws d pg old v w, fieldWrite_firstCause d pg old v w f⟩
  · exact ⟨writeFields_taken hr hf, fun c => writeFields_refused hr hf⟩
  · rw [writeFields_ctr hr hf, writeFields_ctr hr hf]
    exact ⟨ctrWrite_ignores d pg off, ctrWrite_clears off⟩

end Sys2Proof.Machine
end

section
/-! PROOF. Commit requests (R54): what the page answers under each condition, in the order in which the model tests them (log 62), and the
statement CommitRequestActs. -/

namespace Sys2Proof.Machine

/-- What an accepted request leaves: the command held, its generation in PENDING_GEN, COMMIT_PENDING set. -/
def commitPending (d : Dev) (pg : Page) (v : W64) : Dev :=
  wb (wf (wr d pg 0x58 (v &&& maskOf 0 36)) pg 0x50 32 32 (fld v 0 32)) pg 0x18 4 true

/-- A pending page joins a Tide slot: the page shows the slot, the slot is OPEN and counts one more page. -/
def joinSlot (d : Dev) (pg : Page) (slot : Nat) : Dev :=
  let o := 0x410 + slot * 0x20
  let f := wf (wb d pg 0x18 23 true) pg 0x18 20 3 slot
  wf (wf f .chip o 2 3 1) .chip o 16 16 (rf f .chip o 16 16 + 1)

section
variable {d : Dev} {m : Master} {pg : Page} {v : W64}

theorem commitReq_noShadow (hs : pg.hasShadow = false) (ok : Bool) :
    commitReq d m pg v ok = accessErr d (masterCode m) 7 true 3 (pg.base + 0x58) := by
  simp [commitReq, hs]

variable (hs : pg.hasShadow = true)
include hs

theorem commitReq_wrongGen (hg : fld v 0 32 ≠ (genOf d pg + 1) % 2 ^ 32) (ok : Bool) : commitReq d m pg v ok = commitReject d pg 2 := by
  simp only [commitReq, hs, hg, ne_eq, not_false_eq_true, if_true, Bool.not_true, Bool.false_eq_true, if_false]

variable (hg : fld v 0 32 = (genOf d pg + 1) % 2 ^ 32)
include hg

theorem commitReq_frozen (hz : shadowFrozen d pg = true) (ok : Bool) : commitReq d m pg v ok = commitReject d pg 4 := by
  simp [commitReq, hs, hg, hz]

variable (hz : shadowFrozen d pg = false)
include hz

theorem commitReq_invalid : commitReq d m pg v false = commitReject d pg 3 := by
  simp [commitReq, hs, hg, hz]

theorem commitReq_notTide (hb : bit v 32 = true) (ht : pg.tide = false) : commitReq d m pg v true = commitReject d pg 7 := by
  simp [commitReq, hs, hg, hz, hb, ht]

theorem commitReq_slotTaken (hb : bit v 32 = true) (ht : pg.tide = true) (hn : 2 ≤ slotState d (fld v 33 3)) :
    commitReq d m pg v true = commitReject d pg 6 := by
  simp [commitReq, hs, hg, hz, hb, ht, hn]

theorem commitReq_immediate (hb : bit v 32 = false) :
    commitReq d m pg v true
      = { commitPending d pg v with commitAt := kvPut (commitPending d pg v).commitAt pg.base (commitPending d pg v).now } := by
  simp [commitReq, commitPending, hs, hg, hz, hb]

theorem commitReq_joins (hb : bit v 32 = true) (ht : pg.tide = true) (hn : slotState d (fld v 33 3) ≤ 1) :
    commitReq d m pg v true = joinSlot (commitPending d pg v) pg (fld v 33 3) := by
  have hn' : ¬ 2 ≤ slotState d (fld v 33 3) := by omega
  simp [commitReq, commitPending, joinSlot, hs, hg, hz, hb, ht, hn']

end

/-- Settles O17: one equation per condition of a commit request, in their order. -/
theorem commitRequestActs : Obligations.CommitRequestActs := by
  intro d m pg v
  refine ⟨commitReq_noShadow, fun hs => ⟨commitReq_wrongGen hs, commitReq_frozen hs, fun hg hz => ?_⟩⟩
  refine ⟨commitReq_invalid hs hg hz, commitReq_notTide hs hg hz, commitReq_slotTaken hs hg hz, ?_⟩
  rw [← hg]
  exact ⟨commitReq_immediate hs hg hz, commitReq_joins hs hg hz⟩

end Sys2Proof.Machine
end

section
/-! PROOF. What every command and every step has in common: the queue, the outcome, the memories; the reset state; the stores. -/

namespace Sys2Proof.Machine

open Sys2Proof.Safety

/-! ### One command -/

/-- Whatever its operands, a command completes, with an own effect on the memories that keeps their canonical form. -/
theorem exec_completes (i : Instr) (s : State) :
    ∃ t w d, exec i s = .next (landedM t s w d) ∧ ∀ d m, Memory.wf m → Memory.wf (w d m) := by
  by_cases h : WellFormed i
  · exact exec_lands i s h
  · obtain ⟨t, ht⟩ := exec_passes i s h
    exact ⟨t, _, _, ht, fun _ _ hm => hm⟩

/-- A command completes, leaves the queue as it is, and keeps the canonical form of the memories. -/
theorem exec_next (i : Instr) (s : State) : ∃ s', exec i s = .next s' ∧ s'.pending = s.pending ∧ (MemOk s → MemOk s') := by
  obtain ⟨t, w, d, he, hw⟩ := exec_completes i s
  exact ⟨_, he, landedM_pending .., fun hm => memWf_landedM t hm w hw d⟩

/-! ### One step -/

theorem step_nil {s : State} (h : s.pending = []) : step s = .next s := by
  unfold step; rw [h]

theorem step_cons {c : Instr} {rest : List Instr} {s : State} (h : s.pending = c :: rest) : step s = exec c { s with pending := rest } := by
  unfold step; rw [h]

/-- What a step does: it answers a next state, takes one command off the queue, and keeps the canonical form of the memories. -/
theorem step_next (s : State) : ∃ s', step s = .next s' ∧ s'.pending = s.pending.tail ∧ (MemOk s → MemOk s') := by
  cases hp : s.pending with
  | nil => exact ⟨s, step_nil hp, hp, id⟩
  | cons c rest => rw [step_cons hp]; exact exec_next c { s with pending := rest }

/-- The same of a next state that is given. -/
theorem step_keeps {s s' : State} (h : step s = .next s') : s'.pending = s.pending.tail ∧ (MemOk s → MemOk s') := by
  obtain ⟨x, hx, hk⟩ := step_next s
  rw [hx] at h
  cases h
  exact hk

/-- Settles O1: the definition of a step. -/
theorem stepRunsFrontCommand : Obligations.StepRunsFrontCommand :=
  ⟨fun _ _ _ => step_cons rfl, fun _ => step_nil⟩

/-- Settles O2: every command completes and keeps the queue, so a step leaves the queue's tail. -/
theorem everyArrivingCommandCompletes : Obligations.EveryArrivingCommandCompletes := by
  refine ⟨fun i s => ?_, fun s s' h => (step_keeps h).1⟩
  obtain ⟨s', he, hq, -⟩ := exec_next i s
  exact ⟨s', he, hq⟩

/-- Settles O3: operands that spell nothing let time pass, and every step answers a next state. -/
theorem illFormedCommandsLetTimePass : Obligations.IllFormedCommandsLetTimePass := by
  refine ⟨exec_passes, fun s => ?_⟩
  obtain ⟨s', he, -⟩ := step_next s
  exact ⟨s', he⟩

/-- Settles O4: a step is idle or a command, and every command's writes keep the canonical form. -/
theorem stepKeepsMemoryCanonical : Obligations.StepKeepsMemoryCanonical := fun _ _ hm h => (step_keeps h).2 hm

/-- After as many steps as the queue holds commands it is empty, and the memories are canonical. -/
theorem steps_drain (n : Nat) : ∀ s : State, s.pending.length = n → MemOk s → (steps n s).pending = [] ∧ MemOk (steps n s) := by
  induction n with
  | zero => exact fun s hn hm => ⟨List.length_eq_zero_iff.mp hn, hm⟩
  | succ n ih =>
    intro s hn hm
    obtain ⟨s', he, hq, hk⟩ := step_next s
    have hs : steps (n + 1) s = steps n s' := by simp only [steps, he]
    rw [hs]
    exact ih s' (by rw [hq, List.length_tail, hn, Nat.add_sub_cancel]) (hk hm)

/-- Settles O6, by induction on the length of the queue. -/
theorem queueDrainsInOneStepPerCommand : Obligations.QueueDrainsInOneStepPerCommand := fun s hm => steps_drain _ s rfl hm

/-! ### The memories -/

/-- A list of writes leaves every byte outside all of them as it was. -/
theorem memByte_memWrites_outside (ws : List (Nat × List Byte)) (c : Nat) : ∀ (m : List Host.Cell)
    (_ : ∀ e ∈ ws, c < e.1 ∨ e.1 + e.2.length ≤ c), memByte (memWrites m ws) c = memByte m c := by
  induction ws with
  | nil => exact fun _ _ => rfl
  | cons w ws ih =>
    intro m h
    rw [memWrites, ih _ fun e he => h e (List.mem_cons_of_mem _ he), memByte_memWrite_outside _ _ _ _ (h w List.mem_cons_self)]

/-- Settles O7: the memories change by the writes listed, and each leaves the bytes outside it. -/
theorem unwrittenMemoryBytesStay : Obligations.UnwrittenMemoryBytesStay := by
  intro t s d a h
  rw [landed_mem, memByte_memWrites_outside _ a s.mem h]

/-! ### The stores -/

theorem rd_wr (d : Dev) (pg pg' : Page) (off off' : Nat) (v : W64) :
    rd (wr d pg off v) pg' off' = if pg.base + off = pg'.base + off' then v else rd d pg' off' := by
  split
  · next h => unfold rd; rw [← h]; exact rd_wr_same d pg off v
  · next h => exact rd_wr_far d v h

theorem trd_twr (d : Dev) (a c : Nat) (v : W64) : trd (twr d a v) c = if c = a then v else trd d c := by
  split
  · next h => subst h; exact stGet_stPut_same tblReset d.tbl c v
  · next h => exact stGet_stPut_other tblReset d.tbl v (Ne.symm h)

theorem memByte_memPut (m : List Host.Cell) (a c : Nat) (b : Byte) : memByte (memPut m a b) c = if c = a then b else memByte m c := by
  split
  · next h => subst h; exact memByte_memPut_same m c b
  · next h => exact memByte_memPut_other m b (Ne.symm h)

/-- Settles O8: a read after a write of each of the three stores. -/
theorem storesReadAsWritten : Obligations.StoresReadAsWritten := ⟨rd_wr, trd_twr, memByte_memPut⟩

/-! ### The reset state -/

end Sys2Proof.Machine
end

section
/-! PROOF. The reset state (Table 2.4, R58, R302, R200, R201, R423, R357): every register reads its reset value, every list is empty. -/

namespace Sys2Proof.Machine

open Sys2Proof.Safety

/-- Right after reset a register reads its reset value. -/
theorem rd_resetDev (pg : Page) (off : Nat) : rd resetDev pg off = regReset (pg.base + off) := rfl

/-- No page lies at the address of a page that does not exist. -/
theorem pageAt_missing (pg : Page) (h : pg.Exists = false) : pageAt (pg.base / 0x1000) = none := by
  cases pg with
  | port p i => revert p i; decide
  | _ => exact absurd h Bool.noConfusion

/-- The reset value of a register of a page. -/
theorem regReset_base (pg : Page) {off : Nat} (ho : off < 0x1000) : regReset (pg.base + off) = if pg.Exists then pg.resetAt off else 0 := by
  have hb := base_range pg
  have hpage : pageOf (pg.base + off) = pageAt (pg.base / 0x1000) := by
    unfold pageOf
    rw [show (pg.base + off) / 0x1000 = pg.base / 0x1000 by omega]
  unfold regReset
  rw [hpage, show (pg.base + off) % 0x1000 = off by omega]
  cases h : pg.Exists with
  | true => rw [pageAt_base pg h]; rfl
  | false => rw [pageAt_missing pg h]; rfl

/-- The registers of the page header but for PG_CAP reset alike on every page. -/
theorem resetAt_header (pg : Page) {off : Nat} (ho : off < 0x80) (h8 : off ≠ 8) : pg.resetAt off = Page.chip.resetAt off := by
  have hr : pg.rowAt off = Page.chip.rowAt off := by unfold Page.rowAt; rw [if_pos ho, if_pos ho]
  unfold Page.resetAt
  rw [if_neg h8, if_neg h8, hr]

/-- What a register of the page header but for PG_CAP reads after reset. -/
theorem rd_resetDev_header (pg : Page) {off : Nat} (ho : off < 0x80) (h8 : off ≠ 8) :
    rd resetDev pg off = if pg.Exists then Page.chip.resetAt off else 0 := by
  rw [rd_resetDev, regReset_base pg (by omega), resetAt_header pg ho h8]

/-- Every page is disabled after reset, without interrupt, error, lock or commit, its generation 0. -/
theorem page_resetDev (pg : Page) : enabled resetDev pg = false ∧ rd resetDev pg 0x20 = 0 ∧ rd resetDev pg 0x40 = 0
    ∧ genOf resetDev pg = 0 ∧ rb resetDev pg 0x18 4 = false ∧ locked resetDev pg = false := by
  unfold enabled genOf locked rb rf
  rw [rd_resetDev_header pg (off := 0x10) (by decide) (by decide), rd_resetDev_header pg (off := 0x20) (by decide) (by decide),
    rd_resetDev_header pg (off := 0x40) (by decide) (by decide), rd_resetDev_header pg (off := 0x50) (by decide) (by decide),
    rd_resetDev_header pg (off := 0x18) (by decide) (by decide), rd_resetDev_header pg (off := 0x60) (by decide) (by decide)]
  cases pg.Exists <;> decide

/-- Every domain reads 0 after reset: none is on, and local time begins at 0. -/
theorem timeOf_resetDev (n : Nat) : timeOf resetDev n = 0 := by
  unfold timeOf
  split
  · exact if_neg Bool.false_ne_true
  · decide

/-- Settles O5: the fields of the reset state, and the reset values of the registers named. -/
theorem resetStateIsClean : Obligations.ResetStateIsClean := by
  refine ⟨⟨List.Pairwise.nil, fun _ h => nomatch h⟩, rfl, rfl, page_resetDev, by decide, by decide, timeOf_resetDev, rfl, rfl, rfl, rfl, rfl,
    fun n _ => ?_, by decide, by decide, rfl, rfl⟩
  show fld (0 : W64) 12 4 = 0
  decide

end Sys2Proof.Machine
end

section
/-! PROOF. Access errors (Table 2.12), refused and accepted writes of registers and table words (R49, R50, R69, R71, R427, R513, R514). -/

namespace Sys2Proof.Machine

open Sys2Proof.Safety

/-! ### Error bits -/

/-- Setting an error bit changes, beside that bit, only the events on their way to the FCN. -/
theorem raiseF_regs (d : Dev) (pg : Page) (b : Nat) (forced : Bool) : (raiseF d pg b forced).regs = (wb d pg 0x40 b true).regs := by
  unfold raiseF
  dsimp only
  split <;> rfl

theorem rd_raiseF_off (d : Dev) (pg : Page) (b : Nat) (forced : Bool) {off : Nat} (h : 0x40 ≠ off) :
    rd (raiseF d pg b forced) pg off = rd d pg off := by
  rw [rd_of_regs (raiseF_regs d pg b forced), rd_wb_off d pg b true h]

theorem rb_raiseF_same (d : Dev) (pg : Page) {b : Nat} (forced : Bool) (h : b < 64) : rb (raiseF d pg b forced) pg 0x40 b = true := by
  unfold rb
  rw [rd_of_regs (raiseF_regs d pg b forced)]
  exact rb_wb_same d pg 0x40 b true h

theorem rb_raiseF_bit (d : Dev) (pg : Page) {b c : Nat} (forced : Bool) (h : b ≠ c) :
    rb (raiseF d pg b forced) pg 0x40 c = rb d pg 0x40 c := by
  unfold rb
  rw [rd_of_regs (raiseF_regs d pg b forced)]
  exact rb_wb_bit d pg 0x40 true h

/-! ### Access errors (Table 2.12) -/

/-- The capture of an access error: the first one since the count was cleared. -/
def accessSeen (d : Dev) (m cause : Nat) (write : Bool) (width addr : Nat) : Dev :=
  if rd d .chip 0x110 = 0 then
    wr (wr d .chip 0x100 (BitVec.ofNat 64 addr)) .chip 0x108 (mkWord [(0, m), (4, cause), (8, write.toNat), (9, width)])
  else d

/-- An access error at an address of no page: captured, counted, raised. -/
theorem accessErr_noPage (d : Dev) (m cause width addr : Nat) (write : Bool) (h : pageOf addr = none) :
    accessErr d m cause write width addr = raise (cnt (accessSeen d m cause write width addr) .chip 0x110 1) .chip 37 := by
  unfold accessErr
  rw [h]
  rfl

/-- The capture leaves the count. -/
theorem rd_accessSeen_count (d : Dev) (m cause : Nat) (write : Bool) (width addr : Nat) :
    rd (accessSeen d m cause write width addr) .chip 0x110 = rd d .chip 0x110 := by
  unfold accessSeen
  split
  · rw [rd_wr_off _ _ _ (by decide), rd_wr_off _ _ _ (by decide)]
  · rfl

/-- Settles O10: what the capture, the counter and the error bit read afterwards. -/
theorem accessErrorIsLogged : Obligations.AccessErrorIsLogged := by
  intro d m cause width addr write ha
  have hoff : ∀ off, 0x40 ≠ off → 0x110 ≠ off →
      rd (accessErr d m cause write width addr) .chip off = rd (accessSeen d m cause write width addr) .chip off := fun off h1 h2 => by
    rw [accessErr_noPage d m cause width addr write ha]
    unfold raise
    rw [rd_raiseF_off _ _ _ _ h1, rd_cnt_off _ _ _ h2]
  dsimp only
  rw [hoff 0x100 (by decide) (by decide), hoff 0x108 (by decide) (by decide)]
  refine ⟨fun h => ?_, fun h => ?_, ?_, ?_⟩
  · unfold accessSeen
    rw [if_pos h, rd_wr_off _ _ _ (by decide), rd_wr_same, rd_wr_same]
    exact ⟨rfl, rfl⟩
  · unfold accessSeen
    rw [if_neg h]
    exact ⟨rfl, rfl⟩
  · rw [accessErr_noPage d m cause width addr write ha]
    unfold raise
    rw [rd_raiseF_off _ _ _ _ (by decide), rd_cnt_same, rd_accessSeen_count]
  · rw [accessErr_noPage d m cause width addr write ha]
    exact rb_raiseF_same _ _ _ (by decide)

/-! ### Refused writes -/

/-- In the safe state every write but the host's is discarded. -/
theorem masterWrite_safe (mem : List Host.Cell) {d : Dev} {m : Master} (hm : m ≠ .host) (hs : d.fcn.safe = true) (addr width : Nat)
    (v : W64) : masterWrite mem d m addr width v = d := by
  have hc : writeCause d m addr width = 9 := by unfold writeCause; rw [if_pos hs]
  unfold masterWrite busWrite guarded
  rw [if_neg hm, if_neg fun h => hm h.1]
  simp only [hs, if_true]
  split <;> simp [hc]

/-- A write that only OWNER and APP_WRITE of the page refuse is logged with cause 3. -/
theorem masterWrite_owner (mem : List Host.Cell) {d : Dev} {m : Master} {pg : Page} {addr : Nat} (hm : m ≠ .host)
    (hs : d.fcn.safe = false) (h8 : addr % 8 = 0) (ha : addr < 0x01000000) (hp : pageOf addr = some pg) (hd : domCond d pg.domain = 1)
    (hh : pg.hasShadow = false ∨ addr % 0x1000 < 0x800) (ho : ownerAllows d m pg = false) (v : W64) :
    masterWrite mem d m addr 3 v = accessErr d (masterCode m) 3 true 3 addr := by
  have hon : domOff d pg.domain = false := by simp [domOff, hd]
  have hview : ¬ (pg.hasShadow = true ∧ 0x800 ≤ addr % 0x1000) := by
    rintro ⟨h1, h2⟩
    rcases hh with h | h
    · rw [h1] at h; exact Bool.noConfusion h
    · omega
  have hc : writeCause d m addr 3 = 3 := by
    unfold writeCause
    rw [hs, if_neg Bool.false_ne_true, if_neg (by omega), if_neg (by omega), hp]
    dsimp only
    rw [hon, if_neg Bool.false_ne_true, if_neg hview, ho]
    rfl
  unfold masterWrite busWrite guarded
  rw [if_neg hm, if_neg fun h => hm h.1]
  simp only [if_neg (show ¬ 0x01000000 ≤ addr by omega), hp, hs, Bool.false_eq_true, if_false, quayTouch_on d pg hd, hc]
  rfl

/-- Settles O11: the bus discards a write in the safe state, and logs one that OWNER refuses. -/
theorem refusedWriteOnlyLogs : Obligations.RefusedWriteOnlyLogs := by
  intro s t m addr v hm
  refine ⟨fun hs => ?_, fun pg hs h8 ha hp hd hh ho => ?_⟩
  · exact lands_congr (lands_registerWrite t m addr 3 v s (by decide)) (masterWrite_safe s.mem hm hs addr 3 v)
  · exact lands_congr (lands_registerWrite t m addr 3 v s (by decide)) (masterWrite_owner s.mem hm hs h8 ha hp hd hh ho v)

/-! ### Accepted writes -/

/-- An accepted write of a register of the page header. -/
theorem regPut_header (mem : List Host.Cell) {d : Dev} {m : Master} {pg : Page} (h : Accepts d m pg) {off : Nat} (v : W64)
    (h8 : off % 8 = 0) (ho : off < 0x80) : regPut mem d m pg off v = headerWrite mem d m pg off v := by
  rw [regPut_accepts mem d m pg off v h h8 (.inl (by omega)), regWrite_header mem d m pg off v ho]

theorem headerWrite_irqForce (mem : List Host.Cell) (d : Dev) (m : Master) (pg : Page) (v : W64) :
    headerWrite mem d m pg 0x38 v = irqForceOp d pg v := by
  unfold headerWrite
  simp only [Nat.reduceEqDiff, if_false, if_true]

theorem headerWrite_errForce (mem : List Host.Cell) (d : Dev) (m : Master) (pg : Page) (v : W64) :
    headerWrite mem d m pg 0x48 v = errForceOp d m pg v := by
  unfold headerWrite
  simp only [Nat.reduceEqDiff, if_false, if_true]

/-- A write of PG_LOCK with LOCK = 1. -/
theorem headerWrite_lock (mem : List Host.Cell) (d : Dev) (m : Master) (pg : Page) : headerWrite mem d m pg 0x60 1 = pageLockOp d m pg := by
  have hb : bit (1 : W64) 0 = true := by decide
  unfold headerWrite
  simp only [Nat.reduceEqDiff, if_false, if_true, hb]

/-- The first lock of a page names its locker. -/
theorem pageLockOp_first {d : Dev} {pg : Page} (hl : locked d pg = false) (m : Master) :
    pageLockOp d m pg = wb (wr d pg 0x60 (mkWord [(0, 1), (1, masterCode m)])) pg 0x18 8 true := by
  unfold pageLockOp
  rw [hl, if_neg Bool.false_ne_true]

/-- The bits of a list are raised: each bit of ERR_RAW stands that stood before or is in the list and chosen. -/
theorem rb_foldl_raiseF (pg : Page) (p : Nat → Bool) (c : Nat) (hc : c < 64) : ∀ (l : List Nat) (d : Dev),
    rb (l.foldl (fun d b => if p b then raiseF d pg b true else d) d) pg 0x40 c = (rb d pg 0x40 c || (l.contains c && p c)) := by
  intro l
  induction l with
  | nil => intro d; simp
  | cons b l ih =>
    intro d
    rw [List.foldl_cons, ih]
    by_cases hbc : b = c
    · subst hbc
      cases hp : p b with
      | true => rw [if_pos rfl, rb_raiseF_same _ _ _ hc]; simp
      | false => rw [if_neg Bool.false_ne_true]; simp
    · have hkeep : rb (if p b then raiseF d pg b true else d) pg 0x40 c = rb d pg 0x40 c := by
        split
        · exact rb_raiseF_bit _ _ _ hbc
        · rfl
      rw [hkeep, List.contains_cons, beq_eq_false_iff_ne.mpr (Ne.symm hbc), Bool.false_or]

/-- ERR_FORCE sets the bits written that are sources of the page. -/
theorem rb_errForceOp (d : Dev) {m : Master} (pg : Page) (v : W64) (hf : forceAllowed d m = true) (b : Nat) (hb : b < 64) :
    rb (errForceOp d m pg v) pg 0x40 b = (rb d pg 0x40 b || (bit v b && (pg.errSource b).isSome)) := by
  unfold errForceOp
  rw [if_pos hf, rb_foldl_raiseF pg (fun b => bit v b && (pg.errSource b).isSome) b hb,
    List.contains_iff_mem.mpr (List.mem_range.mpr hb), Bool.true_and]

/-- A write of a table window that passes the checks of the bus reaches the table. -/
theorem masterWrite_window (mem : List Host.Cell) {d : Dev} {m : Master} {a : Nat} (h : Accepts d m (winPage a)) (ha : 0x01000000 ≤ a)
    (hc : writeCause d m a 3 = 0) (v : W64) : masterWrite mem d m a 3 v = winWrite d m a v := by
  have hw : (if m = .host then hostAccessOp d else d) = d := by
    split
    · next hm => exact hostAccessOp_awake d (h.awake hm)
    · rfl
  have hhit : ∃ half, winHit a = some half := by
    cases hx : winHit a with
    | some half => exact ⟨half, rfl⟩
    | none =>
      unfold writeCause at hc
      rw [h.live, if_neg Bool.false_ne_true, if_pos ha, hx] at hc
      split at hc <;> simp at hc
  obtain ⟨half, hx⟩ := hhit
  have hbar : ¬ (m = .host ∧ inBar2 a = true) := by
    rintro ⟨-, hb⟩
    unfold inBar2 bar2Base at hb
    unfold winHit at hx
    split at hx
    · exact nomatch hx
    · rw [decide_eq_true_iff] at hb; omega
  unfold masterWrite busWrite guarded
  rw [hw, if_neg hbar]
  simp only [if_pos ha, hx, Option.map_some, h.live, Bool.false_eq_true, if_false, quayTouch_on d _ h.on, hc, if_true]

/-- A plain word of a table whose window is not frozen stores the bits that its entry has. -/
theorem winWrite_plain {d : Dev} {m : Master} {a : Nat} (v : W64) (hs : sealedAddr d a = false)
    (hf : (winLen ((a - 0x01000000) / 0x400000)).2 = false ∨ shadowFrozen d (winPage a) = false) (hctr : (winLayout a).2 = false)
    (hmeter : ¬ (0x02800000 ≤ a ∧ a < 0x02810000)) : winWrite d m a v = twr d a (v &&& (winLayout a).1) := by
  have hopen : ((winLen ((a - 0x01000000) / 0x400000)).2 && shadowFrozen d (winPage a)) = false := by
    rcases hf with h | h <;> rw [h]
    · exact Bool.false_and _
    · exact Bool.and_false _
  unfold winWrite
  simp only [hs, Bool.false_and, hopen, hctr, Bool.false_eq_true, if_false, if_neg hmeter]

/-- Settles O12: the bus hands an accepted write to the header, the register or the table word. -/
theorem pageHeaderWritesAct : Obligations.PageHeaderWritesAct := by
  intro s t m pg d h
  refine ⟨fun v => ?_, fun v hf => ?_, fun hl => ?_, fun off v h8 ho => ?_, fun a v ha hp hc hs hw hctr hmeter => ?_⟩
  · exact lands_congr (lands_irqForce t m pg v s h.page) ((regPut_header s.mem h v (by decide) (by decide)).trans (headerWrite_irqForce ..))
  · refine ⟨_, lands_errForce t m pg v s h.page, fun b hb => ?_⟩
    rw [regPut_header s.mem h v (by decide) (by decide), headerWrite_errForce]
    exact rb_errForceOp d pg v hf b hb
  · refine lands_congr (lands_pageLock t m pg s h.page) ?_
    rw [regPut_header s.mem h 1 (by decide) (by decide), headerWrite_lock, pageLockOp_first hl m]
  · exact lands_congr (lands_registerWrite t m _ 3 v s (by decide)) (masterWrite_accepts s.mem d m pg off v h h8 ho)
  · subst hp
    refine lands_congr (lands_tableWindowWrite t m a 3 v s (by decide)) ?_
    rw [masterWrite_window s.mem h ha hc v, winWrite_plain v hs hw hctr hmeter]

end Sys2Proof.Machine
end

section
/-! SUPPORT. The frame of PG_CTRL and PG_STAT: the operations of ports and queues change no register below +0x020 of any page. -/

namespace Sys2Proof.Machine

/-- No register below +0x020 of any page differs. -/
structure HeaderKept (d e : Dev) : Prop where
  kept (pg : Page) (off : Nat) : off < 0x20 → rd e pg off = rd d pg off

namespace HeaderKept

variable {d e f : Dev}

theorem refl (d : Dev) : HeaderKept d d := ⟨fun _ _ _ => rfl⟩

theorem trans (h : HeaderKept d e) (h' : HeaderKept e f) : HeaderKept d f :=
  ⟨fun pg off ho => (h'.kept pg off ho).trans (h.kept pg off ho)⟩

theorem regs (h : HeaderKept d e) (hr : f.regs = e.regs) : HeaderKept d f :=
  ⟨fun pg off ho => (rd_of_regs hr pg off).trans (h.kept pg off ho)⟩

theorem bit (h : HeaderKept d e) (pg : Page) {off : Nat} (i : Nat) (ho : off < 0x20) : rb e pg off i = rb d pg off i := by
  unfold rb; rw [h.kept pg off ho]

theorem enabled (h : HeaderKept d e) (pg : Page) : enabled e pg = enabled d pg := h.bit pg 0 (by decide)

theorem running (h : HeaderKept d e) (pg : Page) : running e pg = running d pg := h.bit pg 0 (by decide)

theorem ite (p : Prop) [Decidable p] (h : HeaderKept d e) (h' : HeaderKept d f) : HeaderKept d (if p then e else f) := by
  split <;> assumption

theorem foldl {α : Type} {g : Dev → α → Dev} (h : HeaderKept d e) (hg : ∀ d x, HeaderKept d (g d x)) (l : List α) : HeaderKept d (l.foldl g e) := by
  induction l generalizing e with
  | nil => exact h
  | cons x l ih => exact ih (h.trans (hg _ x))

theorem wr (h : HeaderKept d e) {pg : Page} {off : Nat} (v : W64) (ho : 0x20 ≤ off ∧ off < 0x1000) : HeaderKept d (wr e pg off v) :=
  ⟨fun pg' off' h' => (rd_wr_far e v (by have := base_range pg; have := base_range pg'; omega)).trans (h.kept pg' off' h')⟩

theorem wf (h : HeaderKept d e) {pg : Page} {off lo len x : Nat} (ho : 0x20 ≤ off ∧ off < 0x1000) : HeaderKept d (wf e pg off lo len x) := h.wr _ ho

theorem wb (h : HeaderKept d e) {pg : Page} {off i : Nat} {b : Bool} (ho : 0x20 ≤ off ∧ off < 0x1000) : HeaderKept d (wb e pg off i b) := h.wr _ ho

theorem cnt (h : HeaderKept d e) {pg : Page} {off n : Nat} (ho : 0x20 ≤ off ∧ off < 0x1000) : HeaderKept d (cnt e pg off n) := h.wr _ ho

theorem irq (h : HeaderKept d e) {pg : Page} {b : Nat} : HeaderKept d (irq e pg b) :=
  (h.wr _ (by decide)).regs (irqRawPut_regs e pg _)

theorem raise (h : HeaderKept d e) {pg : Page} {b : Nat} : HeaderKept d (raise e pg b) :=
  (h.wb (by decide)).regs (raiseF_regs e pg b false)

/-! ### Timestamp queues, copies, credits -/

theorem tsqPut (h : HeaderKept d e) (p : Nat) (w0 w1 : W64) : HeaderKept d (tsqPut e p w0 w1) := by
  unfold Machine.tsqPut
  dsimp only
  exact .ite _ ((h.cnt (by decide)).wb (by decide)).irq ((h.regs (by rfl)).wf (by decide)).irq

theorem tsqEntry (h : HeaderKept d e) (c : Copy) (time : Nat) (s x p : Bool) : HeaderKept d (tsqEntry e c time s x p) := by
  unfold Machine.tsqEntry
  split
  · exact h
  · exact .ite _ (h.tsqPut ..) h

theorem freeCopy (h : HeaderKept d e) (c : Copy) : HeaderKept d (freeCopy e c) :=
  have h' := h.tsqEntry c 0 false true false
  .ite _ h' (h'.regs (setPort_regs ..))

theorem takeCopies (h : HeaderKept d e) (n : Nat) (sel : Copy → Bool) {f : Dev → Copy → Dev} (hf : ∀ d c, HeaderKept d (f d c)) :
    HeaderKept d (takeCopies e n sel f) := by
  unfold Machine.takeCopies
  dsimp only
  refine h.foldl (fun d x => ?_) _
  exact .ite _ (.refl d) (((HeaderKept.refl d).regs (by rfl)).foldl hf _)

/-- The copies of a port freed and counted. -/
theorem dropCopies (h : HeaderKept d e) (n p : Nat) (sel : Copy → Bool) :
    HeaderKept d (Machine.takeCopies e n sel fun d c => Machine.freeCopy (Machine.cnt d (macPage p) 0x198 1) c) :=
  h.takeCopies n sel fun d _ => ((HeaderKept.refl d).cnt (by decide)).freeCopy _

theorem freeCopies (h : HeaderKept d e) (fid : Nat) (sel : Copy → Bool) : HeaderKept d (freeCopies e fid sel) :=
  h.foldl (fun d n => (HeaderKept.refl d).takeCopies n _ fun d c => (HeaderKept.refl d).freeCopy c) _

theorem cbsSync (h : HeaderKept d e) (p : Nat) : HeaderKept d (cbsSync e p) := by
  have one : ∀ d t, HeaderKept d (cbsOne d p t) := fun d t => (HeaderKept.refl d).regs <| by
    unfold cbsOne; exact ite_part Dev.regs _ rfl rfl
  exact .ite _ (h.foldl (fun d t => one d t) _) h

theorem stompFid (h : HeaderKept d e) (fid : Nat) : HeaderKept d (stompFid e fid) := by
  unfold Machine.stompFid
  dsimp only
  refine HeaderKept.foldl ((h.foldl (fun d x => ?_) (e.tx ++ e.susp)).regs (by rfl)) (fun d _ => (HeaderKept.refl d).regs (by rfl)) _
  exact .ite _ (((HeaderKept.refl d).cnt (by decide)).cnt (by decide)) (.refl d)

theorem endBadly (h : HeaderKept d e) (fid : Nat) : HeaderKept d (endBadly e fid) := (h.stompFid fid).freeCopies ..

/-! ### Links -/

theorem breakTx (h : HeaderKept d e) (p : Nat) : HeaderKept d (breakTx e p) := by
  have one : ∀ (d : Dev) (x : TxFrame), HeaderKept d (Machine.tsqEntry (emit (Machine.cnt d (macPage p) 0x190 (!x.copy.bad).toNat)
      (.ethFrame p x.octets true)) x.copy (locAt d (min d.now x.begun)) true false (decide (1 < x.frags))) := fun d x =>
    HeaderKept.tsqEntry (((HeaderKept.refl d).cnt (pg := macPage p) (off := 0x190) (n := (!x.copy.bad).toNat) (by decide)).regs (by rfl)) ..
  have h0 := (h.cbsSync p).regs (f := { Machine.cbsSync e p with
    tx := kvDel (Machine.cbsSync e p).tx p, susp := kvDel (Machine.cbsSync e p).susp p }) (by rfl)
  unfold Machine.breakTx
  dsimp only
  rcases kvGet (Machine.cbsSync e p).tx p with _ | x <;> rcases kvGet (Machine.cbsSync e p).susp p with _ | y
  · exact h0
  · exact h0.trans (one _ y)
  · exact h0.trans (one _ x)
  · exact (h0.trans (one _ x)).trans (one _ y)

theorem breakRx (h : HeaderKept d e) (p : Nat) (count : Bool) : HeaderKept d (breakRx e p count) := by
  unfold Machine.breakRx
  dsimp only
  refine (h.regs (by rfl)).foldl (fun d r => ?_) _
  have hc : HeaderKept d (if count ∧ r.gone = 0 then Machine.cnt d (macPage p) 0x110 1 else d) :=
    .ite _ ((HeaderKept.refl d).cnt (by decide)) (.refl d)
  exact .ite _ (hc.endBadly _) hc

theorem verifyStart (h : HeaderKept d e) (p : Nat) : HeaderKept d (verifyStart e p) := by
  unfold Machine.verifyStart verifyPut mergeUpdate
  dsimp only
  exact .ite _ ((h.wf (by decide)).wb (by decide)) ((h.wf (by decide)).wb (by decide)).irq

theorem flushPort (h : HeaderKept d e) (p : Nat) : HeaderKept d (flushPort e p) := h.dropCopies _ p _

theorem ferryOff (h : HeaderKept d e) : HeaderKept d (ferryOff e) := h.dropCopies 3 28 _

/-- A link that goes down leaves every page enabled or disabled, running or not, as it was. -/
theorem linkDown (h : HeaderKept d e) (p : Nat) : HeaderKept d (linkDown e p) := by
  unfold Machine.linkDown
  refine .ite _ h ?_
  have h2 := (((h.breakTx p).breakRx p true).wf (pg := macPage p) (off := 0xb8) (lo := 0) (len := 1) (x := 0) (by decide)).wf
    (pg := macPage p) (off := 0xb8) (lo := 9) (len := 3) (x := 0) (by decide)
  dsimp only
  have h4 x := (((h2.regs (setPort_regs _ p x)).cnt (pg := macPage p) (off := 0xc0) (n := 1) (by decide)).irq (pg := macPage p) (b := 0)).verifyStart p
  have h5 x := ((h4 x).wf (pg := phyPage p) (off := 0x98) (lo := 0) (len := 3) (x := 0) (by decide)).wf
    (pg := phyPage p) (off := 0x80) (lo := 0) (len := 4) (x := 0) (by decide)
  refine .ite _ (HeaderKept.flushPort ?_ p).irq ?_ <;>
    exact .ite _ (HeaderKept.ite _ (h5 _).raise (h5 _) |>.wf (by decide)) (.ite _ (h5 _).raise (h5 _))

theorem phyStart (h : HeaderKept d e) (p : Nat) : HeaderKept d (phyStart e p) := by
  unfold Machine.phyStart
  dsimp only
  exact .ite _ ((h.regs (by rfl)).cnt (by decide)) (h.regs (by rfl))

end HeaderKept

end Sys2Proof.Machine
end

section
/-! PROOF. PG_CTRL: enable, disable, freeze and quiescence (spec ch. 2, Table 2.6). -/

namespace Sys2Proof.Machine
open Safety

theorem portFin_port (p : Fin 29) : portFin p.val = p := by unfold portFin; ext; exact Nat.mod_eq_of_lt p.isLt

theorem phyPage_fin (p : Fin 29) : phyPage p.val = .port p 1 := by unfold phyPage; rw [portFin_port]

theorem macPage_fin (p : Fin 29) : macPage p.val = .port p 0 := by unfold macPage; rw [portFin_port]

theorem portFin_val (p : Fin 26) : (portFin p.val).val = p.val := Nat.mod_eq_of_lt (by omega)

/-! ### ENABLE is set -/

theorem enableOp_off {d : Dev} {pg : Page} (h : enabled d pg = false) :
    enableOp d pg = wb (wb (wb d pg 0x10 0 true) pg 0x18 0 (!rb d pg 0x10 1)) pg 0x18 1 false := by
  unfold enableOp; rw [h, if_neg Bool.false_ne_true]

theorem enablePage_enabled {d : Dev} {pg : Page} (h : enabled d pg = true) : enablePage d pg = d := by
  unfold enablePage; rw [if_pos h]

theorem enablePage_plain {d : Dev} {pg : Page} (h : enabled d pg = false) (hp : ∀ p : Fin 26, pg ≠ phyPage p.val) :
    enablePage d pg = if pg = .xwe then xweTicksAnew (enableOp d pg) else enableOp d pg := by
  unfold enablePage
  rw [h, if_neg Bool.false_ne_true]
  cases pg with
  | xwe => rfl
  | port p i =>
    by_cases hi : i.val = 1 ∧ p.val < 26
    · refine absurd ?_ (hp ⟨p.val, hi.2⟩)
      rw [phyPage_fin p, Fin.ext_iff.mpr (show i.val = (1 : Fin 4).val from hi.1)]
    · exact if_neg hi
  | _ => rfl

theorem enablePage_phy {d : Dev} (p : Fin 26) (h : enabled d (phyPage p.val) = false) :
    enablePage d (phyPage p.val) = phyStart (enableOp d (phyPage p.val)) p.val := by
  unfold enablePage
  rw [h, if_neg Bool.false_ne_true]
  unfold phyPage
  dsimp only
  rw [portFin_val, if_pos ⟨rfl, p.isLt⟩]

/-- What a page shows once ENABLE is set. -/
theorem shown_enableOp {d : Dev} {pg : Page} (h : enabled d pg = false) :
    enabled (enableOp d pg) pg = true ∧ running (enableOp d pg) pg = (!rb d pg 0x10 1) ∧ rb (enableOp d pg) pg 0x18 1 = false := by
  rw [enableOp_off h]
  refine ⟨?_, ?_, rb_wb_same _ _ _ _ _ (by decide)⟩
  · unfold enabled rb
    rw [rd_wb_off _ _ _ _ (by decide), rd_wb_off _ _ _ _ (by decide)]
    exact rb_wb_same _ _ _ _ _ (by decide)
  · unfold running
    rw [rb_wb_bit _ _ _ _ (by decide), rb_wb_same _ _ _ _ _ (by decide)]

theorem xweTickFrom_regs (d : Dev) (l : List Nat) (f : Nat → Nat) : (xweTickFrom d l f).regs = d.regs := rfl

theorem headerKept_enablePage {d : Dev} {pg : Page} (h : enabled d pg = false) : HeaderKept (enableOp d pg) (enablePage d pg) := by
  unfold enablePage
  rw [h, if_neg Bool.false_ne_true]
  cases pg with
  | port p i => exact .ite _ ((HeaderKept.refl _).phyStart _) (.refl _)
  | xwe => exact (HeaderKept.refl _).regs (xweTickFrom_regs ..)
  | _ => exact .refl _

/-- A PHY begins to bring its link up, by what the port's state and WARM_EN are. -/
theorem phyStart_of {g : Dev} (p : Nat) {x : PortSt} {n : Instant} {b : Bool} (hx : portSt g p = x) (hn : g.now = n)
    (hb : rb g (phyPage p) 0xa0 0 = b) : phyStart g p =
      (let g1 := setPort g p { x with warmFrom := if x.record.isSome then some n else none, fallback := false }
       if warmPort p = true ∧ x.record = none ∧ b = true then cnt g1 (phyPage p) 0x220 1 else g1) := by
  subst hx hn hb
  unfold phyStart
  simp only [Option.isNone_iff_eq_none]

/-- The start of a PHY looks at nothing that the enabling of its page changes. -/
theorem phyStart_enabled (d : Dev) (p : Nat) (b : Bool) :
    phyStart (wb (wb (wb (rewritten d (phyPage p) 0x10) (phyPage p) 0x10 0 true) (phyPage p) 0x18 0 b) (phyPage p) 0x18 1 false) p =
      (let x := portSt d p
       let g1 := setPort (wb (wb (wb (rewritten d (phyPage p) 0x10) (phyPage p) 0x10 0 true) (phyPage p) 0x18 0 b) (phyPage p) 0x18 1 false) p
         { x with warmFrom := if x.record.isSome then some d.now else none, fallback := false }
       if warmPort p = true ∧ x.record = none ∧ rb d (phyPage p) 0xa0 0 = true then cnt g1 (phyPage p) 0x220 1 else g1) := by
  refine phyStart_of p (by unfold portSt; rw [wb_ports, wb_ports, wb_ports, rewritten, wr_ports])
    (by rw [wb_now, wb_now, wb_now, rewritten, wr_now]) ?_
  unfold rb rewritten
  rw [rd_wb_off _ _ _ _ (by decide), rd_wb_off _ _ _ _ (by decide), rd_wb_off _ _ _ _ (by decide), rd_wr_off _ _ _ (by decide)]

/-! ### ENABLE is cleared -/

theorem workLeft_rewritten (d : Dev) (pg pg' : Page) (off : Nat) : workLeft (rewritten d pg off) pg' = workLeft d pg' := by
  cases pg' <;> rfl

theorem linkIsUp_rewritten (d : Dev) (p off : Nat) (h : off ≠ 0xb8) : linkIsUp (rewritten d (macPage p) off) p = linkIsUp d p :=
  congrArg (bit · 0) (rd_wr_off d _ _ h)

theorem disableOp_on {d : Dev} {pg : Page} (h : enabled d pg = true) :
    disableOp d pg = wb (wb d pg 0x10 0 false) pg 0x18 0 false := by
  unfold disableOp; rw [if_pos h]

theorem disablePage_disabled {d : Dev} {pg : Page} (h : enabled d pg = false) : disablePage d pg = d := by
  unfold disablePage; rw [h]; rfl

theorem disablePage_plain {d : Dev} {pg : Page} (h : enabled d pg = true) (hp : ∀ p : Fin 26, pg ≠ phyPage p.val ∧ pg ≠ macPage p.val) :
    disablePage d pg = disableOp d pg := by
  unfold disablePage
  rw [h, Bool.not_true, if_neg Bool.false_ne_true]
  cases pg with
  | port p i =>
    dsimp only
    rw [if_neg, if_neg]
    · rintro ⟨hi, hp', -⟩
      refine absurd ?_ (hp ⟨p.val, hp'⟩).2
      rw [macPage_fin p, Fin.ext_iff.mpr (show i.val = (0 : Fin 4).val from hi)]
    · rintro ⟨hi, hp'⟩
      refine absurd ?_ (hp ⟨p.val, hp'⟩).1
      rw [phyPage_fin p, Fin.ext_iff.mpr (show i.val = (1 : Fin 4).val from hi)]
  | _ => rfl

theorem disablePage_phy {d : Dev} (p : Fin 26) (h : enabled d (phyPage p.val) = true) : disablePage d (phyPage p.val) =
    if workLeft d (phyPage p.val) then disableOp d (phyPage p.val) else linkDown (disableOp d (phyPage p.val)) p.val := by
  unfold disablePage
  rw [h, Bool.not_true, if_neg Bool.false_ne_true]
  unfold phyPage
  dsimp only
  rw [portFin_val, if_pos ⟨rfl, p.isLt⟩]

theorem disablePage_mac {d : Dev} (p : Fin 26) (h : enabled d (macPage p.val) = true) : disablePage d (macPage p.val) =
    if linkIsUp d p.val then disableOp d (macPage p.val) else flushPort (disableOp d (macPage p.val)) p.val := by
  unfold disablePage
  rw [h, Bool.not_true, if_neg Bool.false_ne_true]
  unfold macPage
  dsimp only
  rw [portFin_val, if_neg (by simp)]
  cases linkIsUp d p.val
  · rw [if_pos ⟨rfl, p.isLt, rfl⟩]; rfl
  · rw [if_neg (by simp)]; rfl

/-- What a page shows once ENABLE is cleared. -/
theorem shown_disableOp {d : Dev} {pg : Page} (h : enabled d pg = true) :
    enabled (disableOp d pg) pg = false ∧ running (disableOp d pg) pg = false := by
  rw [disableOp_on h]
  refine ⟨?_, rb_wb_same _ _ _ _ _ (by decide)⟩
  unfold enabled rb
  rw [rd_wb_off _ _ _ _ (by decide)]
  exact rb_wb_same _ _ _ _ _ (by decide)

theorem headerKept_disablePage {d : Dev} {pg : Page} (h : enabled d pg = true) : HeaderKept (disableOp d pg) (disablePage d pg) := by
  unfold disablePage
  rw [h, Bool.not_true, if_neg Bool.false_ne_true]
  cases pg with
  | port p i => exact .ite _ (.ite _ (.refl _) ((HeaderKept.refl _).linkDown _)) (.ite _ ((HeaderKept.refl _).flushPort _) (.refl _))
  | _ => exact .refl _

/-! ### The writes of the commands -/

theorem regBits_enable (mem : List Host.Cell) {d : Dev} {m : Master} {pg : Page} (h : Accepts d m pg) : regBits mem d m pg 0x10 1 0 =
    if !enabled d pg && enableRefused d pg then invalidValue d pg else enablePage (rewritten d pg 0x10) pg := by
  rw [regBits_ctrl mem d m pg h 1 0 (by decide) (by decide)]
  rw [show bit (1 : W64) 0 = true by decide, show bit (0 : W64) 0 = false by decide, show bit (1 : W64) 2 = false by decide,
    show bit (0 : W64) 2 = false by decide, show bit (1 : W64) 1 = false by decide]
  simp only [Bool.not_false, Bool.true_and, Bool.or_false, Bool.and_true, Bool.or_true, if_true, Bool.false_and, Bool.false_eq_true, if_false]
  rfl

theorem regBits_disable (mem : List Host.Cell) {d : Dev} {m : Master} {pg : Page} (h : Accepts d m pg) : regBits mem d m pg 0x10 0 1 =
    disablePage (rewritten d pg 0x10) pg := by
  rw [regBits_ctrl mem d m pg h 0 1 (by decide) (by decide)]
  rw [show bit (1 : W64) 0 = true by decide, show bit (0 : W64) 0 = false by decide, show bit (1 : W64) 2 = false by decide,
    show bit (0 : W64) 2 = false by decide, show bit (0 : W64) 1 = false by decide]
  simp only [Bool.not_false, Bool.not_true, Bool.or_false, Bool.and_true, Bool.and_false, if_true, Bool.false_and, Bool.false_eq_true, if_false]
  rfl

theorem enabled_freezeOp (mem : List Host.Cell) (d : Dev) (pg : Page) (on : Bool) : enabled (freezeOp mem d pg on) pg = enabled d pg := by
  have hr : (freezeOp mem d pg on).regs = (wb d pg 0x10 2 on).regs := by
    unfold freezeOp
    exact ite_part Dev.regs _ rfl (ite_part Dev.regs _ rfl rfl)
  unfold enabled rb
  rw [rd_of_regs hr]
  exact rb_wb_bit d pg _ _ (by decide)

/-- ENABLE written as it is has no effect. -/
theorem ctrl_enable_kept {d : Dev} {pg : Page} {b : Bool} (h : enabled d pg = b) : (if b then enablePage d pg else disablePage d pg) = d := by
  cases b
  · exact disablePage_disabled h
  · exact enablePage_enabled h

theorem regBits_freeze (mem : List Host.Cell) {d : Dev} {m : Master} {pg : Page} (on : Bool) (h : Accepts d m pg) :
    regBits mem d m pg 0x10 (if on then 4 else 0) (if on then 0 else 4) =
      if rb d pg 0x10 2 = on then rewritten d pg 0x10 else freezeOp mem (rewritten d pg 0x10) pg on := by
  have e1 := enabled_rewritten d pg
  have e2 := (enabled_freezeOp mem (wr d pg 0x10 (rd d pg 0x10)) pg on).trans e1
  rw [regBits_ctrl mem d m pg h _ _ (by cases on <;> decide) (by cases on <;> decide)]
  cases on
  · simp only [Bool.false_eq_true, if_false, show bit (0 : W64) 0 = false by decide, show bit (4 : W64) 0 = false by decide,
      show bit (0 : W64) 1 = false by decide, show bit (0 : W64) 2 = false by decide, show bit (4 : W64) 2 = true by decide,
      Bool.false_and, Bool.or_false, Bool.not_false, Bool.not_true, Bool.and_true, Bool.and_false]
    cases rb d pg 0x10 2
    · simpa [rewritten] using ctrl_enable_kept e1
    · simpa [rewritten] using ctrl_enable_kept e2
  · simp only [if_true, show bit (0 : W64) 0 = false by decide, show bit (4 : W64) 0 = false by decide,
      show bit (4 : W64) 1 = false by decide, show bit (0 : W64) 2 = false by decide, show bit (4 : W64) 2 = true by decide,
      Bool.false_and, Bool.or_false, Bool.not_false, Bool.and_true, Bool.or_true, Bool.false_eq_true, if_false]
    cases rb d pg 0x10 2
    · simpa [rewritten] using ctrl_enable_kept e2
    · simpa [rewritten] using ctrl_enable_kept e1

/-! ### Quiescence -/

theorem quiescePage_busy {d : Dev} {pg : Page} (h : enabled d pg = true ∨ workLeft d pg = true) : quiescePage d pg = d := by
  unfold quiescePage; rw [if_pos (by simpa using h)]

theorem quiescedOp_off {d : Dev} {pg : Page} (h : enabled d pg = false) : quiescedOp d pg = wb d pg 0x18 1 true := by
  unfold quiescedOp; rw [h, if_neg Bool.false_ne_true]

theorem quiescePage_plain {d : Dev} {pg : Page} (h : enabled d pg = false) (hw : workLeft d pg = false) (hp : phyHolds d pg = false)
    (hf : pg ≠ .ferry) (hm : pg ≠ macPage 28) : quiescePage d pg = wb d pg 0x18 1 true := by
  unfold quiescePage
  rw [h, hw, hp, if_neg (by simp), if_neg (by simp), if_neg (by simp [hf, hm]), quiescedOp_off h]

theorem quiescePage_ferry {d : Dev} {pg : Page} (h : enabled d pg = false) (hw : workLeft d pg = false) (hp : pg = .ferry ∨ pg = macPage 28) :
    quiescePage d pg = ferryOff (wb d pg 0x18 1 true) := by
  have hh : phyHolds d pg = false := by rcases hp with rfl | rfl <;> rfl
  unfold quiescePage
  rw [h, hw, hh, if_neg (by simp), if_neg (by simp), if_pos hp, quiescedOp_off h]

theorem quiescePage_shown {d : Dev} {pg : Page} (h : enabled d pg = false) (hw : workLeft d pg = false) : rb (quiescePage d pg) pg 0x18 1 = true := by
  have hs : ∀ e, enabled e pg = false → rb (quiescedOp e pg) pg 0x18 1 = true := fun e he => by
    rw [quiescedOp_off he]; exact rb_wb_same _ _ _ _ _ (by decide)
  unfold quiescePage
  rw [h, hw, if_neg (by simp)]
  split
  · exact hs _ ((((HeaderKept.refl d).linkDown _).enabled pg).trans h)
  · split
    · exact (((HeaderKept.refl _).ferryOff).bit pg 1 (by decide)).trans (hs d h)
    · exact hs d h

/-- Settles O14: an accepted write of PG_CTRL through `regBits_ctrl`, then one equation per operation and kind of page. -/
theorem pageControlActs : Obligations.PageControlActs := by
  intro s t m pg d e
  have he : enabled e pg = enabled d pg := enabled_rewritten d pg
  have hb : ∀ i, rb e pg 0x10 i = rb d pg 0x10 i := fun i => congrArg (bit · i) (rd_wr_same d pg 0x10 _)
  refine ⟨fun ha => ⟨fun h => ?_, fun h hr => ?_, fun h hr => ⟨fun hp => ?_, ?_, ?_⟩, fun h => ?_, fun h => ⟨fun hp => ?_, ?_, ?_, ?_⟩,
    fun h hn => ?_, fun h => ?_, fun on h => ?_⟩, fun hx => ⟨fun h => ?_, fun h hw => ⟨fun hh hf hm => ?_, fun hf => ?_, ?_⟩⟩⟩
  · refine lands_congr (lands_blockEnable t m pg s ha.page) ?_
    rw [regBits_enable _ ha, h, if_neg (by simp), enablePage_enabled (he.trans h)]
  · refine lands_congr (lands_blockEnable t m pg s ha.page) ?_
    rw [regBits_enable _ ha, h, hr, if_pos (by simp)]
  · refine lands_congr (lands_blockEnable t m pg s ha.page) ?_
    rw [regBits_enable _ ha, h, hr, if_neg (by simp), enablePage_plain (he.trans h) hp, enableOp_off (he.trans h), hb]
  · rintro p rfl
    refine lands_congr (lands_blockEnable t m _ s ha.page) ?_
    rw [regBits_enable _ ha, h, hr, if_neg (by simp), enablePage_phy p (he.trans h), enableOp_off (he.trans h), hb]
    exact phyStart_enabled d p.val _
  · refine ⟨_, lands_blockEnable t m pg s ha.page, ?_⟩
    obtain ⟨h1, h2, h3⟩ := shown_enableOp (he.trans h)
    have hk := headerKept_enablePage (he.trans h)
    rw [regBits_enable _ ha, h, hr, if_neg (by simp)]
    exact ⟨(hk.enabled pg).trans h1, (hk.running pg).trans (h2.trans (by rw [hb])), (hk.bit pg 1 (by decide)).trans h3⟩
  · refine lands_congr (lands_blockDisable t m pg s ha.page) ?_
    rw [regBits_disable _ ha, disablePage_disabled (he.trans h)]
  · refine lands_congr (lands_blockDisable t m pg s ha.page) ?_
    rw [regBits_disable _ ha, disablePage_plain (he.trans h) hp, disableOp_on (he.trans h)]
  · rintro p rfl
    refine lands_congr (lands_blockDisable t m _ s ha.page) ?_
    rw [regBits_disable _ ha, disablePage_phy p (he.trans h), disableOp_on (he.trans h), workLeft_rewritten]
  · rintro p rfl
    refine lands_congr (lands_blockDisable t m _ s ha.page) ?_
    rw [regBits_disable _ ha, disablePage_mac p (he.trans h), disableOp_on (he.trans h), linkIsUp_rewritten d p.val 0x10 (by decide)]
  · refine ⟨_, lands_blockDisable t m pg s ha.page, ?_⟩
    obtain ⟨h1, h2⟩ := shown_disableOp (he.trans h)
    have hk := headerKept_disablePage (he.trans h)
    rw [regBits_disable _ ha]
    exact ⟨(hk.enabled pg).trans h1, (hk.running pg).trans h2⟩
  · refine lands_congr (lands_freeze t m pg true s ha.page) ?_
    rw [regBits_freeze _ true ha, h, if_neg Bool.false_ne_true]
    unfold freezeOp
    dsimp only
    rw [if_neg (by simp), if_neg]
    rw [wb_frz, rewritten, wr_frz, hn]
    simp
  · refine lands_congr (lands_freeze t m pg false s ha.page) ?_
    rw [regBits_freeze _ false ha, h, if_neg (by simp)]
    rfl
  · refine lands_congr (lands_freeze t m pg on s ha.page) ?_
    rw [regBits_freeze _ on ha, if_pos h]
  · exact lands_congr (lands_blockQuiesced t pg s hx) (quiescePage_busy h)
  · exact lands_congr (lands_blockQuiesced t pg s hx) (quiescePage_plain h hw hh hf hm)
  · exact lands_congr (lands_blockQuiesced t pg s hx) (quiescePage_ferry h hw hf)
  · exact ⟨_, lands_blockQuiesced t pg s hx, quiescePage_shown h hw⟩

end Sys2Proof.Machine
end

section
/-! PROOF. Block soft resets and quay resets (spec ch. 1, Table 1.3, R20 to R28). -/

namespace Sys2Proof.Machine
open Safety

/-! ### Block soft resets -/

theorem softResetOp_starts {d : Dev} {pg : Page} (hq : ∀ n i, pg ≠ .quay n i) (hs : kvGet d.srst (blockBase pg) = none)
    (hi : ∀ n, pg.quayOf = some n → (quay d n.val).isoAt = none) : softResetOp d pg =
      (let d1 := pg.blockPages.foldl (fun d pg => wb (wb d pg 0x18 0 false) pg 0x10 1 true) d
       blockClear (openShadow { d1 with srst := kvPut d1.srst (blockBase pg) d.now } (blockBase pg) false) pg) := by
  have iso : (match pg.quayOf with | some n => (quay d n.val).isoAt.isSome | none => false) = false := by
    split
    · rename_i n hn; rw [hi n hn]; rfl
    · rfl
  cases pg with
  | quay n i => exact absurd rfl (hq n i)
  | _ => exact if_neg fun h => h.elim (fun h => by simp [hs] at h) fun h => Bool.false_ne_true (iso.symm.trans h)

/-- PLCA of an S port begins anew at the end of its reset (R88); no other block has such a step. -/
def plcaAnew (d : Dev) : Page → Dev
  | .port p _ => plcaBegin d p.val
  | _ => d

theorem softResetEndOp_ends {d : Dev} {pg : Page} {x : Instant} (hs : kvGet d.srst (blockBase pg) = some x) : softResetEndOp d pg =
    (let d1 := pg.blockPages.foldl (fun d pg => wb d pg 0x10 1 false) { d with srst := kvDel d.srst (blockBase pg) }
     endShadow (restartRefills (plcaAnew (pagesStart d1 pg.blockPages) pg) pg.blockPages) (blockBase pg) false) := by
  unfold softResetEndOp
  rw [hs]
  cases pg <;> rfl

theorem closeShadowOp_block {d : Dev} {pg : Page} (hq : ∀ n i, pg ≠ .quay n i) : closeShadowOp d pg =
    { d with fcn := { d.fcn with shadows := d.fcn.shadows.filter fun x =>
        !(x.base == blockBase pg && x.quay == false && (match x.closes with | some c => decide (c ≤ d.now) | none => false)) } } := by
  cases pg with
  | quay n i => exact absurd rfl (hq n i)
  | _ => rfl

/-- Settles O15: the start, the end, the timeout and the closing of the shadow, one equation each. -/
theorem blockSoftResetActs : Obligations.BlockSoftResetActs := by
  intro s t pg d hx hq
  refine ⟨fun ⟨hs, hi⟩ => ?_, fun m ha => ?_, fun x hs => ⟨?_, fun hd => ?_⟩, ?_⟩
  · exact lands_congr (lands_blockSoftReset t none pg s hx) (softResetOp_starts hq hs hi)
  · exact lands_congr (lands_blockSoftReset t (some m) pg s hx) (regBits_srst _ _ m pg ha)
  · refine lands_congr (lands_softResetEnd t pg s hx) ((softResetEndOp_ends hs).trans ?_)
    cases pg <;> rfl
  · refine lands_congr (lands_resetTimeout t pg s hx) ?_
    unfold resetTimeoutOp
    rw [hs]
    exact if_pos hd
  · have hl := lands_resetShadowClose t pg s hx
    rw [show devAt s.dev t = d from rfl] at hl
    clear_value d
    exact lands_congr hl (closeShadowOp_block hq)

/-! ### Quay resets -/

theorem quayResetOp_starts {d : Dev} {n : Nat} (hi : (quay d n).isoAt = none) (hu : domUp d (5 + n) = true)
    (hr : ∀ x, (quay d n).resetAt = some x → x + secUnits ≤ locNow d) : quayResetOp d n =
      (let d0 := (quayPages n).foldl (fun d pg => wb d pg 0x10 1 true) (pagesStop (quayCut d n) (quayPages n))
       let d1 := openShadow d0 (quayPage n 0).base true
       setQuay d1 n { quay d1 n with isoAt := some d.now, resetAt := some (locNow d) }) := by
  unfold quayResetOp
  dsimp only
  rw [if_neg (by simp [hi, hu])]
  cases hx : (quay d n).resetAt with
  | none => exact if_neg Bool.false_ne_true
  | some x => exact if_neg (by simpa using hr x hx)

theorem quayResetOp_escalates {d : Dev} {n : Nat} (hi : (quay d n).isoAt = none) (hu : domUp d (5 + n) = true) {x : Nat}
    (hx : (quay d n).resetAt = some x) (hl : locNow d < x + secUnits) : quayResetOp d n = raiseEsc d .chip 34 none := by
  unfold quayResetOp
  dsimp only
  rw [if_neg (by simp [hi, hu]), hx]
  exact if_pos (by simpa using hl)

theorem quayDrainOp_early {d : Dev} {n : Nat} {x : Instant} (hx : (quay d n).isoAt = some x) (hl : d.now < x + 1048) : quayDrainOp d n = d := by
  unfold quayDrainOp
  rw [hx]
  exact if_pos (by simpa using hl)

/-- A quay after its drain: forgotten, running again where enabled, the end of its shadow set. -/
def quayDrained (d : Dev) (n : Nat) : Dev :=
  let d1 := (quayPages n).foldl (fun d pg => wb d pg 0x10 1 false) (quayForget d n)
  let d2 := pagesStart (setQuay d1 n { quay d1 n with isoAt := none }) (quayPages n)
  endShadow (restartRefills d2 (quayBlocks n)) (quayPage n 0).base true

theorem quayDrainOp_ends {d : Dev} {n : Nat} {x : Instant} (hx : (quay d n).isoAt = some x) (hl : x + 1048 ≤ d.now) : quayDrainOp d n =
    if n = 3 then setFerry (cnt (quayDrained d n) .ferry 0x218 ((quayDrained d n).ferry.ready.length + (quayDrained d n).ferry.carriers.flatten.length))
      fun f => { f with ready := [], carriers := [] } else quayDrained d n := by
  unfold quayDrainOp
  rw [hx]
  exact if_neg (by simpa using hl)

/-- Settles O16: the start of a quay reset or its escalation, and the drain's end at its instant and not before. -/
theorem quayResetActs : Obligations.QuayResetActs := by
  intro s t q d
  refine ⟨fun hi hu => ⟨fun hr => ?_, fun x hx hl => ?_⟩, fun m ha => ?_, fun x hx => ⟨fun hl => ?_, fun hl => ⟨fun h3 => ?_, fun h3 => ?_⟩⟩⟩
  · exact lands_congr (lands_quayReset t none q s) (quayResetOp_starts hi hu hr)
  · exact lands_congr (lands_quayReset t none q s) (quayResetOp_escalates hi hu hx hl)
  · exact lands_congr (lands_quayReset t (some m) q s) (regBits_srst _ _ m _ ha)
  · exact lands_congr (lands_quayDrainEnd t q s) (quayDrainOp_early hx hl)
  · exact lands_congr (lands_quayDrainEnd t q s) ((quayDrainOp_ends hx hl).trans (if_neg fun h => h3 (Fin.ext h)))
  · exact lands_congr (lands_quayDrainEnd t q s) ((quayDrainOp_ends hx hl).trans (if_pos (congrArg Fin.val h3)))

end Sys2Proof.Machine
end

section
/-! PROOF. Commits, switches and Tides (spec ch. 2, R54 to R66). -/

namespace Sys2Proof.Machine
open Safety

/-! ### Commits -/

/-- An accepted write of CFG_COMMIT is a commit request. -/
theorem regPut_commit (mem : List Host.Cell) {d : Dev} {m : Master} {pg : Page} (h : Accepts d m pg) (v : W64) :
    regPut mem d m pg 0x58 v = commitOp d m pg v := by
  rw [regPut_accepts _ _ _ _ _ _ h (by decide) (.inl (by decide)), regWrite_header _ _ _ _ _ _ (by decide)]
  unfold headerWrite
  simp

theorem commitSwitchOp_of {d : Dev} {pg : Page} {a : Instant} (h : kvGet d.commitAt pg.base = some a) :
    commitSwitchOp d pg = if switchDue pg a ≤ d.now then fireSwitch d [pg] none else d := by
  unfold commitSwitchOp; rw [h]

theorem mirrorRefillEndOp_waits {d : Dev} {pg : Page} {a : Instant} (h : kvGet d.refillAt pg.base = some a)
    (hw : d.now < a ∨ inReset d pg = true) : mirrorRefillEndOp d pg = d := by
  unfold mirrorRefillEndOp
  rw [h]
  exact if_pos hw

theorem mirrorRefillEndOp_ends {d : Dev} {pg : Page} {a : Instant} (h : kvGet d.refillAt pg.base = some a) (ha : a ≤ d.now)
    (hr : inReset d pg = false) (hx : pg ≠ .xwe) : mirrorRefillEndOp d pg = refillEnd d pg := by
  unfold mirrorRefillEndOp
  rw [h]
  dsimp only
  rw [if_neg (by simp [hr, ha]), if_neg fun h' => hx h'.1]

/-- The refill's end of a page that joined no Tide. -/
theorem refillEnd_immediate {d : Dev} {pg : Page} {a : Instant} (h : kvGet d.refillAt pg.base = some a) (ht : kvGet d.tideRef pg.base = none) :
    refillEnd d pg = irq (wb { d with refillAt := kvDel d.refillAt pg.base } pg 0x18 5 false) pg 63 := by
  have hk : kvGet (irq (wb { d with refillAt := kvDel d.refillAt pg.base } pg 0x18 5 false) pg 63).tideRef pg.base = none := by
    rw [irq_part Dev.tideRef (fun _ _ _ _ => rfl) (fun _ _ => rfl) (fun _ _ => rfl), wb_tideRef]
    exact ht
  unfold refillEnd
  rw [h]
  dsimp only
  rw [hk]

theorem sigPassOp_runs {d : Dev} {pg : Page} (hs : ab d pg 0x10 3 = true) (hd : disabled d pg = false) : sigPassOp d pg =
    (let d1 := { (wf d pg 0x68 32 32 (signature d pg)) with sigFrom := kvPut d.sigFrom pg.base d.now }
     if signature d pg = af d1 pg 0x68 0 32 then d1 else raise (irq (wb d1 pg 0x18 6 true) pg 60) pg 63) := by
  unfold sigPassOp
  rw [hs, hd]
  rfl

/-- Settles O18: the commands are writes of CFG_COMMIT, and the switch, the refill's end and the signature pass by their conditions. -/
theorem commitCommandsAct : Obligations.CommitCommandsAct := by
  intro s t pg d hx
  refine ⟨fun m gen ha => ⟨?_, fun slot => ?_⟩, fun a hc => ⟨fun hn => ?_, fun hn => ?_⟩, fun a hr hw => ?_, fun a hr hn hi hp ht => ?_,
    fun hs hd => ⟨fun he => ?_, fun he => ?_⟩⟩
  · exact lands_congr (lands_commitImmediate t m pg gen s hx) (regPut_commit _ ha _)
  · exact lands_congr (lands_tideJoin t m pg gen slot s hx) (regPut_commit _ ha _)
  · exact lands_congr (lands_commitSwitch t pg s hx) ((commitSwitchOp_of hc).trans (if_pos hn))
  · exact lands_congr (lands_commitSwitch t pg s hx) ((commitSwitchOp_of hc).trans (if_neg (Nat.not_le.mpr hn)))
  · exact lands_congr (lands_mirrorRefillEnd t pg s hx) (mirrorRefillEndOp_waits hr hw)
  · exact lands_congr (lands_mirrorRefillEnd t pg s hx) ((mirrorRefillEndOp_ends hr hn hi hp).trans (refillEnd_immediate hr ht))
  · exact lands_congr (lands_signaturePass t pg s hx) ((sigPassOp_runs hs hd).trans (if_pos he))
  · exact lands_congr (lands_signaturePass t pg s hx) ((sigPassOp_runs hs hd).trans (if_neg he))

/-! ### Switches -/

/-- Outside the Buoy a switch replaces the active copies of its page alone. -/
theorem switchPages_single {pg : Page} (h : ∀ i, pg ≠ .buoy i) : switchPages pg = [pg] := by
  cases pg with
  | buoy i => exact absurd rfl (h i)
  | _ => rfl

/-- The low half of a word made of a field at 0 and one at 32. -/
theorem fld_mkWord_low (x y : Nat) : fld (mkWord [(0, x), (32, y)]) 0 32 = x % 2 ^ 32 := by
  unfold fld mkWord
  apply Nat.eq_of_testBit_eq
  intro i
  rw [BitVec.testBit_toNat, BitVec.getLsbD_extractLsb', Nat.testBit_mod_two_pow]
  by_cases hi : i < 32
  · have h64 : i < 64 := by omega
    simp only [BitVec.getLsbD_or, BitVec.getLsbD_shiftLeft, BitVec.getLsbD_ofNat, List.foldl]
    simp [hi, h64]
  · simp [hi]

theorem rf_lt (d : Dev) (pg : Page) (off lo len : Nat) : rf d pg off lo len < 2 ^ len := BitVec.isLt _

/-- Settles O19: the switch of one page, field by field. -/
theorem switchMakesShadowActive : Obligations.SwitchMakesShadowActive := by
  intro d pg h
  have hp := switchPages_single h
  unfold switchPage
  rw [hp]
  dsimp only [List.foldl]
  refine ⟨rfl, ?_, ?_, ?_, rb_wb_same _ _ _ _ _ (by decide), ?_, ?_⟩
  · unfold genOf rf
    rw [rd_wb_off _ _ _ _ (by decide), rd_wb_off _ _ _ _ (by decide), rd_wb_off _ _ _ _ (by decide), rd_wr_same, fld_mkWord_low]
    exact Nat.mod_eq_of_lt (rf_lt d pg 0x50 32 32)
  · rw [rb_wb_bit _ _ _ _ (by decide), rb_wb_bit _ _ _ _ (by decide), rb_wb_same _ _ _ _ _ (by decide)]
  · rw [rb_wb_bit _ _ _ _ (by decide), rb_wb_same _ _ _ _ _ (by decide)]
  · exact kvGet_kvDel_same d.commitAt pg.base
  · exact kvGet_kvPut_same d.refillAt pg.base _

/-! ### Tides -/

theorem chipWrite_tideTime (d : Dev) (n : Fin 8) (isNs : Bool) (v : W64) :
    chipWrite d (0x400 + n.val * 0x20 + (if isNs then 8 else 0)) v = tideTimeOp d n.val isNs v := by
  unfold chipWrite
  dsimp only
  cases isNs
  · rw [if_pos (by simp; omega), show (0x400 + n.val * 0x20 + (if false = true then 8 else 0) - 0x400) % 0x20 = 0 by simp, if_pos rfl]
    exact congrArg (tideTimeOp d · false v) (by simp)
  · rw [if_pos (by simp; omega), show (0x400 + n.val * 0x20 + (if true = true then 8 else 0) - 0x400) % 0x20 = 8 by simp; omega,
      if_neg (by decide), if_pos rfl]
    exact congrArg (tideTimeOp d · true v) (by simp; omega)

theorem chipWrite_tideCtrl (d : Dev) (n : Fin 8) (v : W64) : chipWrite d (0x410 + n.val * 0x20) v = tideCtrlOp d n.val v := by
  unfold chipWrite
  dsimp only
  rw [if_pos (by omega), show (0x410 + n.val * 0x20 - 0x400) % 0x20 = 0x10 by omega, if_neg (by decide), if_neg (by decide), if_pos rfl]
  exact congrArg (tideCtrlOp d · v) (by omega)

/-- An accepted write of a register of the CHIP page above its header. -/
theorem regPut_chip (mem : List Host.Cell) {d : Dev} {m : Master} (h : Accepts d m .chip) {off : Nat} (h8 : off % 8 = 0) (hl : 0x80 ≤ off)
    (hs : off < 0x800) (v : W64) : regPut mem d m .chip off v = chipWrite d off v := by
  rw [regPut_accepts _ _ _ _ _ _ h h8 (.inl hs)]
  unfold regWrite
  exact if_neg (by omega)

theorem tideCtrlOp_arm {d : Dev} {n : Nat} {v : W64} (h : bit v 1 = false) : tideCtrlOp d n (setBit v 0 true) = tideArmOp d n := by
  unfold tideCtrlOp
  rw [bit_setBit_same _ _ _ (by decide), bit_setBit_other _ _ (by decide), h]
  rfl

theorem tideCtrlOp_cancel {d : Dev} {n : Nat} {v : W64} (h : bit v 0 = false) : tideCtrlOp d n (setBit v 1 true) = tideCancelOp d n := by
  unfold tideCtrlOp
  rw [bit_setBit_same _ _ _ (by decide), bit_setBit_other _ _ (by decide), h]
  rfl

theorem tideCtrlOp_both {d : Dev} {n : Nat} {v : W64} (h : bit v 0 = true) : tideCtrlOp d n (setBit v 1 true) = d := by
  unfold tideCtrlOp
  rw [bit_setBit_same _ _ _ (by decide), bit_setBit_other _ _ (by decide), h]
  rfl

theorem tideArmOp_open {d : Dev} {n : Nat} (h : slotState d n = 1) : tideArmOp d n =
    (let d1 := wf d .chip (0x410 + n * 0x20 + 8) 4 4 (armReject d n)
     if armReject d n = 0 then wf d1 .chip (0x410 + n * 0x20) 2 3 2 else d1) := by
  unfold tideArmOp
  dsimp only
  rw [if_neg (by omega), if_pos h]

theorem tideCancelOp_open {d : Dev} {n : Nat} (h : slotState d n = 1) : tideCancelOp d n =
    slotEnd d n 2 (rf d .chip (0x410 + n * 0x20 + 8) 9 3) (rf d .chip (0x410 + n * 0x20 + 8) 12 14) := by
  unfold tideCancelOp
  dsimp only
  rw [if_neg (by omega), if_pos h]

theorem tideCancelOp_fired {d : Dev} {n : Nat} (h : slotState d n = 3) : tideCancelOp d n = wb d .chip (0x410 + n * 0x20 + 8) 8 true := by
  unfold tideCancelOp
  dsimp only
  rw [if_neg (by omega), if_neg (by omega), if_neg (by omega)]

theorem tideFireOp_due {d : Dev} {n : Nat} (h : slotState d n = 2) (ht : (slotTime d n).1 ≤ timeOf d (slotTime d n).2) : tideFireOp d n =
    (let d1 := fireSwitch d (joinedPages d n) (some (slotTime d n))
     let d2 := (joinedPages d n).foldl (fun d pg => irq { d with tideRef := kvPut d.tideRef pg.base n } pg 61) d1
     wf (wf d2 .chip (0x410 + n * 0x20) 2 3 3) .chip (0x410 + n * 0x20) 32 16 (joinedPages d n).length) := by
  unfold tideFireOp
  dsimp only
  rw [if_neg (by omega)]

/-- Settles O20: writes of the slot's registers and the firing, by the slot's state. -/
theorem tideCommandsAct : Obligations.TideCommandsAct := by
  intro s t n d o
  refine ⟨fun m ha => ?_, fun h ht => lands_congr (lands_tideFire t n s) (tideFireOp_due h ht)⟩
  have hT : ∀ isNs v, Lands t (.tideTimeWrite t m n isNs v) s (tideTimeOp d n.val isNs v) := fun isNs v => by
    refine lands_congr (lands_tideTimeWrite t m n isNs v s) ?_
    rw [regPut_chip _ ha (by cases isNs <;> simp <;> omega) (by omega) (by cases isNs <;> simp <;> omega)]
    exact chipWrite_tideTime d n isNs v
  have hC : ∀ v, regPut s.mem d m .chip (0x410 + n.val * 0x20) v = tideCtrlOp d n.val v := fun v => by
    rw [regPut_chip _ ha (by omega) (by omega) (by omega)]
    exact chipWrite_tideCtrl d n v
  have hA : ∀ v, bit v 1 = false → Lands t (.tideArm t m n v) s (tideArmOp d n.val) := fun v hv =>
    lands_congr (lands_tideArm t m n v s) ((hC _).trans (tideCtrlOp_arm hv))
  have hX : ∀ v, bit v 0 = false → Lands t (.tideCancel t m n v) s (tideCancelOp d n.val) := fun v hv =>
    lands_congr (lands_tideCancel t m n v s) ((hC _).trans (tideCtrlOp_cancel hv))
  refine ⟨fun isNs v h => lands_congr (hT isNs v) (if_pos h), fun isNs v h => lands_congr (hT isNs v) (if_neg (by omega)), fun v hv h h0 => ?_,
    fun v hv h h0 => ?_, fun v hv h => lands_congr (hX v hv) (tideCancelOp_open h), fun v hv h => lands_congr (hX v hv) (tideCancelOp_fired h),
    fun v hv => lands_congr (lands_tideCancel t m n v s) ((hC _).trans (tideCtrlOp_both hv))⟩
  · refine lands_congr (hA v hv) ?_
    rw [tideArmOp_open h, h0]
    rfl
  · refine lands_congr (hA v hv) ?_
    rw [tideArmOp_open h]
    exact if_neg h0

end Sys2Proof.Machine
end

section
/-! PROOF. Memory integrity and clock monitors (spec ch. 1, R16 to R19, R34; ch. 15, R416). -/

namespace Sys2Proof.Machine
open Safety

theorem scrubOp_clean (d : Dev) (r w : Nat) : scrubOp d r w .clean = d := ite_self d

theorem scrubOp_uncorrectable {d : Dev} {r : Nat} (w k : Nat) (h0 : r ≠ 0) (hu : regionUp d r = true) : scrubOp d r w (.uncorrectable k) =
    if r = 1 then entryLost (raise d .chip (16 + r)) (0x01000000 + w * 8) else raise d .chip (16 + r) := by
  unfold scrubOp
  rw [if_neg (by simp [h0, hu])]

theorem scrubOp_corrected {d : Dev} {r : Nat} (w k : Nat) (h0 : r ≠ 0) (hu : regionUp d r = true) :
    scrubOp d r w (.corrected k) = wordRetire (raise d .chip r) r w := by
  unfold scrubOp
  rw [if_neg (by simp [h0, hu])]

theorem wordRetire_kept {d : Dev} {r w : Nat} (h : (seenTwice d r w).1 = false ∨ r ≠ 1) : wordRetire d r w = (seenTwice d r w).2 := by
  unfold wordRetire
  rcases hx : seenTwice d r w with ⟨again, d1⟩
  rw [hx] at h
  exact if_pos (by simpa using h)

/-- The second error of a word of the tables takes a spare line of its bank, while there is one. -/
theorem wordRetire_again {d : Dev} {w : Nat} (h : (seenTwice d 1 w).1 = true) : wordRetire d 1 w =
    (let d1 := (seenTwice d 1 w).2
     let b := Config.tableBank w
     let used := kvD d1.scrub.spares b 0
     if used < 32 then { d1 with scrub := { d1.scrub with spares := kvPut d1.scrub.spares b (used + 1) } } else raise d1 .chip 32) := by
  unfold wordRetire
  rcases hx : seenTwice d 1 w with ⟨again, d1⟩
  rw [hx] at h
  exact if_neg (by simpa using h)

theorem regionUp_tables {d : Dev} (h : domUp d 9 = true) : regionUp d 1 = true := h

theorem freeCellOp_fails {d : Dev} {n cell : Nat} (hq : domUp d (5 + n) = true) (hb : domUp d 9 = true) (hc : ¬ cell ∈ d.retired1) :
    freeCellOp d n cell false = raise { d with retired1 := d.retired1 ++ [cell] } .chip 0 := by
  unfold freeCellOp retireCell
  rw [if_neg (by simp [hq, hb]), if_neg (by simpa using hc)]

theorem freeCellOp_passes (d : Dev) (n cell : Nat) : freeCellOp d n cell true = d := if_pos (.inl rfl)

theorem clockWindowOp_deviates {d : Dev} {c n : Nat} (hp : pwrState d < 3)
    (h : windowCount c < 20 * (n - windowCount c) ∨ windowCount c < 20 * (windowCount c - n)) : clockWindowOp d c n =
      raise (if c = 4 then { d with fcn := { d.fcn with onBuoyClk := true } } else d) .clk c := by
  unfold clockWindowOp
  dsimp only
  rw [if_neg (by split <;> omega)]

theorem clockWindowOp_inside {d : Dev} {c n : Nat} (h : 20 * (n - windowCount c) ≤ windowCount c) (h' : 20 * (windowCount c - n) ≤ windowCount c) :
    clockWindowOp d c n = d := by
  unfold clockWindowOp
  dsimp only
  rw [if_pos (by split <;> omega)]

/-- Settles O21: a scrubbed word by what it shows, a free cell by its test, a clock by its deviation. -/
theorem integrityChecksReport : Obligations.IntegrityChecksReport := by
  intro s t d
  refine ⟨fun r w => ?_, fun r w hr hu k => ⟨?_, ?_⟩, fun w k hu => ⟨?_, ?_⟩, fun q cell hq hb hc => ⟨?_, ?_⟩, fun c n hp => ?_,
    fun ppm => ⟨?_, fun h => ?_, fun h => ?_⟩⟩
  · exact lands_congr (lands_scrubAccess t r w .clean s) (scrubOp_clean _ _ _)
  · exact lands_congr (lands_scrubAccess t r w _ s) ((scrubOp_uncorrectable w k (by omega) hu).trans (if_neg (by omega)))
  · exact lands_congr (lands_scrubAccess t r w _ s) ((scrubOp_corrected w k (by omega) hu).trans (wordRetire_kept (.inr (by omega))))
  · exact lands_congr (lands_scrubAccess t 1 w _ s) ((scrubOp_uncorrectable w k (by decide) (regionUp_tables hu)).trans (if_pos rfl))
  · have hs : Lands t (.scrubAccess t 1 w (.corrected k)) s (wordRetire (raise d .chip 1) 1 w) :=
      lands_congr (lands_scrubAccess t 1 w (.corrected k) s) (scrubOp_corrected w k (by decide) (regionUp_tables hu))
    clear_value d
    intro x b used
    refine ⟨fun h => lands_congr hs ?_, fun h hl => lands_congr hs ?_, fun h hl => lands_congr hs ?_⟩
    · exact wordRetire_kept (.inl h)
    · rw [wordRetire_again h]
      exact if_pos hl
    · rw [wordRetire_again h]
      exact if_neg (Nat.not_lt.mpr hl)
  · exact lands_congr (lands_freeCellTest t q cell false s) (freeCellOp_fails hq hb hc)
  · exact lands_congr (lands_freeCellTest t q cell true s) (freeCellOp_passes _ _ _)
  · have hl := lands_clockMonitorWindow t c n s
    rw [show devAt s.dev t = d from rfl] at hl
    clear_value d
    exact ⟨fun h => lands_congr hl (clockWindowOp_deviates hp h), fun h h' => lands_congr hl (clockWindowOp_inside h h')⟩
  · exact lands_congr (lands_clkBuoyMonitor t true ppm s) (if_pos (.inl rfl))
  · exact lands_congr (lands_clkBuoyMonitor t false ppm s) (if_pos (.inr h))
  · exact lands_congr (lands_clkBuoyMonitor t false ppm s) (if_neg (by simpa using h))

end Sys2Proof.Machine
end

section
/-! PROOF. PAUSE and low-power idle (spec ch. 3 and 6, R73, R93, R94, R176). -/

namespace Sys2Proof.Machine
open Safety

theorem pauseOp_accepted {d : Dev} {p : Nat} (quanta : Nat) (h : rxAccepts d p = true) : pauseOp d p quanta =
    (let d1 := cnt (cnt (cnt (cnt d (macPage p) 0x130 1) (macPage p) 0x108 1) (macPage p) 0x100 64) (macPage p) 0x150 1
     if ab d1 (macPage p) 0x80 4 = false then d1 else
       wb (setPort d1 p { portSt d1 p with pauseEnd := if quanta = 0 then none else some (d.now + octetTicks (quanta * 64) (portRate d p)) })
         (macPage p) 0xb8 11 (quanta != 0)) := by
  unfold pauseOp
  rw [h, if_neg (by simp)]
  simp only [Bool.not_eq_true']
  by_cases hq : quanta = 0
  · subst hq; simp only [if_true, bne_self_eq_false]
  · simp only [if_neg hq, bne_iff_ne.mpr hq]

theorem pauseExpiryOp_of {d : Dev} {p : Nat} {x : Instant} (h : (portSt d p).pauseEnd = some x) : pauseExpiryOp d p =
    if x ≤ d.now then wb (setPort d p { portSt d p with pauseEnd := none }) (macPage p) 0xb8 11 false else d := by
  unfold pauseExpiryOp; rw [h]

theorem lpiWakeOp_due {d : Dev} {p : Nat} {x y : Instant} (hl : lpiOn d p = true) (hx : (portSt d p).lpiWakeAt = some x) (hd : x ≤ d.now)
    (hy : (portSt d p).lpiFrom = some y) : lpiWakeOp d p =
      (let d1 := setPort d p { portSt d p with lpiFrom := none, lpiWakeAt := none, emptyFrom := d.now }
       irq (cnt (wb d1 (macPage p) 0xb8 9 false) (macPage p) 0x1c8 ((d.now - y) / usTicks)) (macPage p) 2) := by
  unfold lpiWakeOp
  dsimp only
  rw [hx, hy, if_pos ⟨hl, decide_eq_true hd⟩]

/-- Settles O22: PAUSE frames, the pause's end, LPI by their conditions. -/
theorem pauseAndLpiAct : Obligations.PauseAndLpiAct := by
  intro s t p d pg
  refine ⟨fun quanta h => ?_, fun x h => ⟨fun hx => ?_, fun hx => ?_⟩, fun he hb hl hg hi => ?_, fun x y hl hx hd hy => ?_, fun hl hw hg => ?_,
    fun on hl hp ho => ?_⟩
  · exact lands_congr (lands_pauseReceived t p quanta s) (pauseOp_accepted quanta h)
  · exact lands_congr (lands_pauseExpiry t p s) ((pauseExpiryOp_of h).trans (if_pos hx))
  · exact lands_congr (lands_pauseExpiry t p s) ((pauseExpiryOp_of h).trans (if_neg (Nat.not_le.mpr hx)))
  · exact lands_congr (lands_lpiEntry t p s) (if_pos ⟨he, by rw [hb]; rfl, by rw [hl]; rfl, by rw [hg]; rfl, hi⟩)
  · exact lands_congr (lands_lpiWake t p s) (lpiWakeOp_due hl hx hd hy)
  · exact lands_congr (lands_lpiGateWake t p s) (if_pos ⟨hl, by rw [hw]; rfl, hg⟩)
  · exact lands_congr (lands_rxLpiChange t p on s) (if_pos ⟨hl, hp, ho⟩)

end Sys2Proof.Machine
end

section
/-! PROOF. Link loss, link-up and warm relink (spec ch. 3, R76 to R85, R132). -/

namespace Sys2Proof.Machine
open Safety

/-! ### Registers of the pages of a port -/

/-- The pages of a port follow each other. -/
theorem portPage_bases (p : Nat) : (phyPage p).base = (macPage p).base + 0x1000 ∧ (tsPage p).base = (macPage p).base + 0x2000 := by
  unfold phyPage tsPage macPage Page.base
  exact ⟨rfl, rfl⟩

section
variable (d : Dev) (p : Nat) {pg : Page} {off : Nat}

theorem rd_verifyPut (st : Nat) (h1 : (macPage p).base + 0xb0 ≠ pg.base + off) (h2 : (macPage p).base + 0x20 ≠ pg.base + off) :
    rd (verifyPut d p st) pg off = rd d pg off := by
  have hm : rd (mergeUpdate (wf d (macPage p) 0xb0 0 2 st) p) pg off = rd d pg off := (rd_wr_far _ _ h1).trans (rd_wr_far _ _ h1)
  unfold verifyPut
  dsimp only
  split
  · exact hm
  · exact (rd_irq_far _ _ h2).trans hm

theorem rd_plcaBegin (h : (phyPage p).base + 0xe0 ≠ pg.base + off) : rd (plcaBegin d p) pg off = rd d pg off := by
  unfold plcaBegin
  split
  · rfl
  · exact rd_wr_far _ _ h

/-- A bit of IRQ_RAW of the MAC stays while verification begins. -/
theorem rb_verifyPut_raw (st b : Nat) (hb : b ≠ 1) : rb (verifyPut d p st) (macPage p) 0x20 b = rb d (macPage p) 0x20 b := by
  have hm : rd (mergeUpdate (wf d (macPage p) 0xb0 0 2 st) p) (macPage p) 0x20 = rd d (macPage p) 0x20 :=
    (rd_wr_off _ _ _ (by decide)).trans (rd_wr_off _ _ _ (by decide))
  unfold verifyPut rb
  dsimp only
  split
  · rw [hm]
  · rw [rd_irq_same, bit_setBit_other _ _ hb.symm, hm]

end

/-! ### Link loss -/

theorem linkDown_up {d : Dev} {p : Nat} (h : linkIsUp d p = true) : linkDown d p =
    (let d1 := breakRx (breakTx d p) p true
     let d2 := wf (wf d1 (macPage p) 0xb8 0 1 0) (macPage p) 0xb8 9 3 0
     let d3 := setPort d2 p { portSt d2 p with lpiFrom := none, lpiWakeAt := none, pauseEnd := none }
     let d5 := wf (wf (verifyStart (irq (cnt d3 (macPage p) 0xc0 1) (macPage p) 0) p) (phyPage p) 0x98 0 3 0) (phyPage p) 0x80 0 4 0
     let d6 := if enabled d5 (phyPage p) then raise d5 (phyPage p) 2 else d5
     let d7 := if portType p = .s then wf d6 (phyPage p) 0xe0 0 2 0 else d6
     if ab d7 (macPage p) 0x80 14 then irq (flushPort d7 p) (macPage p) 3 else d7) := by
  unfold linkDown
  rw [h, Bool.not_true, if_neg Bool.false_ne_true]

theorem linkLossOp_up {d : Dev} {p : Nat} (remote : Bool) (h : linkIsUp d p = true) : linkLossOp d p remote =
    (let d8 := linkDown d p
     let d9 := if portType p = .b then wb (wb d8 (macPage p) 0xb8 7 (!remote)) (macPage p) 0xb8 8 remote else d8
     let d10 := if portType p = .b ∧ remote = false ∧ ab d9 (macPage p) 0x80 6 = true then emit d9 (.remoteFault p) else d9
     if running d10 (phyPage p) then phyStart d10 p else d10) := by
  unfold linkLossOp
  rw [h, Bool.not_true, if_neg Bool.false_ne_true]
  simp only [Bool.not_eq_true']

theorem linkLossOp_down {d : Dev} {p : Nat} (remote : Bool) (h : linkIsUp d p = false) : linkLossOp d p remote = d := by
  unfold linkLossOp
  rw [h, Bool.not_false, if_pos rfl]

/-! ### Link-up -/

/-- Whether the training of a link that comes up was warm (R82, R84). -/
def warmUp (d : Dev) (p speed : Nat) (isMaster warm : Bool) : Bool :=
  warmTrying d p && !warmPast d p (warmWindow d p + 1) && warm && (decide (p < 4) || (portSt d p).record == some (speed, isMaster))

theorem warmSettle_warm (d : Dev) (p speed : Nat) (isMaster warm : Bool) :
    (warmSettle d p speed isMaster warm).2 = warmUp d p speed isMaster warm := by
  unfold warmSettle warmUp
  cases warmTrying d p <;> cases warmPast d p (warmWindow d p + 1) <;> cases warm <;>
    cases (decide (p < 4) || (portSt d p).record == some (speed, isMaster)) <;> rfl

theorem rd_ite (c : Prop) [Decidable c] (a b : Dev) (pg : Page) (off : Nat) :
    rd (if c then a else b) pg off = if c then rd a pg off else rd b pg off := apply_ite (rd · pg off) c a b

theorem rd_setPort (d : Dev) (p : Nat) (x : PortSt) (pg : Page) (off : Nat) : rd (setPort d p x) pg off = rd d pg off :=
  rd_of_regs (setPort_regs d p x) pg off

/-- The last steps of a link-up: PLCA begins, the change is raised, verification begins. -/
def linkUpEnd (d : Dev) (p : Nat) : Dev := verifyStart (irq (plcaBegin d p) (macPage p) 0) p

theorem rd_linkUpEnd (d : Dev) (p : Nat) {pg : Page} {off : Nat} (h1 : (macPage p).base + 0xb0 ≠ pg.base + off)
    (h2 : (macPage p).base + 0x20 ≠ pg.base + off) (h3 : (phyPage p).base + 0xe0 ≠ pg.base + off) : rd (linkUpEnd d p) pg off = rd d pg off :=
  (rd_verifyPut _ p _ h1 h2).trans ((rd_irq_far _ _ h2).trans (rd_plcaBegin _ p h3))

theorem rb_linkUpEnd (d : Dev) (p : Nat) : rb (linkUpEnd d p) (macPage p) 0x20 0 = true :=
  (rb_verifyPut_raw _ p _ 0 (by decide)).trans (rb_irq_same _ _ 0 (by decide))

/-- The credits of a port are forgotten (R189). -/
def creditsDropped (d : Dev) (p : Nat) : Dev := { d with credits := d.credits.filter fun e => e.1 / 8 != p }

theorem rd_creditsDropped (d : Dev) (p : Nat) (pg : Page) (off : Nat) : rd (creditsDropped d p) pg off = rd d pg off :=
  rd_of_regs (show (creditsDropped d p).regs = d.regs from rfl) pg off

/-- What the registers of the port's pages hold before the last steps, `d` the device after the end of a warm attempt and `w` whether it
was warm. -/
def linkUpRegs (d : Dev) (p speed : Nat) (isMaster w : Bool) (lat : W64) : Dev :=
  let s := portSt d p
  let d0 := wr d (macPage p) 0xb8 (mkWord [(0, 1), (1, speed), (5, isMaster.toNat), (6, w.toNat)])
  let d1 := if portType p = .b then d0 else wr d0 (tsPage p) 0x88 lat
  let d3 := setPort (creditsDropped d1 p) p { s with warmFrom := none, fallback := false, emptyFrom := d.now }
  let d4 := if w then cnt d3 (phyPage p) 0x200 1 else d3
  let d5 := if warmPort p then wf d4 (phyPage p) 0xa8 1 2 (if w then 1 else if s.fallback then 2 else 3) else d4
  let an := portType p == .m || portType p == .g
  wf (wr d5 (phyPage p) 0x80 (mkWord [(0, 1), (1, (portType p == .b).toNat), (3, (an && rb d5 (macPage p) 0x88 8 && !w).toNat)])) (phyPage p) 0xc8 0 3 0

theorem linkUpOp_eq {d : Dev} {p : Nat} (speed : Nat) (isMaster warm : Bool) (lat : W64) (hl : linkIsUp d p = false)
    (hr : running d (phyPage p) = true) (hj : (portSt d p).jabber = false) : linkUpOp d p speed isMaster warm lat =
      linkUpEnd (linkUpRegs (warmSettle d p speed isMaster warm).1 p speed isMaster (warmUp d p speed isMaster warm) lat) p := by
  rw [← warmSettle_warm]
  unfold linkUpOp
  rw [hl, hr, hj, if_neg (by decide)]
  rfl

section
variable (d : Dev) (p speed : Nat) (isMaster w : Bool) (lat : W64)

theorem rd_linkUpRegs_stat : rd (linkUpRegs d p speed isMaster w lat) (macPage p) 0xb8 =
    mkWord [(0, 1), (1, speed), (5, isMaster.toNat), (6, w.toNat)] := by
  obtain ⟨h1, h2⟩ := portPage_bases p
  unfold linkUpRegs wf cnt
  simp (disch := omega) only [rd_wr_far, rd_ite, rd_setPort, rd_creditsDropped, rd_wr_same, ite_self]

theorem rd_linkUpRegs_latency (hb : portType p ≠ .b) : rd (linkUpRegs d p speed isMaster w lat) (tsPage p) 0x88 = lat := by
  obtain ⟨h1, h2⟩ := portPage_bases p
  unfold linkUpRegs wf cnt
  simp (disch := omega) only [rd_wr_far, rd_ite, rd_setPort, rd_creditsDropped, rd_wr_same, ite_self, if_neg hb]

theorem rb_linkUpRegs_phy : rb (linkUpRegs d p speed isMaster w lat) (phyPage p) 0x80 0 = true := by
  unfold linkUpRegs rb
  dsimp only
  rw [rd_wf_off _ _ _ _ _ (by decide), rd_wr_same]
  generalize (portType p == PortType.b).toNat = x
  generalize Bool.toNat _ = y
  simp [mkWord, bit]

theorem rf_linkUpRegs_warm (hw : warmPort p = true) : rf (linkUpRegs d p speed isMaster true lat) (phyPage p) 0xa8 1 2 = 1 := by
  unfold linkUpRegs rf
  dsimp only
  rw [rd_wf_off _ _ _ _ _ (by decide), rd_wr_off _ _ _ (by decide), if_pos hw, if_pos rfl]
  exact rf_wf_same _ _ _ _ _ _ (by decide)

end

theorem warmUp_port {d : Dev} {p speed : Nat} {isMaster warm : Bool} (h : warmUp d p speed isMaster warm = true) : warmPort p = true := by
  unfold warmUp warmTrying at h
  simp only [Bool.and_eq_true] at h
  tauto

/-- A link comes up while the PHY runs and no jabber has silenced the port. -/
theorem linkUpOp_comes {d : Dev} {p : Nat} (speed : Nat) (isMaster warm : Bool) (lat : W64) (hl : linkIsUp d p = false)
    (hr : running d (phyPage p) = true) (hj : (portSt d p).jabber = false) :
    let d' := linkUpOp d p speed isMaster warm lat
    let w := warmUp d p speed isMaster warm
    rd d' (macPage p) 0xb8 = mkWord [(0, 1), (1, speed), (5, isMaster.toNat), (6, w.toNat)]
    ∧ rb d' (macPage p) 0x20 0 = true
    ∧ (portType p ≠ .b → rd d' (tsPage p) 0x88 = lat)
    ∧ rb d' (phyPage p) 0x80 0 = true
    ∧ (w = true → rf d' (phyPage p) 0xa8 1 2 = 1) := by
  intro d' w
  obtain ⟨h1, h2⟩ := portPage_bases p
  have he : d' = linkUpEnd (linkUpRegs (warmSettle d p speed isMaster warm).1 p speed isMaster w lat) p := linkUpOp_eq speed isMaster warm lat hl hr hj
  refine ⟨?_, ?_, fun hb => ?_, ?_, fun hw => ?_⟩
  · rw [he, rd_linkUpEnd _ _ (by omega) (by omega) (by omega), rd_linkUpRegs_stat]
  · rw [he, rb_linkUpEnd]
  · rw [he, rd_linkUpEnd _ _ (by omega) (by omega) (by omega), rd_linkUpRegs_latency _ _ _ _ _ _ hb]
  · unfold rb
    rw [he, rd_linkUpEnd _ _ (by omega) (by omega) (by omega)]
    exact rb_linkUpRegs_phy ..
  · unfold rf
    rw [he, rd_linkUpEnd _ _ (by omega) (by omega) (by omega), hw]
    exact rf_linkUpRegs_warm _ _ _ _ _ (warmUp_port hw)

theorem mergeVerifyOp_runs {d : Dev} {p : Nat} (ok : Bool) (h : rf d (macPage p) 0xb0 0 2 = 1) : mergeVerifyOp d p ok =
    irq (mergeUpdate (wf d (macPage p) 0xb0 0 2 (if ok then 2 else 3)) p) (macPage p) 1 := by
  unfold mergeVerifyOp verifyPut
  dsimp only
  rw [if_pos h, if_neg (by rw [h]; cases ok <;> decide)]

/-- Settles O23: link loss and link-up step by step, and the end of the verification. -/
theorem linkChangesAct : Obligations.LinkChangesAct := by
  intro s t p d pg ph
  have hd : devAt s.dev t = d := rfl
  clear_value d
  refine ⟨fun h => ⟨linkDown_up h, fun remote => ?_⟩, fun h remote => ?_, fun speed isMaster warm lat hsp hl hr hj => ?_, fun h ok => ?_, fun h ok => ?_⟩
  · refine lands_congr (hd ▸ lands_linkLoss t ⟨p, remote⟩ s) ((linkLossOp_up remote h).trans ?_)
    rw [linkDown_up h]
  · exact lands_congr (hd ▸ lands_linkLoss t ⟨p, remote⟩ s) (linkLossOp_down remote h)
  · exact ⟨_, hd ▸ lands_linkUp t p speed isMaster warm lat s hsp, linkUpOp_comes speed isMaster warm lat hl hr hj⟩
  · exact lands_congr (hd ▸ lands_mergeVerify t p ok s) (mergeVerifyOp_runs ok h)
  · exact lands_congr (hd ▸ lands_mergeVerify t p ok s) (if_neg h)

/-! ### Warm relink -/

theorem portSt_setPort (d : Dev) (p k : Nat) (x : PortSt) : portSt (setPort d p x) k = if p = k then x else portSt d k := by
  unfold portSt setPort kvD
  dsimp only
  split
  · rename_i h; subst h; rw [kvGet_kvPut_same]; rfl
  · rename_i h; rw [kvGet_kvPut_other _ _ h]

/-- A port whose record, if it has one, is in the configuration store. -/
def recordFlashed (x : PortSt) : PortSt := { x with recFlash := if x.record.isSome then x.record else x.recFlash }

theorem recordFlashed_twice (x : PortSt) : recordFlashed (recordFlashed x) = recordFlashed x := by
  unfold recordFlashed
  cases x.record <;> rfl

theorem recordFlashed_none {x : PortSt} (h : x.record = none) : recordFlashed x = x := by
  cases x
  cases h
  rfl

/-- The record of one port copied to the configuration store. -/
def flashRecord (d : Dev) (p : Nat) : Dev :=
  match (portSt d p).record with
  | some r => setPort d p { portSt d p with recFlash := some r }
  | none => d

theorem portSt_flashRecord (d : Dev) (p k : Nat) : portSt (flashRecord d p) k = if p = k then recordFlashed (portSt d k) else portSt d k := by
  unfold flashRecord
  cases hr : (portSt d p).record with
  | some r =>
    dsimp only
    rw [portSt_setPort]
    split
    · rename_i h; subst h; unfold recordFlashed; rw [hr]; rfl
    · rfl
  | none =>
    dsimp only
    split
    · rename_i h; subst h; rw [recordFlashed_none hr]
    · rfl

theorem portSt_flashRecords (l : List Nat) (k : Nat) : ∀ d : Dev,
    portSt (l.foldl flashRecord d) k = if k ∈ l then recordFlashed (portSt d k) else portSt d k := by
  induction l with
  | nil => intro d; rfl
  | cons p l ih =>
    intro d
    rw [List.foldl_cons, ih, portSt_flashRecord]
    by_cases hp : p = k
    · subst hp; simp [recordFlashed_twice]
    · simp [hp, Ne.symm hp]

theorem recordsToFlash_eq (d : Dev) : recordsToFlash d = (List.range 26).foldl flashRecord d := rfl

theorem rowAt_phyWarm (p : Fin 26) (h : warmPort p.val = true) : (phyPage p.val).rowAt 0xa0 =
    some ⟨0xa0, 1, 0x8, [⟨0, 1, .rw, 1⟩, ⟨1, 1, .w1s, 0⟩, ⟨2, 1, .w1s, 0⟩, ⟨4, 8, .rw, 0x18⟩, ⟨12, 3, .rw, 5⟩, ⟨16, 16, .rw, 0x18⟩]⟩ := by
  revert p; decide

/-- An accepted write that sets bits of a register of a PHY page above its header. -/
theorem regBits_phy (mem : List Host.Cell) {d : Dev} {m : Master} (p : Fin 26) (h : Accepts d m (phyPage p.val)) {off : Nat} (set : W64)
    (h8 : off % 8 = 0) (hl : 0x80 ≤ off) (hs : off < 0x800) : regBits mem d m (phyPage p.val) off set 0 =
      portWrite d (portFin p.val) 1 off (((rd d (phyPage p.val) off &&& keepBits (phyPage p.val) off) ||| set) &&& ~~~0) := by
  rw [regBits_set _ _ _ _ _ _ h h8 (.inl hs)]
  unfold regWrite
  exact if_neg (by omega)

/-- Every other writable field of PHY_WARM_CTRL keeps its value; SAVE and FLUSH read as 0. -/
theorem keepBits_phyWarm (p : Fin 26) (h : warmPort p.val = true) : keepBits (phyPage p.val) 0xa0 = 0xffff7ff1 := by
  unfold keepBits
  rw [rowAt_phyWarm p h]
  decide

theorem regBits_phyWarm (mem : List Host.Cell) {d : Dev} {m : Master} (p : Fin 26) (h : Accepts d m (phyPage p.val)) (hw : warmPort p.val = true)
    (set : W64) (hs : set = 2 ∨ set = 4) : regBits mem d m (phyPage p.val) 0xa0 set 0 =
      (let e := rewritten d (phyPage p.val) 0xa0
       if set = 2 then warmSaveOp e p.val else warmFlushOp e p.val) := by
  have hf : writeFields d (phyPage p.val) 0xa0 (((rd d (phyPage p.val) 0xa0 &&& keepBits (phyPage p.val) 0xa0) ||| set) &&& ~~~0) =
      rewritten d (phyPage p.val) 0xa0 := by
    rcases hs with rfl | rfl <;> exact writeFields_act _ _ _ _ _ (rowAt_phyWarm p hw) (by decide)
  have hb : ∀ i, i = 1 ∨ i = 2 → bit (((rd d (phyPage p.val) 0xa0 &&& keepBits (phyPage p.val) 0xa0) ||| set) &&& ~~~0) i = bit set i := by
    rintro i (rfl | rfl) <;> rw [bit_act, keepBits_phyWarm p hw] <;>
      simp only [show bit (0xffff7ff1 : W64) 1 = false by decide, show bit (0xffff7ff1 : W64) 2 = false by decide, Bool.and_false, Bool.false_or]
  rw [regBits_phy mem p h set (by decide) (by decide) (by decide)]
  unfold portWrite
  dsimp only
  have hpp : Page.port (portFin p.val) 1 = phyPage p.val := rfl
  rw [hpp, hf, hb 1 (.inl rfl), hb 2 (.inr rfl), portFin_val, if_neg (by omega), if_neg (by decide), if_pos (by decide), if_neg (by decide),
    if_pos ⟨rfl, hw⟩]
  rcases hs with rfl | rfl
  · rw [show bit (2 : W64) 1 = true by decide, show bit (2 : W64) 2 = false by decide, if_pos rfl, if_neg Bool.false_ne_true, if_pos rfl]
  · rw [show bit (4 : W64) 1 = false by decide, show bit (4 : W64) 2 = true by decide, if_neg Bool.false_ne_true, if_pos rfl, if_neg (by decide)]

theorem warmSaveOp_up {d : Dev} {p : Nat} (hw : warmPort p = true) (h : linkIsUp d p = true) : warmSaveOp d p =
    recordsToFlash (setRecord d p (some (rf d (macPage p) 0xb8 1 4, rb d (macPage p) 0xb8 5))) := by
  unfold warmSaveOp saveRecord
  simp only [hw, h, Bool.not_true, Bool.false_eq_true, if_false, if_true]

/-- MAC_LINK_STAT while a register of the PHY page is stored again. -/
theorem rd_rewritten_phy (d : Dev) (p off off' : Nat) (h : off < 0x1000) (h' : off' < 0x1000) :
    rd (rewritten d (phyPage p) off) (macPage p) off' = rd d (macPage p) off' :=
  rd_wr_far d _ (by have := (portPage_bases p).1; omega)

/-- A warm attempt in progress that has not reached an instant, or has. -/
theorem warmPast_of {d : Dev} {p n : Nat} {x : Instant} (h : (portSt d p).warmFrom = some x) : warmPast d p n = decide (x + n ≤ d.now) := by
  unfold warmPast; rw [h]

/-- Settles O24: the writes of PHY_WARM_CTRL, the copy of the records port by port, and the causes of a fallback. -/
theorem warmRelinkActs : Obligations.WarmRelinkActs := by
  refine ⟨fun x k => ?_, fun s t p => ?_⟩
  · rw [recordsToFlash_eq, portSt_flashRecords, if_pos (List.mem_range.mpr k.isLt)]
    rfl
  intro d ph e
  have hd : devAt s.dev t = d := rfl
  clear_value d
  refine ⟨fun m hw ha => ⟨fun hl => ?_, ?_⟩, fun ht => ?_⟩
  · refine lands_congr (hd ▸ lands_phyWarmSave t m p s) ((regBits_phyWarm _ p ha hw 2 (.inl rfl)).trans ?_)
    have hr := rd_rewritten_phy d p.val 0xa0 0xb8 (by decide) (by decide)
    dsimp only
    rw [if_pos rfl, warmSaveOp_up hw ((congrArg (bit · 0) hr).trans hl)]
    unfold rf rb
    rw [hr]
  · refine lands_congr (hd ▸ lands_phyWarmFlush t m p s) ((regBits_phyWarm _ p ha hw 4 (.inr rfl)).trans ?_)
    exact if_pos hw
  intro fall
  refine ⟨fun hp => ?_, fun echo sqi ppm hp hc => ?_, fun echo sqi ppm h1 h2 h3 => ?_, fun x hx => ?_⟩
  · exact lands_congr (hd ▸ lands_warmFbPartner t p s) (if_pos ⟨ht, hp⟩)
  · exact lands_congr (hd ▸ lands_fingerprintCheck t p echo sqi ppm s) (if_pos ⟨ht, hp, hc⟩)
  · refine lands_congr (hd ▸ lands_fingerprintCheck t p echo sqi ppm s) (if_neg ?_)
    rintro ⟨-, -, h | h | h⟩
    · exact absurd h (Nat.not_lt.mpr h1)
    · exact absurd h (Nat.not_lt.mpr h2)
    · exact absurd h (Nat.not_lt.mpr h3)
  · refine ⟨fun h => ?_, fun h => ?_, fun hp h => ?_, fun h => ?_⟩
    · exact lands_congr (hd ▸ lands_warmTimeout t p s) (if_pos ⟨ht, by rw [warmPast_of hx]; exact decide_eq_true h⟩)
    · refine lands_congr (hd ▸ lands_warmTimeout t p s) (if_neg ?_)
      rw [warmPast_of hx, decide_eq_true_iff]
      exact fun h' => absurd h'.2 (Nat.not_le.mpr h)
    · exact lands_congr (hd ▸ lands_blockLockTimeout t p s) (if_pos ⟨ht, hp, by rw [warmPast_of hx]; exact decide_eq_true h⟩)
    · refine lands_congr (hd ▸ lands_blockLockTimeout t p s) (if_neg ?_)
      rw [warmPast_of hx, decide_eq_true_iff]
      exact fun h' => absurd h'.2.2 (Nat.not_le.mpr h)

end Sys2Proof.Machine
end

section
/-! PROOF. The segments of the S ports, TC10, cable diagnostics and SQI (spec ch. 3, R86 to R99). -/

namespace Sys2Proof.Machine
open Safety

/-! ### S segments -/

/-- The counter of a kind of noise event. -/
def noiseCtr : NoiseKind → Nat
  | .symErr => 0x268
  | .esdErr => 0x270
  | .emptyCarrier => 0x278

section
variable {d : Dev} {p : Nat} (hs : portType p = .s) (hr : running d (phyPage p) = true)
include hs hr

theorem beaconOp_plca (ha : ab d (phyPage p) 0xd8 0 = true) (hl : linkIsUp d p = true) : beaconOp d p =
    if coordinator d p then plcaLatch (irq (wb (cnt d (phyPage p) 0x250 1) (phyPage p) 0xe0 2 true) (phyPage p) 1) p else plcaLatch d p := by
  unfold beaconOp
  dsimp only
  rw [if_neg (by simp [hs, hr, ha, hl])]

theorem beaconLossOp_due (ha : ab d (phyPage p) 0xd8 0 = true) (hl : linkIsUp d p = true) (hc : coordinator d p = false)
    (hb : (portSt d p).beaconAt + 400 * usTicks ≤ d.now) (hx : rb d (phyPage p) 0xe0 1 = false) : beaconLossOp d p =
      irq (cnt (wb (wb d (phyPage p) 0xe0 0 false) (phyPage p) 0xe0 1 true) (phyPage p) 0x240 1) (phyPage p) 1 :=
  if_pos ⟨hs, hr, hl, ha, by rw [hc]; rfl, hb, by rw [hx]; rfl⟩

/-- A collision of a frame in transmission: counted, then another attempt or the drop. -/
theorem collisionOp_tx {f : TxFrame} (late : Bool) (hf : kvGet d.tx p = some f) : collisionOp d p late =
    (let d2 := cnt (if rb d (phyPage p) 0xe0 0 then cnt d (phyPage p) 0x248 1 else d) (macPage p) (if late then 0x1b0 else 0x1a8) 1
     if 16 ≤ f.tries + 1 then freeCopy (cnt { cbsSync d2 p with tx := kvDel d2.tx p } (macPage p) 0x1b8 1) f.copy
     else
       let k := Config.freeValue d2.frees % 2 ^ min 10 (f.tries + 1)
       let start := d.now + octetTicks (4 + 12 + 64 * k) (portRate d p)
       { d2 with frees := d2.frees + 1, tx := kvPut d2.tx p { f with
           tries := f.tries + 1, start := start, begun := start, stamp := none, ends := start + octetTicks (8 + f.total) (portRate d p) } }) := by
  have hk : kvGet (if rb d (phyPage p) 0xe0 0 then cnt d (phyPage p) 0x248 1 else d).tx p = some f := by
    rw [ite_part Dev.tx _ (cnt_tx ..) rfl, hf]
  unfold collisionOp
  rw [if_neg (by simp [hs, hr])]
  dsimp only
  rw [hk]
  rfl

theorem noiseOp_counts (k : NoiseKind) : noiseOp d p k =
    (let d1 := cnt d (phyPage p) (noiseCtr k) 1
     let l := ((portSt d1 p).noise.filter fun x => decide (d.now < x + noiseWindow d p)) ++ [d.now]
     let d2 := setPort d1 p { portSt d1 p with noise := l }
     if af d2 (phyPage p) 0xe8 0 16 < l.length then irq (raise d2 (phyPage p) 0) (phyPage p) 3 else d2) := by
  unfold noiseOp
  rw [if_neg (by simp [hs, hr])]
  cases k <;> rfl

theorem jabberTxOp_tx {f : TxFrame} (hf : kvGet d.tx p = some f) (hj : (portSt d p).jabber = false) : jabberTxOp d p =
    if f.start + 2 * msTicks ≤ d.now then
      (let d1 := raise (cnt (linkDown d p) (phyPage p) 0x288 1) (phyPage p) 1
       setPort d1 p { portSt d1 p with jabber := true })
    else d := by
  unfold jabberTxOp
  rw [hf, hj]
  simp only [hs, hr, Bool.not_false, decide_eq_true_eq, true_and]

end

/-- Settles O25: the events of a segment by their conditions. -/
theorem sharedSegmentEventsAct : Obligations.SharedSegmentEventsAct := by
  intro s t p d ph
  have hd : devAt s.dev t = d := rfl
  clear_value d
  intro hs hr
  refine ⟨fun ha hl => ?_, fun late f hf => ?_, fun k => ?_, ?_, fun f hf hj => ⟨fun h => ?_, fun h => ?_⟩⟩
  · intro node seen
    have hB := lands_congr (hd ▸ lands_plcaBeacon t p s) (beaconOp_plca hs hr ha hl)
    have hN : node ≠ 0 → coordinator d p.val = false := fun h => beq_false_of_ne h
    refine ⟨fun h => lands_congr hB (if_pos (beq_iff_eq.mpr h)), fun h => lands_congr hB (if_neg (by rw [hN h]; exact Bool.false_ne_true)),
      fun h hb hx => ?_, fun h => ?_⟩
    · exact lands_congr (hd ▸ lands_plcaBeaconLoss t p s) (beaconLossOp_due hs hr ha hl (hN h) hb hx)
    · exact lands_congr (hd ▸ lands_plcaBeaconLoss t p s) (if_neg fun h' => absurd h'.2.2.2.2.2.1 (Nat.not_le.mpr h))
  · intro d2
    have hC := lands_congr (hd ▸ lands_plcaCollision t p late s) (collisionOp_tx hs hr late hf)
    exact ⟨fun h => lands_congr hC (if_neg (Nat.not_le.mpr h)), fun h => lands_congr hC (if_pos h)⟩
  · refine lands_congr (hd ▸ lands_noiseEvent t p k s) ((noiseOp_counts hs hr k).trans ?_)
    cases k <;> rfl
  · exact lands_congr (hd ▸ lands_jabberRx t p s) (if_pos ⟨hs, hr⟩)
  · exact lands_congr (hd ▸ lands_jabberTx t p s) ((jabberTxOp_tx hs hr hf hj).trans (if_pos h))
  · exact lands_congr (hd ▸ lands_jabberTx t p s) ((jabberTxOp_tx hs hr hf hj).trans (if_neg (Nat.not_le.mpr h)))

/-! ### TC10 -/

theorem rowAt_phyTc10 (p : Fin 26) (h : tc10Port p.val = true) : (phyPage p.val).rowAt 0xc0 =
    some ⟨0xc0, 1, 0x8, [⟨0, 1, .w1s, 0⟩, ⟨1, 1, .rw, 0⟩, ⟨2, 1, .w1s, 0⟩]⟩ := by
  revert p; decide

theorem keepBits_phyTc10 (p : Fin 26) (h : tc10Port p.val = true) : keepBits (phyPage p.val) 0xc0 = 2 := by
  unfold keepBits
  rw [rowAt_phyTc10 p h]
  decide

theorem portWrite_tc10 (d : Dev) (p : Fin 26) (v : W64) : portWrite d (portFin p.val) 1 0xc0 v =
    (let d1 := writeFields d (phyPage p.val) 0xc0 v
     let d2 := if bit v 0 then tc10ReqOp d1 p.val else d1
     if bit v 2 then tc10WurOp d2 p.val else d2) := by
  unfold portWrite
  dsimp only
  rw [portFin_val, if_neg (by omega), if_neg (by decide), if_pos (by decide), if_neg (by decide), if_neg fun h => absurd h.1 (by decide),
    if_neg (by decide), if_pos rfl]
  rfl

theorem portWrite_diag (d : Dev) (p : Fin 26) (v : W64) : portWrite d (portFin p.val) 1 0xb0 v = if bit v 0 then diagStartOp d p.val else d := by
  unfold portWrite
  dsimp only
  rw [portFin_val, if_neg (by omega), if_neg (by decide), if_pos (by decide), if_neg (by decide), if_neg fun h => absurd h.1 (by decide),
    if_pos rfl]

/-- SLEEP_REQ or WUR set by an accepted write of PHY_TC10_CTRL. -/
theorem regBits_phyTc10 (mem : List Host.Cell) {d : Dev} {m : Master} (p : Fin 26) (h : Accepts d m (phyPage p.val)) (hw : tc10Port p.val = true)
    (set : W64) (hs : set = 1 ∨ set = 4) : regBits mem d m (phyPage p.val) 0xc0 set 0 =
      (let e := rewritten d (phyPage p.val) 0xc0
       if set = 1 then tc10ReqOp e p.val else tc10WurOp e p.val) := by
  have hf : writeFields d (phyPage p.val) 0xc0 (((rd d (phyPage p.val) 0xc0 &&& keepBits (phyPage p.val) 0xc0) ||| set) &&& ~~~0) =
      rewritten d (phyPage p.val) 0xc0 := by
    rcases hs with rfl | rfl <;> exact writeFields_act _ _ _ _ _ (rowAt_phyTc10 p hw) (by decide)
  have hb : ∀ i, i = 0 ∨ i = 2 → bit (((rd d (phyPage p.val) 0xc0 &&& keepBits (phyPage p.val) 0xc0) ||| set) &&& ~~~0) i = bit set i := by
    rintro i (rfl | rfl) <;> rw [bit_act, keepBits_phyTc10 p hw] <;>
      simp only [show bit (2 : W64) 0 = false by decide, show bit (2 : W64) 2 = false by decide, Bool.and_false, Bool.false_or]
  rw [regBits_phy mem p h set (by decide) (by decide) (by decide), portWrite_tc10]
  dsimp only
  rw [hf, hb 0 (.inl rfl), hb 2 (.inr rfl)]
  rcases hs with rfl | rfl
  · rw [show bit (1 : W64) 0 = true by decide, show bit (1 : W64) 2 = false by decide, if_pos rfl, if_neg Bool.false_ne_true, if_pos rfl]
  · rw [show bit (4 : W64) 0 = false by decide, show bit (4 : W64) 2 = true by decide, if_neg Bool.false_ne_true, if_pos rfl, if_neg (by decide)]

theorem tc10ReqOp_up {d : Dev} {p : Nat} (ht : tc10Port p = true) (hl : linkIsUp d p = true) : tc10ReqOp d p =
    emit (wf (setPort d p { portSt d p with tc10From := some d.now }) (phyPage p) 0xc8 0 3 1) (.tc10 p 0) := if_pos ⟨ht, hl⟩

theorem tc10TimeoutOp_due {d : Dev} {p : Nat} {x : Instant} (hw : rf d (phyPage p) 0xc8 0 3 = 1) (hx : (portSt d p).tc10From = some x)
    (h : x + 16 * msTicks ≤ d.now) : tc10TimeoutOp d p = cnt (tc10Put d p 5) (phyPage p) 0x298 1 := by
  unfold tc10TimeoutOp
  rw [hx]
  exact if_pos ⟨hw, decide_eq_true h⟩

section
variable {d : Dev} {p : Nat} (ht : tc10Port p = true) (hl : linkIsUp d p = true)
include ht hl

theorem tc10PartnerOp_crosses (hw : rf d (phyPage p) 0xc8 0 3 = 1) : tc10PartnerOp d p = cnt (tc10Sleep d p) (phyPage p) 0x290 1 := by
  unfold tc10PartnerOp
  rw [ht, hl, if_neg (by decide), if_pos hw]

theorem tc10PartnerOp_answers (hw : rf d (phyPage p) 0xc8 0 3 ≠ 1) : tc10PartnerOp d p =
    if rb d (phyPage p) 0xc0 1 && !(queued d (quayOfPort p)).any (·.2.port == p) then emit (tc10Sleep (wf d (phyPage p) 0xc8 0 3 2) p) (.tc10 p 2)
    else emit (irq d (phyPage p) 5) (.tc10 p 3) := by
  unfold tc10PartnerOp
  rw [ht, hl, if_neg (by decide), if_neg hw]

end

/-- Settles O26: the requests of software, their answers, and those of the partner. -/
theorem tc10Acts : Obligations.Tc10Acts := by
  intro s t p d ph e sleep waits
  have hd : devAt s.dev t = d := rfl
  clear_value d
  refine ⟨fun m ht hl ha => ⟨?_, ?_⟩, fun hw => ⟨?_, ?_, fun x hx h => ?_⟩, fun ht hl hw => ?_, fun ht hl hw => ⟨fun hb hn => ?_, fun hb => ?_⟩⟩
  · have hu : linkIsUp e p.val = true := (congrArg (bit · 0) (rd_rewritten_phy d p.val 0xc0 0xb8 (by decide) (by decide))).trans hl
    refine lands_congr (hd ▸ lands_tc10SleepReq t m p s) ((regBits_phyTc10 _ p ha ht 1 (.inl rfl)).trans ((if_pos rfl).trans ?_))
    have hn : e.now = d.now := wr_now ..
    rw [tc10ReqOp_up ht hu, hn]
  · have hu : linkIsUp e p.val = true := (congrArg (bit · 0) (rd_rewritten_phy d p.val 0xc0 0xb8 (by decide) (by decide))).trans hl
    exact lands_congr (hd ▸ lands_tc10Wur t m p s) ((regBits_phyTc10 _ p ha ht 4 (.inr rfl)).trans ((if_neg (by decide)).trans (if_pos ⟨ht, hu⟩)))
  · exact lands_congr (hd ▸ lands_tc10SleepAck t p s) (if_pos hw)
  · exact lands_congr (hd ▸ lands_tc10SleepReject t p s) (if_pos hw)
  · exact lands_congr (hd ▸ lands_tc10SleepTimeout t p s) (tc10TimeoutOp_due hw hx h)
  · exact lands_congr (hd ▸ lands_tc10PartnerSleepRequest t p s) (tc10PartnerOp_crosses ht hl hw)
  · refine lands_congr (hd ▸ lands_tc10PartnerSleepRequest t p s) ((tc10PartnerOp_answers ht hl hw).trans (if_pos ?_))
    exact Bool.and_eq_true_iff.mpr ⟨hb, (congrArg (!·) hn).trans rfl⟩
  · refine lands_congr (hd ▸ lands_tc10PartnerSleepRequest t p s) ((tc10PartnerOp_answers ht hl hw).trans (if_neg fun h => ?_))
    obtain ⟨h1, h2⟩ := Bool.and_eq_true_iff.mp h
    rcases hb with hb | hb
    · exact Bool.false_ne_true (hb.symm.trans h1)
    · exact Bool.false_ne_true ((congrArg (!·) hb).symm.trans h2)

/-! ### Cable diagnostics and SQI -/

/-- An accepted write of START is the start of the cable test. -/
theorem regBits_phyDiag (mem : List Host.Cell) {d : Dev} {m : Master} (p : Fin 26) (h : Accepts d m (phyPage p.val)) :
    regBits mem d m (phyPage p.val) 0xb0 1 0 = diagStartOp d p.val := by
  rw [regBits_phy mem p h 1 (by decide) (by decide) (by decide), portWrite_diag]
  exact if_pos (by rw [bit_act, show bit (1 : W64) 0 = true by decide, Bool.or_true])

/-- The state that an outcome of the cable test shows (Table 3.13). -/
def diagState : DiagOutcome → Nat
  | .noFault => 2
  | .openLine => 3
  | .short => 4
  | .mismatch => 5
  | .aborted => 6

theorem diagDoneOp_runs {d : Dev} {p : Nat} (r : DiagOutcome) (distance loss : Nat) (h : rf d (phyPage p) 0xb8 0 3 = 1) :
    diagDoneOp d p r distance loss = irq (wr d (phyPage p) 0xb8 (mkWord
      [(0, diagState r), (8, min 4095 distance), (20, min 255 loss)]))
      (phyPage p) 4 := by
  unfold diagDoneOp
  rw [if_pos h]
  cases r <;> rfl

/-- Settles O27: the start of a test by the kind and state of the port, its end, and the measurement once in 1 ms. -/
theorem cableTestAndSqiAct : Obligations.CableTestAndSqiAct := by
  intro s t p d ph
  have hd : devAt s.dev t = d := rfl
  clear_value d
  refine ⟨fun m ha => ⟨fun hb => ?_, fun hb hx => ?_, fun hb hx => ?_⟩, fun h r distance loss => ?_, fun sqi hp hl => ⟨fun h => ?_, fun h => ?_⟩⟩
  · exact lands_congr (hd ▸ lands_phyDiagStart t m p s) ((regBits_phyDiag _ p ha).trans (if_pos hb))
  · exact lands_congr (hd ▸ lands_phyDiagStart t m p s) ((regBits_phyDiag _ p ha).trans ((if_neg hb).trans (if_pos (by rw [hx]; rfl))))
  · exact lands_congr (hd ▸ lands_phyDiagStart t m p s)
      ((regBits_phyDiag _ p ha).trans ((if_neg hb).trans (if_neg (by rw [hx]; exact Bool.false_ne_true))))
  · refine lands_congr (hd ▸ lands_diagDone t p r distance loss s) ((diagDoneOp_runs r distance loss h).trans ?_)
    cases r <;> rfl
  · exact lands_congr (hd ▸ lands_sqiUpdate t p sqi s) (if_pos ⟨hp, hl, h⟩)
  · exact lands_congr (hd ▸ lands_sqiUpdate t p sqi s) (if_neg fun h' => absurd h'.2.2 (Nat.not_le.mpr h))

end Sys2Proof.Machine
end

section
/-! PROOF. Reception and the decisions that drop a frame (spec ch. 3 and 4, R74, R101, R102, R110, R130, R142, R144). -/

namespace Sys2Proof.Machine
open Safety

/-! ### Headers -/

theorem headerOp_internal {d : Dev} {p : Nat} (f : EthFrame) (ha : rxAccepts d p = true) (hp : p = 26 ∨ p = 27) :
    headerOp d p f = present d { fid := 0, port := p, ready := 0, frame := f } := by
  unfold headerOp
  rw [ha, if_neg (by simp; omega), if_pos (by omega)]

theorem headerOp_eth {d : Dev} {p : Nat} (f : EthFrame) (ha : rxAccepts d p = true) (hp : p < 26) :
    headerOp d p f = headerOp.headerIn (mediaCount d p f.media) p f := by
  unfold headerOp
  rw [ha, if_neg (by simp; omega), if_neg (by omega)]

theorem headerIn_preamble {d : Dev} {p : Nat} {f : EthFrame} (hc : ab d (macPage p) 0x80 5 = true) (hf : f.preambleOk = false) :
    headerOp.headerIn d p f = cnt (rxGone d p 1 f) (macPage p) 0x128 1 :=
  if_pos ⟨hc, by rw [hf]; rfl⟩

theorem headerIn_runt {d : Dev} {p : Nat} {f : EthFrame} (hf : f.preambleOk = true) (hl : f.octets.length + 4 < 64) :
    headerOp.headerIn d p f = cnt (rxGone d p 1 f) (macPage p) 0x118 1 := by
  unfold headerOp.headerIn
  rw [if_neg (by simp [hf]), if_pos hl]

/-- A frame that neither MACsec nor the node check of a segment concerns becomes a ready header. -/
theorem headerIn_ready {d : Dev} {p : Nat} {f : EthFrame} (hf : f.preambleOk = true) (hl : 60 ≤ f.octets.length)
    (hm : macsecHead d p f.octets = (some f.octets, d)) (hn : nodeClass d p f = 0) (hx : macsecRxForce d p = false) :
    headerOp.headerIn d p f =
      (let r : RxFrame := { fid := d.nextFid, octets := f.octets, preempt := f.preemptable && mergeActive d p, len := f.octets.length + 4, media := f.media }
       pushReady (setPort { d with nextFid := d.nextFid + 1 } p { portSt d p with rx := (portSt d p).rx ++ [r] })
         { fid := d.nextFid, port := p, ready := d.now + 4, frame := f, stamp := rxStamp d p f }) := by
  unfold headerOp.headerIn
  rw [if_neg (by simp [hf]), if_neg (by omega), hm]
  dsimp only
  rw [hn]
  unfold nodeRecord
  simp only [if_true, ne_eq, not_true_eq_false, false_and, if_false, hx, Bool.false_eq_true, Nat.add_zero, bne_self_eq_false]

/-! ### Tails -/

/-- The tail of a frame that was not decided yet, and is no preemptable one: judged and kept. -/
theorem tailOp_undecided {d : Dev} {p : Nat} {r : RxFrame} (fcsOk : Bool) (hr : inReception (portSt d p) = some r) (hg : r.gone = 0)
    (hd : r.decided = false) (hp : r.preempt = false) : tailOp d p fcsOk =
      (let x := macTail d p (r.octets.length + 4) fcsOk
       let y := if x.2 then macsecTail x.1 p r.octets else (false, x.1)
       rxPut y.2 p { r with tailed := some y.1, tailAt := d.now }) := by
  unfold tailOp
  rw [hr]
  dsimp only
  rw [hg, hp, hd]
  rfl

theorem macTail_long {d : Dev} {p len : Nat} (fcsOk : Bool) (h : af d (macPage p) 0x90 0 14 < len) :
    macTail d p len fcsOk = (cnt d (macPage p) 0x120 1, false) := by
  unfold macTail
  rw [if_pos h]

theorem macTail_fcs {d : Dev} {p len : Nat} (h : len ≤ af d (macPage p) 0x90 0 14) : macTail d p len false = (cnt d (macPage p) 0x110 1, false) := by
  unfold macTail
  dsimp only
  rw [if_neg (by omega), if_pos (by decide)]

theorem macTail_good {d : Dev} {p len : Nat} (h : len ≤ af d (macPage p) 0x90 0 14) : macTail d p len true =
    (cnt (cnt (cnt d (macPage p) 0x100 len) (macPage p) 0x108 1) (macPage p) (sizeCnt len) 1, true) := by
  unfold macTail
  dsimp only
  rw [if_neg (by omega), if_neg (by decide)]

/-! ### Pipeline entry -/

theorem entryOp_stays {d : Dev} {n : Nat} (h : canEnter d n = false) : entryOp d n = d := by
  unfold entryOp
  rw [h]
  rfl

theorem entryOp_enters {d : Dev} {n : Nat} {h : ReadyHdr} (hn : nextReady (quay d n) = some h) (hc : canEnter d n = true) : entryOp d n =
    decided (if h.pres.isSome then entryFerry d h else admitHeader d n (entryCycle d n h) h) d.now := by
  unfold entryOp
  rw [hc, hn]
  rfl

theorem raise_quays (d : Dev) (pg : Page) (b : Nat) : (raise d pg b).quays = d.quays := by
  unfold raise raiseF
  dsimp only
  split <;> exact wb_quays d pg 0x40 b true

theorem irq_quays (d : Dev) (pg : Page) (b : Nat) : (irq d pg b).quays = d.quays :=
  irq_part Dev.quays (fun _ _ _ _ => rfl) (fun _ _ => rfl) (fun _ _ => rfl) d pg b

theorem tapSettle_quays (d : Dev) : (tapSettle d).quays = d.quays := by
  have one : ∀ d tp, (tapEnter d tp).quays = d.quays := fun d tp => by
    unfold tapEnter
    exact ite_part Dev.quays _ rfl (ite_part Dev.quays _ ((raise_quays ..).trans ((irq_quays ..).trans (cnt_quays ..))) rfl)
  have all : ∀ (l : List Tap) (d : Dev), (l.foldl tapEnter d).quays = d.quays := by
    intro l
    induction l with
    | nil => intro d; rfl
    | cons tp l ih => intro d; exact (ih _).trans (one d tp)
  exact all _ _

theorem quay_of_quays {d e : Dev} (h : d.quays = e.quays) (n : Nat) : quay d n = quay e n := by
  unfold quay; rw [h]

theorem quay_setQuay (d : Dev) (n k : Nat) (x : Quay) : quay (setQuay d n x) k = if n = k then x else quay d k := by
  unfold quay setQuay kvD
  dsimp only
  split
  · rename_i h; subst h; rw [kvGet_kvPut_same]; rfl
  · rename_i h; rw [kvGet_kvPut_other _ _ h]

/-- The header that is decided next, while only one quay has one. -/
theorem pipeNext_single {d : Dev} {q : Fin 4} {e : Instant} {h : ReadyHdr} (hq : (quay d q.val).pipe = [(e, h)])
    (ho : ∀ n < 4, n ≠ q.val → (quay d n).pipe = []) : pipeNext d = some (q.val, e, h) := by
  unfold pipeNext
  revert hq ho
  revert q
  rw [Fin.forall_fin_succ, Fin.forall_fin_succ, Fin.forall_fin_succ, Fin.forall_fin_succ]
  refine ⟨fun hq ho => ?_, fun hq ho => ?_, fun hq ho => ?_, fun hq ho => ?_, fun i => i.elim0⟩
  · have h1 := ho 1 (by decide) (by decide); have h2 := ho 2 (by decide) (by decide); have h3 := ho 3 (by decide) (by decide)
    simp at hq
    simp [hq, h1, h2, h3]
  · have h0 := ho 0 (by decide) (by decide); have h2 := ho 2 (by decide) (by decide); have h3 := ho 3 (by decide) (by decide)
    simp at hq
    simp [hq, h0, h2, h3]
  · have h0 := ho 0 (by decide) (by decide); have h1 := ho 1 (by decide) (by decide); have h3 := ho 3 (by decide) (by decide)
    simp at hq
    simp [hq, h0, h1, h3]
  · have h0 := ho 0 (by decide) (by decide); have h1 := ho 1 (by decide) (by decide); have h2 := ho 2 (by decide) (by decide)
    simp at hq
    simp [hq, h0, h1, h2]

/-- A frame whose decision point is yet to come stays in the pipeline of its quay, alone. -/
theorem decided_waits {d : Dev} {q : Fin 4} {e t : Instant} {h : ReadyHdr} (hq : (quay d q.val).pipe = [(e, h)])
    (ho : ∀ n < 4, n ≠ q.val → (quay d n).pipe = []) (ht : t < e + 19) : decided d t = tapSettle d := by
  have hd : ∀ k, decideDue t k d = d := fun k => by
    cases k with
    | zero => rfl
    | succ k =>
      unfold decideDue
      rw [pipeNext_single hq ho]
      exact if_neg (Nat.not_le.mpr ht)
  unfold decided
  rw [hd]

theorem quay_admitHeader (d : Dev) (n : Nat) (e : Instant) (h : ReadyHdr) (k : Nat) : quay (admitHeader d n e h) k =
    if n = k then { quay d n with ready := (quay d n).ready.filter (·.fid != h.fid), pipe := (quay d n).pipe ++ [(e, h)], lastEnt := some e, lastPres := if 26 ≤ h.port then kvPut (quay d n).lastPres h.port h.ready else (quay d n).lastPres }
    else quay d k := by
  rw [← quay_setQuay]
  refine quay_of_quays ?_ k
  unfold admitHeader
  exact ite_part Dev.quays _ (wr_quays ..) rfl

/-- Settles O28: headers, tails and pipeline entries by their cases. -/
theorem receptionActs : Obligations.ReceptionActs := by
  intro s t d
  have hd : devAt s.dev t = d := rfl
  clear_value d
  refine ⟨fun p f hl ha => ⟨fun hp => ?_, fun hp => ?_⟩, fun p r hr hg hx hp => ?_, fun q => ⟨fun h hn hc => ?_, fun hc => ?_⟩⟩
  · exact lands_congr (hd ▸ lands_headerWindowComplete t p f s hl) (headerOp_internal f ha hp)
  · intro e
    have hL := lands_congr (hd ▸ lands_headerWindowComplete t p f s hl) (headerOp_eth f ha hp)
    exact ⟨fun hc hf => lands_congr hL (headerIn_preamble hc hf), fun hf hr => lands_congr hL (headerIn_runt hf hr),
      fun hf h60 hm hn hx => lands_congr hL (headerIn_ready hf h60 hm hn hx)⟩
  · have hL := fun ok => lands_congr (hd ▸ lands_frameTail t p ok s) (tailOp_undecided ok hr hg hx hp)
    refine ⟨fun h => lands_congr (hL false) ?_, fun h ok => lands_congr (hL ok) ?_, fun h => lands_congr (hL true) ?_⟩
    · dsimp only
      rw [macTail_fcs h]
      rfl
    · dsimp only
      rw [macTail_long ok h]
      rfl
    · dsimp only
      rw [macTail_good h]
      dsimp only
      rw [if_pos rfl]
  · intro e last d1 d2
    have hL := lands_congr (hd ▸ lands_pipelineEntry t q s) (entryOp_enters hn hc)
    have h2 : admitHeader d q.val (entryCycle d q.val h) h = d2 := rfl
    have hA : h.pres = none → Lands t (.pipelineEntry t q) s (decided d2 d.now) := fun hp =>
      lands_congr hL (by rw [hp, if_neg (by simp), h2])
    refine ⟨hA, fun hp => lands_congr hL (by rw [if_pos hp]), fun hp hq ht => ⟨_, hA hp, ?_⟩⟩
    dsimp only
    have hQ : ∀ k, quay d2 k = if q.val = k then _ else quay d k := quay_admitHeader d q.val e h
    have hP : (quay d2 q.val).pipe = [(e, h)] := by
      rw [hQ, if_pos rfl, hq q.val q.isLt]
      rfl
    have hR : (quay d2 q.val).ready = (quay d q.val).ready.filter (·.fid != h.fid) := by rw [hQ, if_pos rfl]
    rw [decided_waits hP (fun n hn hne => by rw [hQ, if_neg (Ne.symm hne), hq n hn]) ht, quay_of_quays (tapSettle_quays d2)]
    exact ⟨hP, fun x hx => by rw [hR, List.mem_filter] at hx; simpa using hx.2⟩
  · exact lands_congr (hd ▸ lands_pipelineEntry t q s) (entryOp_stays hc)

/-! ### Frames that classification, membership or zones drop -/

/-- Settles O29: the first test of the decision that fails decides the drop. -/
theorem decisionDropsAreCounted : Obligations.DecisionDropsAreCounted := by
  intro d n e h _ vw pg cfg w pa d1 d2
  refine ⟨fun hc => ?_, fun vid pcp hc => ?_⟩
  · unfold decideEth
    dsimp only
    rw [show classify (portCfg d (curView d) h.port) _ = none from hc]
  · intro seen ka d3
    refine ⟨fun hv => ?_, fun member u z hv hm => ?_, fun member u z hv hm hz => ?_⟩
    all_goals
      unfold decideEth
      dsimp only
      rw [show classify (portCfg d (curView d) h.port) _ = some (vid, pcp) from hc]
      dsimp only
    · rw [show vlanEntry (curView d).tbl vid = none from hv]
    · rw [show vlanEntry (curView d).tbl vid = _ from hv]
      exact if_pos hm
    · rw [show vlanEntry (curView d).tbl vid = _ from hv]
      refine (if_neg (by rw [hm]; decide)).trans ?_
      rw [show zoneOf (curView d).tbl h.port vid = none from hz]

end Sys2Proof.Machine
end

section
/-! PROOF. Sweeps, the flow table and workshop sessions (spec ch. 4 and 5, R115 to R165). -/

namespace Sys2Proof.Machine
open Safety

/-! ### Accepted writes of the QUAY and BWT pages -/

section
variable (mem : List Host.Cell) {d : Dev} {m : Master} {off : Nat} (h8 : off % 8 = 0) (hl : 0x80 ≤ off) (hs : off < 0x800) (v : W64)
include h8 hl hs

theorem regPut_quay {n : Fin 4} {i : Fin 3} (h : Accepts d m (.quay n i)) : regPut mem d m (.quay n i) off v = quayWrite d n i off v := by
  rw [regPut_accepts _ _ _ _ _ _ h h8 (.inl hs)]
  unfold regWrite
  exact if_neg (by omega)

theorem regPut_bwt {i : Fin 2} (h : Accepts d m (.bwt i)) : regPut mem d m (.bwt i) off v = bwtWrite d i off v := by
  rw [regPut_accepts _ _ _ _ _ _ h h8 (.inl hs)]
  unfold regWrite
  exact if_neg (by omega)

end

/-! ### Sweeps -/

theorem agePeriod_off {d : Dev} (h : rf d (.quay 0 0) 0xb0 0 16 = 0) : agePeriod d = none := if_pos h

theorem agePeriod_on {d : Dev} (h : rf d (.quay 0 0) 0xb0 0 16 ≠ 0) : agePeriod d = some (max (rf d (.quay 0 0) 0xb0 0 16) 10 * secUnits / 2) := if_neg h

theorem agingOp_off {d : Dev} (h : agePeriod d = none) : agingOp d = d := by
  unfold agingOp; rw [h]

theorem agingOp_on {d : Dev} {per : Nat} (h : agePeriod d = some per) : agingOp d =
    if locNow d < d.agedAt + per then d
    else (((d.tbl.filter fun e => 0x01400000 ≤ e.1 && e.1 < 0x01500000).map fun e => e.1 - e.1 % 16).eraseDups).foldl agingOne
      { d with agedAt := locNow d } := by
  unfold agingOp; rw [h]

/-- A write of BLOCKED frees the selected filter. -/
theorem regPut_sfState (mem : List Host.Cell) {d : Dev} {m : Master} {q : Fin 4} {v : W64} (h : Accepts d m (.quay q 0)) (hv : bit v 0 = true) :
    regPut mem d m (.quay q 0) 0xc0 v = (let i := 1024 * q.val + rf d (.quay q 0) 0xb8 0 10
      setFilter d i { filter d i with blocked := false }) := by
  have hq : quayPage q.val 0 = .quay q 0 := by
    unfold quayPage quayFin
    congr 1
    exact Fin.ext (Nat.mod_eq_of_lt q.isLt)
  rw [regPut_quay _ (by decide) (by decide) (by decide) _ h]
  unfold quayWrite sfClearOp
  dsimp only
  rw [hq, if_pos ⟨rfl, rfl⟩, if_pos hv]

/-- The sweep of a flow table of one entry that is not static and has been idle for too long. -/
theorem flowSweepOp_one {d : Dev} {a : Nat} (h : flowEntries d.tbl = [a]) (hs : bit (tIn (fullTbl d) a) 24 = false)
    (hi : flowTimeout d (tIn (fullTbl d) a) * 1000 < (locMs d % 2 ^ 32 + 2 ^ 32 - fld (tIn (fullTbl d) (a + 48)) 0 32) % 2 ^ 32) :
    flowSweepOp d = cnt (flowClear d a) (.bwt 0) 0x148 1 := by
  unfold flowSweepOp
  rw [h]
  dsimp only [List.foldl]
  rw [hs, if_pos (by rw [decide_eq_true hi]; rfl)]

/-- Settles O32: each sweep by its period and by what it finds. -/
theorem sweepsAct : Obligations.SweepsAct := by
  intro s t d
  have hd : devAt s.dev t = d := rfl
  clear_value d
  refine ⟨fun h => ?_, fun h => ⟨fun hl => ?_, fun hl => ?_⟩, fun m q v ha hv => ?_, fun fn => ?_, fun h => ?_, fun a h hs hi => ?_⟩
  · exact lands_congr (hd ▸ lands_agingSweep t s) (agingOp_off (agePeriod_off h))
  · exact lands_congr (hd ▸ lands_agingSweep t s) ((agingOp_on (agePeriod_on h)).trans (if_pos hl))
  · exact lands_congr (hd ▸ lands_agingSweep t s) ((agingOp_on (agePeriod_on h)).trans (if_neg (Nat.not_lt.mpr hl)))
  · exact lands_congr (hd ▸ lands_sfBlockedClear t m q v s) (regPut_sfState _ ha hv)
  · intro a ms gone
    refine ⟨fun h1 h2 h3 h4 => ?_, fun h => ?_⟩
    · exact lands_congr (hd ▸ lands_frerReset t fn s) (if_pos ⟨h1, by rw [h2]; exact Bool.false_ne_true, h3, h4⟩)
    · refine lands_congr (hd ▸ lands_frerReset t fn s) (if_neg ?_)
      rintro ⟨-, -, h3, h4⟩
      exact h.elim h3 (Nat.not_lt.mpr h4)
  · refine lands_congr (hd ▸ lands_flowSweep t s) ?_
    unfold flowSweepOp
    rw [h]
    rfl
  · exact lands_congr (hd ▸ lands_flowSweep t s) (flowSweepOp_one h hs hi)

/-! ### The flow table -/

theorem twrs_regs (l : List W64) : ∀ (d : Dev) (a : Nat), (twrs d a l).regs = d.regs := by
  induction l with
  | nil => exact fun _ _ => rfl
  | cons v l ih => exact fun d a => ih (twr d a v) (a + 8)

theorem flowClear_regs (d : Dev) (a : Nat) : (flowClear d a).regs = d.regs := twrs_regs _ d a

/-- Words outside a run of words that are set to 0 are as they were. -/
theorem trd_zeros_other {c : Nat} (n : Nat) : ∀ (d : Dev) (a : Nat), (∀ k < n, c ≠ a + 8 * k) → trd (twrs d a (List.replicate n 0)) c = trd d c := by
  induction n with
  | zero => exact fun _ _ _ => rfl
  | succ n ih =>
    intro d a h
    rw [List.replicate_succ, twrs, ih _ _ fun k hk => by have := h (k + 1) (by omega); omega, trd_twr, if_neg (by simpa using h 0 (by omega))]

theorem trd_zeros (n : Nat) : ∀ (d : Dev) (a : Nat), ∀ k < n, trd (twrs d a (List.replicate n 0)) (a + 8 * k) = 0 := by
  induction n with
  | zero => exact fun _ _ k hk => absurd hk (Nat.not_lt_zero k)
  | succ n ih =>
    intro d a k hk
    rw [List.replicate_succ, twrs]
    cases k with
    | zero => rw [trd_zeros_other n _ _ fun k _ => by omega, trd_twr, if_pos (by omega)]
    | succ k => rw [show a + 8 * (k + 1) = a + 8 + 8 * k by omega]; exact ih _ _ k (by omega)

theorem flowCmdOp_busy {d : Dev} (v : W64) (h : rb d (.bwt 0) 0xb8 63 = true) : flowCmdOp d v = conflict d (.bwt 0) 4 := if_pos h

/-- The command register with a command in it, BUSY clear. -/
def flowGo (d : Dev) (v : W64) (x : Nat) : Dev := wr d (.bwt 0) 0xb8 (setFld v 0 3 x &&& maskOf 0 36)

/-- A flush under way from the first bucket. -/
def flowFlush (d : Dev) (v : W64) (x : Nat) : Dev :=
  { (wb (flowGo d v x) (.bwt 0) 0xb8 63 true) with flush := some (setFld v 0 3 x, d.now, 0) }

theorem flowCmdOp_delete {d : Dev} (v : W64) (h : rb d (.bwt 0) 0xb8 63 = false) :
    flowCmdOp d (setFld v 0 3 1) = flowClear (flowGo d v 1) (0x01000000 + fld v 4 15 * 64) := by
  unfold flowCmdOp
  rw [h, if_neg Bool.false_ne_true]
  dsimp only
  rw [fld_setFld_same _ _ _ _ (by decide), fld_setFld_other _ _ (by omega), if_pos (by decide)]
  rfl

theorem flowCmdOp_flush {d : Dev} (v : W64) {x : Nat} (hx : x = 2 ∨ x = 3 ∨ x = 4) (h : rb d (.bwt 0) 0xb8 63 = false) :
    flowCmdOp d (setFld v 0 3 x) = flowFlush d v x := by
  unfold flowCmdOp
  rw [h, if_neg Bool.false_ne_true]
  dsimp only
  rw [fld_setFld_same _ _ _ _ (by decide), if_neg (by omega), if_pos (by omega)]
  rfl

theorem fld_and_mask (v : W64) {lo len hi : Nat} (h : lo + len ≤ hi) (h' : hi ≤ 64) : fld (v &&& maskOf 0 hi) lo len = fld v lo len := by
  refine fld_congr fun i hi' => ?_
  rw [BitVec.getLsbD_and, getLsbD_maskOf _ _ _ (by omega), decide_eq_true (by omega), decide_eq_true (by omega)]
  simp

theorem rf_flowGo (d : Dev) (v : W64) (x : Nat) : rf (flowGo d v x) (.bwt 0) 0xb8 0 3 = x % 8 := by
  unfold rf flowGo
  rw [rd_wr_same, fld_and_mask _ (by decide) (by decide), fld_setFld_same _ _ _ _ (by decide)]
  rfl

theorem rb_flowGo (d : Dev) (v : W64) (x : Nat) : rb (flowGo d v x) (.bwt 0) 0xb8 63 = false := by
  unfold rb flowGo bit
  rw [rd_wr_same, BitVec.getLsbD_and, getLsbD_maskOf _ _ _ (by decide)]
  simp

theorem flowFlush_regs (d : Dev) (v : W64) (x : Nat) : (flowFlush d v x).regs = (wb (flowGo d v x) (.bwt 0) 0xb8 63 true).regs := by
  unfold flowFlush
  dsimp only

theorem trd_flowGo (d : Dev) (v : W64) (x c : Nat) : trd (flowGo d v x) c = trd d c := by
  unfold flowGo trd
  rw [wr_tbl]

/-- What a flush shows while it runs; it changes no entry yet. -/
theorem flowFlush_shows (d : Dev) (v : W64) {x : Nat} (hx : x < 8) :
    rb (flowFlush d v x) (.bwt 0) 0xb8 63 = true ∧ rf (flowFlush d v x) (.bwt 0) 0xb8 0 3 = x ∧ (flowFlush d v x).tbl = d.tbl := by
  have hr : rd (flowFlush d v x) (.bwt 0) 0xb8 = setBit (rd (flowGo d v x) (.bwt 0) 0xb8) 63 true :=
    (rd_of_regs (flowFlush_regs d v x) _ _).trans (rd_wr_same (flowGo d v x) _ _ _)
  refine ⟨?_, ?_, by unfold flowFlush flowGo; dsimp only; rw [wb_tbl, wr_tbl]⟩
  · unfold rb
    rw [hr, bit_setBit_same _ _ _ (by decide)]
  · unfold rf
    rw [hr]
    exact (fld_setFld_other _ _ (by omega)).trans ((rf_flowGo d v x).trans (Nat.mod_eq_of_lt hx))

theorem regPut_flow (mem : List Host.Cell) {d : Dev} {m : Master} (h : Accepts d m (.bwt 0)) (v : W64) :
    regPut mem d m (.bwt 0) 0xb8 v = flowCmdOp d v := by
  rw [regPut_bwt _ (by decide) (by decide) (by decide) _ h]
  unfold bwtWrite
  exact (if_pos rfl).trans (if_pos rfl)

theorem flushEndOp_none {d : Dev} (h : d.flush = none) : flushEndOp d = d := by
  unfold flushEndOp
  rw [h]
  rfl

theorem flushEndOp_runs {d : Dev} {w : W64} {x : Instant} {pos : Nat} (h : d.flush = some (w, x, pos)) : flushEndOp d =
    (let left := fun a : Nat => decide (pos ≤ (a - 0x01000000) / 256 ∧ (a - 0x01000000) / 256 < 8192)
     let d1 := (flowEntries d.tbl).foldl (fun d a => if left a && flushHits d.tbl w a then flowClear d a else d) d
     wb { d1 with flush := none } (.bwt 0) 0xb8 63 false) := by
  unfold flushEndOp flushOn
  rw [h]
  rfl

/-- Settles O33: writes of BWT_FLOW_CMD by BUSY and command, and the end of a flush. -/
theorem flowCommandsAct : Obligations.FlowCommandsAct := by
  refine ⟨fun e a c => ⟨flowClear_regs e a, fun h => ?_, fun h => ?_⟩, fun s t m v => ?_⟩
  · obtain ⟨k, hk, rfl⟩ := h
    exact trd_zeros 8 e a k hk
  · exact trd_zeros_other 8 e a h
  intro d
  have hd : devAt s.dev t = d := rfl
  clear_value d
  refine ⟨fun ha => ?_, fun h => ?_, fun w x pos h => ?_⟩
  · intro go flush busy
    have hD := lands_congr (hd ▸ lands_flowDelete t m v s) (regPut_flow _ ha _)
    have hA := lands_congr (hd ▸ lands_flowFlushAll t m v s) (regPut_flow _ ha _)
    have hZ := lands_congr (hd ▸ lands_flowFlushZone t m v s) (regPut_flow _ ha _)
    have hR := lands_congr (hd ▸ lands_flowFlushRule t m v s) (regPut_flow _ ha _)
    refine ⟨fun h => ?_, fun h => ⟨lands_congr hD (flowCmdOp_busy _ h), lands_congr hA (flowCmdOp_busy _ h), lands_congr hZ (flowCmdOp_busy _ h),
      lands_congr hR (flowCmdOp_busy _ h)⟩⟩
    have hD' := lands_congr hD (flowCmdOp_delete v h)
    have hA' := lands_congr hA (flowCmdOp_flush v (.inl rfl) h)
    have hZ' := lands_congr hZ (flowCmdOp_flush v (.inr (.inl rfl)) h)
    have hR' := lands_congr hR (flowCmdOp_flush v (.inr (.inr rfl)) h)
    refine ⟨⟨hD', _, hD', ?_⟩, ⟨hA', _, hA', flowFlush_shows d v (by decide)⟩, ⟨hZ', _, hZ', flowFlush_shows d v (by decide)⟩,
      hR', _, hR', flowFlush_shows d v (by decide)⟩
    dsimp only
    refine ⟨fun k hk => trd_zeros 8 _ _ k hk, fun c hc => ?_, ?_, ?_⟩
    · exact (trd_zeros_other 8 _ _ fun k hk => by omega).trans (trd_flowGo d v 1 c)
    · unfold rb
      rw [rd_of_regs (flowClear_regs _ _)]
      exact rb_flowGo d v 1
    · unfold rf
      rw [rd_of_regs (flowClear_regs _ _)]
      exact rf_flowGo d v 1
  · exact lands_congr (hd ▸ lands_flowFlushEnd t s) (flushEndOp_none h)
  · have hE := lands_congr (hd ▸ lands_flowFlushEnd t s) (flushEndOp_runs h)
    exact ⟨hE, _, hE, rfl, rb_wb_same _ _ _ _ _ (by decide)⟩

/-! ### Workshop sessions -/

theorem diagTokenOp_served {d : Dev} {ch : Nat} {p : List Byte} (hp : privileged d ch 5 = true) (h : Served d ch 0x40 p) (hl : p.length = 256) :
    diagTokenOp d ch = (let r := diagTokenResult p (opened d ch)
      if r.1 = 0 then mboxReply (diagAccept p r.2) ch 0 []
      else mboxReply (irq (diagRecord r.2 3 r.1 0 (leNat (slice p 4 4)) (bytesWord (slice p 24 8)) 0) (.bwt 0) 3) ch (0x100 + r.1) []) := by
  unfold diagTokenOp
  rw [mboxStart_served h (some 5) (fun b hb => by cases hb; exact hp) _ (by simpa using hl)]
  dsimp only
  rcases diagTokenResult p (opened d ch) with ⟨r, d1⟩
  by_cases hr : r = 0
  · simp only [if_pos hr]
  · simp only [if_neg hr, special]

theorem mboxDiagCloseOp_served {d : Dev} {ch : Nat} {p : List Byte} (hp : privileged d ch 5 = true) (h : Served d ch 0x41 p) (hl : p.length = 1)
    (h4 : octetAt p 0 < 4) : mboxDiagCloseOp d ch = mboxReply (diagCloseOp (opened d ch) (octetAt p 0)) ch 0 [] := by
  unfold mboxDiagCloseOp
  rw [mboxStart_served h (some 5) (fun b hb => by cases hb; exact hp) _ (by simpa using hl)]
  dsimp only
  rw [if_pos h4]

/-- A session that closes: OPEN clears, the record, the interrupt. -/
theorem diagCloseOp_open {d : Dev} {s : Nat} (h : rb d (.bwt 1) (0x110 + s * 0x18) 0 = true) : diagCloseOp d s =
    irq (diagRecord (wb (diagKeep d s) (.bwt 1) (0x110 + s * 0x18) 0 false) 2 0 s (rf d (.bwt 1) (0x110 + s * 0x18) 32 32)
      (rd d (.bwt 1) (0x100 + s * 0x18)) (rd d (.bwt 1) (0x108 + s * 0x18))) (.bwt 0) 3 := if_pos h

theorem rd_diagIrq (d : Dev) (off : Nat) : rd (irq d (.bwt 0) 3) (.bwt 1) off = rd d (.bwt 1) off :=
  rd_irq_far d 3 (show 0x00300000 + 0 * 0x1000 + 0x20 ≠ 0x00300000 + 1 * 0x1000 + off by omega)

/-- After a close the session is closed and DIAG_CHANGE raised, where it was open or DIAG_CHANGE was raised already. -/
theorem diagCloseOp_closed (d : Dev) (s : Nat) (h : rb d (.bwt 1) (0x110 + s * 0x18) 0 = false → rb d (.bwt 0) 0x20 3 = true) :
    rb (diagCloseOp d s) (.bwt 1) (0x110 + s * 0x18) 0 = false ∧ rb (diagCloseOp d s) (.bwt 0) 0x20 3 = true := by
  cases ho : rb d (.bwt 1) (0x110 + s * 0x18) 0 with
  | true =>
    rw [diagCloseOp_open ho]
    refine ⟨?_, rb_irq_same _ _ _ (by decide)⟩
    unfold rb
    rw [rd_diagIrq]
    exact rb_wb_same (diagKeep d s) _ _ _ _ (by decide)
  | false =>
    have hd : diagCloseOp d s = d := if_neg (by rw [ho]; exact Bool.false_ne_true)
    rw [hd]
    exact ⟨ho, h ho⟩

/-- A write of OPEN and CLOSE of a session: what changes OPEN is recorded, CLOSE closes it. -/
theorem bwtWrite_session (d : Dev) (i : Fin 4) {v : W64} (hv : bit v 1 = true) : bwtWrite d 1 (0x110 + i.val * 0x18) v =
    (let o := 0x110 + i.val * 0x18
     let d1 := writeFields (diagKeep d i.val) (.bwt 1) o v
     let now := rb d1 (.bwt 1) o 0
     diagCloseOp (if rb d (.bwt 1) o 0 = now then d1
       else irq (diagRecord d1 (if now then 1 else 2) 0 i.val (rf d1 (.bwt 1) o 32 32) (rd d1 (.bwt 1) (o - 0x10)) (rd d1 (.bwt 1) (o - 8)))
         (.bwt 0) 3) i.val) := by
  have hs : (0x110 + i.val * 0x18 - 0x100) / 0x18 = i.val := by omega
  unfold bwtWrite
  dsimp only
  rw [if_neg (by decide), if_pos (by omega), hs, if_pos ⟨rfl, hv⟩]

/-- An accepted CLOSE of an open session closes it. -/
theorem bwtWrite_closes {d : Dev} {i : Fin 4} {v : W64} (hv : bit v 1 = true) (ho : rb d (.bwt 1) (0x110 + i.val * 0x18) 0 = true) :
    rb (bwtWrite d 1 (0x110 + i.val * 0x18) v) (.bwt 1) (0x110 + i.val * 0x18) 0 = false
      ∧ rb (bwtWrite d 1 (0x110 + i.val * 0x18) v) (.bwt 0) 0x20 3 = true := by
  rw [bwtWrite_session d i hv]
  dsimp only
  refine diagCloseOp_closed _ _ fun hc => ?_
  split
  · rename_i hn
    rw [if_pos hn, ← hn, ho] at hc
    exact absurd hc (by decide)
  · exact rb_irq_same _ _ _ (by decide)

/-- Settles O34: tokens, the three ways in which a session closes. -/
theorem diagSessionsAct : Obligations.DiagSessionsAct := by
  intro s t d
  have hd : devAt s.dev t = d := rfl
  clear_value d
  refine ⟨fun ch p hp => ⟨fun h hl => ?_, fun h hl h4 => ?_⟩, fun i => ?_⟩
  · intro r
    have hT := lands_congr (hd ▸ lands_diagToken t ch s) (diagTokenOp_served hp h hl)
    exact ⟨fun hr => lands_congr hT (if_pos hr), fun hr => lands_congr hT (if_neg hr)⟩
  · exact lands_congr (hd ▸ lands_diagClose t ch s) (mboxDiagCloseOp_served hp h hl h4)
  · intro o ho
    refine ⟨fun m ha => ?_, fun h => ?_, fun h => ?_⟩
    · refine ⟨_, hd ▸ lands_bwtDiagClose t m i s, ?_⟩
      unfold regBits
      rw [regPut_bwt _ (by omega) (by omega) (by omega) _ ha]
      exact bwtWrite_closes (by rw [bit_act, show bit (2 : W64) 1 = true by decide, Bool.or_true]) ho
    · refine lands_congr (hd ▸ lands_diagSessionExpiry t i s) ?_
      unfold diagExpireOp
      rw [if_pos h]
      exact diagCloseOp_open ho
    · exact lands_congr (hd ▸ lands_diagSessionExpiry t i s) (if_neg (Nat.not_le.mpr h))

end Sys2Proof.Machine
end


section
/-! PROOF. Selection, transmission, gates, shapers and samples (spec ch. 6). -/

namespace Sys2Proof.Machine
open Safety

/-! ### Selections -/

theorem beaconSend_other {d : Dev} {p : Nat} (h : portType p ≠ .s) : beaconSend d p = d := if_neg fun h' => h h'.1

theorem burstCount_other {d e : Dev} {p : Nat} {op : Option Nat} (h : portType p ≠ .s) : burstCount d e p op = e := if_neg fun h' => h h'.1

/-- A port that is not on a shared segment selects whenever it may. -/
theorem selectTurn_other {d : Dev} {p : Nat} (e : EccEvent) (op : Option Nat) (h : portType p ≠ .s) : selectTurn d p e op = selectEth d p e := by
  have hm : mediumFree d p op = true := by
    unfold mediumFree
    rw [bne_iff_ne.mpr h]
    rfl
  unfold selectTurn
  rw [beaconSend_other h, ite_self]
  dsimp only
  rw [hm, if_pos rfl, burstCount_other h]

theorem selectEth_idle {d : Dev} {p : Nat} (e : EccEvent) (h : txReady d p = false) : selectEth d p e = d := by
  unfold selectEth
  rw [h]
  rfl

theorem selectHost_idle {d : Dev} {p : Nat} (e : EccEvent) (h : txReady d p = false) : selectHost d p e = d := by
  unfold selectHost
  rw [h]
  rfl

theorem selectFerry_idle {d : Dev} (e : EccEvent) (h : txReady d 28 = false) : selectFerry d e = d := by
  unfold selectFerry
  rw [h]
  rfl

/-- In an opportunity that is not its beacon's, a port that may not select changes nothing. -/
theorem selectTurn_idle {d : Dev} {p : Nat} (e : EccEvent) {op : Option Nat} (h : txReady d p = false) (ho : portType p ≠ .s ∨ op ≠ some 0) :
    selectTurn d p e op = d := by
  have hb : (if op = some 0 then beaconSend d p else d) = d := by
    split
    · rename_i h0
      exact beaconSend_other (ho.resolve_right fun h' => h' h0)
    · rfl
  have hc : burstCount d d p op = d := if_neg fun h' => h'.2.2 rfl
  unfold selectTurn
  rw [hb]
  dsimp only
  rw [selectEth_idle e h, hc, ite_self]

theorem selectOp_idle {d : Dev} (p : Fin 29) (e : EccEvent) {op : Option Nat} (h : txReady d p.val = false) (ho : portType p.val ≠ .s ∨ op ≠ some 0) :
    selectOp d p.val e op = d := by
  unfold selectOp
  split
  · exact selectTurn_idle e h ho
  · split
    · exact selectHost_idle e h
    · have hp : p.val = 28 := by omega
      rw [hp] at h
      exact selectFerry_idle e h

theorem portType_single {p : Nat} (h : p < 20) : portType p ≠ .s := by
  unfold portType
  split
  · exact fun h => PortType.noConfusion h
  · split
    · exact fun h => PortType.noConfusion h
    · exact fun h => PortType.noConfusion h

/-- What becomes of a selected copy, by how its buffer cells read. -/
def sendRead (d : Dev) (p t : Nat) (c : Copy) (e : EccEvent) : Dev :=
  if e.lost then freeCopy (cnt (bufRead d e) (macPage p) 0x190 1) c else startTx (bufRead d e) p t c 0

section
variable {d : Dev} {p : Nat} (hr : txReady d p = true) (ht : kvGet d.tx p = none)
  (ht' : kvGet (lookPort (cbsSync d p) p).tx p = none) (hs : kvGet (lookPort (cbsSync d p) p).susp p = none)
include hr ht ht' hs

theorem selectEth_none (e : EccEvent)
    (hp : pick (lookPort (cbsSync d p) p) p (fun t => !preemptable (lookPort (cbsSync d p) p) p t
      || !(mergeActive (lookPort (cbsSync d p) p) p && (gatesOf (lookPort (cbsSync d p) p) p).hold)) = none) :
    selectEth d p e = lookPort (cbsSync d p) p := by
  unfold selectEth
  rw [hr, if_neg (by decide), ht]
  dsimp only
  rw [ht', hs]
  dsimp only
  rw [hp]

theorem selectEth_sends (e : EccEvent) {x i : Nat} {d2 : Dev} {c : Copy}
    (hp : pick (lookPort (cbsSync d p) p) p (fun t => !preemptable (lookPort (cbsSync d p) p) p t
      || !(mergeActive (lookPort (cbsSync d p) p) p && (gatesOf (lookPort (cbsSync d p) p) p).hold)) = some (x, i))
    (hc : takeHead (lookPort (cbsSync d p) p) p x i = (d2, some c)) : selectEth d p e = sendRead d2 p x c e := by
  unfold selectEth
  rw [hr, if_neg (by decide), ht]
  dsimp only
  rw [ht', hs]
  dsimp only
  rw [hp]
  dsimp only
  rw [hc]
  rfl

end

/-! ### The end of a transmission -/

/-- A frame that has left, stamped: its timestamp entry, and it is on the wire unless the port loops back (R215, R219). -/
def frameLeft (now : Instant) (p : Nat) (f : TxFrame) (x : TxFrame × Dev) : Dev :=
  let d3 := tsqEntry x.2 f.copy (x.1.stamp.getD 0) false false (decide (1 < f.frags))
  let d4 := setPort d3 p { portSt d3 p with emptyFrom := now, lastTx := f.ends }
  if rb d4 (macPage p) 0x80 12 || rb d4 (macPage p) 0x80 13 then loopBack d4 p f.octets false else emit d4 (.ethFrame p f.octets false)

/-- The octets of a frame that ends are counted. -/
def frameCounted (d : Dev) (p : Nat) (f : TxFrame) : Dev :=
  cnt (cnt { d with tx := kvDel d.tx p } (macPage p) 0x180 (f.octets.length + 4)) (macPage p) 0x188 1

theorem endTx_leaves {d : Dev} {p : Nat} {f : TxFrame} (hf : kvGet (cbsSync d p).tx p = some f) (hb : f.copy.bad = false) :
    endTx d p .clean = frameLeft (cbsSync d p).now p f (stamped (frameCounted (cbsSync d p) p f) p f) := by
  unfold endTx
  dsimp only
  rw [hf]
  dsimp only [EccEvent.lost, bufRead]
  simp only [Bool.false_eq_true, false_and, if_false, hb]
  rfl

theorem stamped_plain {d : Dev} {p : Nat} {f : TxFrame} (h : f.copy.tsId = none ∨ 26 ≤ p) : stamped d p f = (f, d) := by
  unfold stamped
  refine if_pos (.inr (h.imp_left fun h => ?_))
  rw [h]
  rfl

theorem stamped_taken {d : Dev} {p : Nat} {f : TxFrame} (ht : f.copy.tsId.isSome = true) (hp : p < 26) (hs : f.stamp = none) :
    stamped d p f = ({ f with stamp := some (txStamp d p f.begun).1 }, (txStamp d p f.begun).2) := by
  unfold stamped
  rw [if_neg]
  rintro (h | h | h)
  · rw [hs] at h; exact Bool.false_ne_true h
  · rw [Option.isNone_iff_eq_none] at h; rw [h] at ht; exact Bool.false_ne_true ht
  · omega

/-! ### Credits -/

theorem cbsOne_off {d : Dev} {p t : Nat} (h : (cbsCfg d p t).1 = false) : cbsOne d p t = { d with credits := kvDel d.credits (crKey p t) } := by
  unfold cbsOne
  rcases hc : cbsCfg d p t with ⟨en, idle, hi⟩
  rw [hc] at h
  dsimp only at h ⊢
  rw [h]
  exact if_pos rfl

theorem cbsOne_on {d : Dev} {p t : Nat} (h : (cbsCfg d p t).1 = true) : ∃ c, kvGet (cbsOne d p t).credits (crKey p t) = some c ∧ d.now ≤ c.last := by
  unfold cbsOne
  rcases hc : cbsCfg d p t with ⟨en, idle, hi⟩
  rw [hc] at h
  dsimp only at h ⊢
  rw [h, if_neg (by decide)]
  exact ⟨_, kvGet_kvPut_same _ _ _, le_max_right _ _⟩

/-- Settles O35: a port that may not select, the selection of a full-duplex port, the end of a frame, a credit. -/
theorem transmissionActs : Obligations.TransmissionActs := by
  intro s t d
  have hd : devAt s.dev t = d := rfl
  clear_value d
  refine ⟨fun p e op h ho => ?_, fun p hp hr ht => ?_, fun p f => ?_, fun p x h => ?_, fun p x h => ?_⟩
  · exact lands_congr (hd ▸ lands_portSelection t p ⟨e, op⟩ s) (selectOp_idle p e h ho)
  · intro d1 hold ht' hs op
    have hS : ∀ e, Lands t (.portSelection t p ⟨e, op⟩) s (selectEth d p.val e) := fun e =>
      lands_congr (hd ▸ lands_portSelection t p ⟨e, op⟩ s) ((if_pos (by omega)).trans (selectTurn_other e op (portType_single hp)))
    refine ⟨fun h e => lands_congr (hS e) (selectEth_none hr ht ht' hs e h), fun x i d2 c hk hc => ?_⟩
    have hR : ∀ e, Lands t (.portSelection t p ⟨e, op⟩) s (sendRead d2 p.val x c e) := fun e =>
      lands_congr (hS e) (selectEth_sends hr ht ht' hs e hk hc)
    refine ⟨hR .clean, fun w => ⟨fun again e he => lands_congr (hR (.corrected w)) ?_, hR (.uncorrectable w)⟩⟩
    unfold sendRead bufRead
    dsimp only [EccEvent.lost]
    rw [he]
    rfl
  · intro d0 hf hb sent left loops d1 d2
    have hE := lands_congr (hd ▸ lands_transmitEnd t p .clean s) (endTx_leaves hf hb)
    refine ⟨fun ht hl => lands_congr hE ((congrArg (frameLeft d0.now p.val f) (stamped_plain ht)).trans (if_neg ?_)), fun ht hp hs => ?_⟩
    · rw [Bool.not_eq_true]; exact hl
    · intro e hl
      refine lands_congr hE ((congrArg (frameLeft d0.now p.val f) (stamped_taken ht hp hs)).trans (if_neg ?_))
      rw [Bool.not_eq_true]; exact hl
  · exact lands_congr (hd ▸ lands_cbsCreditRecovered t p x s) (cbsOne_off h)
  · exact ⟨_, hd ▸ lands_cbsCreditRecovered t p x s, cbsOne_on h⟩

/-! ### Gates -/

theorem gateEventOp_none {d : Dev} {p : Nat} (h : operList (cbsSync d p) p = none) : gateEventOp d p = cbsSync d p := by
  unfold gateEventOp
  dsimp only
  rw [h]

/-- HOLD of a port at an entry with OP `op` (R182, R185). -/
def gateHold (d : Dev) (p op : Nat) : Bool :=
  if mergeActive d p then (if op = 1 then true else if op = 2 then false else (gatesOf d p).hold) else false

/-- The gate states and the entry of a gate event shown, before HOLD. -/
def gateStates (d : Dev) (p : Nat) : Dev :=
  let now := gatesNow d p (selLead d p)
  let d1 := lookPort (setPort d p { portSt d p with gateClass := now.1 }) p
  wf (wf d1 (gatePg p).1 ((gatePg p).2 + 0x20) 8 8 now.1) (gatePg p).1 ((gatePg p).2 + 0x20) 16 11 now.2.2

/-- A gate event up to HOLD. -/
def gateShown (d : Dev) (p : Nat) : Dev :=
  setGates (gateStates d p) p { gatesOf (gateStates d p) p with hold := gateHold (gateStates d p) p (gatesNow d p (selLead d p)).2.1 }

/-- A frame cut where it can be (R185). -/
def cutAt (d : Dev) (p : Nat) (f : TxFrame) : Option Nat → Dev
  | some x => suspend d p f x
  | none => d

/-- What a gate event does to the frame on the wire. -/
def gateCut (d : Dev) (p gs : Nat) (hold : Bool) : Option TxFrame → Dev
  | some f => if f.preempt ∧ (hold ∨ gs / 2 ^ f.tc % 2 = 0) ∧ (kvGet d.susp p).isNone then cutAt d p f (cutPoint d p f d.now) else d
  | none => d

section
variable {d : Dev} {p : Nat} {g : GateList} (h : operList (cbsSync d p) p = some g)
include h

theorem gateEventOp_oper : gateEventOp d p =
    (let now := gatesNow (cbsSync d p) p (selLead (cbsSync d p) p)
     gateCut (gateShown (cbsSync d p) p) p now.1 (gateHold (gateStates (cbsSync d p) p) p now.2.1) (kvGet (gateShown (cbsSync d p) p).tx p)) := by
  unfold gateEventOp
  dsimp only
  rw [h]
  rfl

theorem gateEventOp_idle (ht : kvGet (gateShown (cbsSync d p) p).tx p = none) : gateEventOp d p = gateShown (cbsSync d p) p := by
  rw [gateEventOp_oper h]
  dsimp only
  rw [ht]
  rfl

/-- A preemptable frame on the wire whose gate closes, or that is held, is cut where it can be. -/
theorem gateEventOp_cuts {f : TxFrame} {x : Nat} (ht : kvGet (gateShown (cbsSync d p) p).tx p = some f) (hf : f.preempt = true)
    (hs : (kvGet (gateShown (cbsSync d p) p).susp p).isNone = true)
    (hg : gateHold (gateStates (cbsSync d p) p) p (gatesNow (cbsSync d p) p (selLead (cbsSync d p) p)).2.1 = true
      ∨ (gatesNow (cbsSync d p) p (selLead (cbsSync d p) p)).1 / 2 ^ f.tc % 2 = 0)
    (hx : cutPoint (gateShown (cbsSync d p) p) p f (gateShown (cbsSync d p) p).now = some x) :
    gateEventOp d p = suspend (gateShown (cbsSync d p) p) p f x := by
  rw [gateEventOp_oper h]
  dsimp only
  rw [ht]
  refine (if_pos ⟨hf, hg, hs⟩).trans ?_
  rw [hx]
  rfl

end

theorem gateConfigOp_none {d : Dev} {p : Nat} (h : (gatesOf d p).pend = none) : gateConfigOp d p = d := by
  unfold gateConfigOp
  rw [h]

theorem gateConfigOp_pend {d : Dev} {p : Nat} {l : GateList} (h : (gatesOf d p).pend = some l) : gateConfigOp d p =
    if timeOf d l.dom < l.ct then d
    else
      let d0 := cbsSync d p
      let d1 := wf (setGates d0 p { gatesOf d0 p with oper := some l, pend := none, hold := false }) (gatePg p).1 ((gatePg p).2 + 0x20) 0 2 1
      gateIrq (setPort d1 p { portSt d1 p with gateClass := (gatesNow d1 p (selLead d1 p)).1 }) p 0 := by
  unfold gateConfigOp
  rw [h]

/-! ### Shapers -/

theorem coarseMoveOp_single {d : Dev} {n k c : Nat} {x : Shaper} (hq : (quay d n).shapers = [(k, x)]) (hx : x.slot = some (true, c)) :
    coarseMoveOp d n =
      if c ≤ (locNow d / slotUnits + 1) / 1024 then
        let f := (x.net + slotUnits - 1) / slotUnits
        if slotLoad d n (false, f) < 16 then setShaper d n k { x with slot := some (false, f) } else fallBack d n k (locNow d) true
      else d := by
  unfold coarseMoveOp
  rw [hq]
  dsimp only [List.foldl_cons, List.foldl_nil]
  rw [hx]

/-! ### Samples -/

theorem sampleOne_pass (d : Dev) (n i time : Nat) :
    (quay (sampleOne d n i time) n).pass = (quay d n).pass ∧ (quay (sampleOne d n i time) n).sampAt = (quay d n).sampAt := by
  unfold sampleOne
  dsimp only
  split
  · rw [quay_of_quays ((irq_quays _ _ _).trans ((wb_quays _ (quayPage n 2) 0x88 16 true).trans (cnt_quays d (quayPage n 2) 0x90 1)))]
    exact ⟨rfl, rfl⟩
  · rw [quay_setQuay, if_pos rfl]
    exact ⟨rfl, rfl⟩

theorem samples_pass (n : Nat) (time : Dev → Nat × Nat → Nat) (l : List (Nat × Nat)) : ∀ d : Dev,
    (quay (l.foldl (fun d x => sampleOne d n x.1 (time d x)) d) n).pass = (quay d n).pass
    ∧ (quay (l.foldl (fun d x => sampleOne d n x.1 (time d x)) d) n).sampAt = (quay d n).sampAt := by
  induction l with
  | nil => exact fun _ => ⟨rfl, rfl⟩
  | cons x l ih =>
    intro d
    obtain ⟨hp, ha⟩ := ih (sampleOne d n x.1 (time d x))
    obtain ⟨hp', ha'⟩ := sampleOne_pass d n x.1 (time d x)
    exact ⟨hp.trans hp', ha.trans ha'⟩

theorem sampWater_quays (d : Dev) (n : Nat) : (sampWater d n).quays = d.quays := by
  unfold sampWater
  split
  · exact irq_quays _ _ _
  · rfl

theorem samplingOp_off {d : Dev} {n : Nat} (h : rb d (quayPage n 2) 0x80 0 = false) : samplingOp d n = d :=
  if_pos (by rw [h]; rfl)

theorem samplingOp_notDue {d : Dev} {n : Nat} (h : sampDue d n = false) : samplingOp d n = d :=
  if_pos (by rw [h, Bool.not_false, Bool.or_true])

/-- The counter of the passes after the cells of a pass, `d` being the device then. -/
def passCounted (d : Dev) (n : Nat) : Dev := sampWater (ringCount (setQuay d n { quay d n with pass := (quay d n).pass + 1 }) n) n

theorem quay_passCounted (d : Dev) (n : Nat) : quay (passCounted d n) n = { quay d n with pass := (quay d n).pass + 1 } := by
  unfold passCounted
  rw [quay_of_quays (sampWater_quays _ _)]
  unfold ringCount
  rw [quay_of_quays (wf_quays _ (quayPage n 2) 0x88 0 13 _), quay_setQuay, if_pos rfl]

/-- The instant of a pass noted. -/
def passBegun (d : Dev) (n : Nat) : Dev := setQuay d n { quay d n with sampAt := locNow d }

/-- The cells of a pass entered, one in a period of CLK_FAB. -/
def passSampled (d : Dev) (n : Nat) : Dev :=
  (((List.range 512).filter fun i => rb d (quayPage n 2) (0xc0 + i / 64 * 8) (i % 64)).zipIdx).foldl
    (fun d x => sampleOne d n x.1 ((locNow d + x.2 * (tsStep / 4)) / 65536)) d

theorem passSampled_pass (d : Dev) (n : Nat) :
    (quay (passSampled d n) n).pass = (quay d n).pass ∧ (quay (passSampled d n) n).sampAt = (quay d n).sampAt :=
  samples_pass n (fun d x => (locNow d + x.2 * (tsStep / 4)) / 65536) _ d

theorem samplingOp_due {d : Dev} {n : Nat} (hb : rb d (quayPage n 2) 0x80 0 = true) (hr : running d (quayPage n 2) = true)
    (h : sampDue d n = true) : samplingOp d n = passCounted (passSampled (passBegun d n) n) n := by
  unfold samplingOp passCounted passSampled passBegun
  exact if_neg (by rw [hb, hr, h]; decide)

/-- A pass that is due counts and is noted with its instant. -/
theorem samplingOp_counts {d : Dev} {n : Nat} (hb : rb d (quayPage n 2) 0x80 0 = true) (hr : running d (quayPage n 2) = true)
    (h : sampDue d n = true) :
    (quay (samplingOp d n) n).pass = (quay d n).pass + 1 ∧ (quay (samplingOp d n) n).sampAt = locNow d := by
  have hq : quay (passBegun d n) n = { quay d n with sampAt := locNow d } := (quay_setQuay _ _ _ _).trans (if_pos rfl)
  obtain ⟨hp, ha⟩ := passSampled_pass (passBegun d n) n
  rw [hq] at hp ha
  rw [samplingOp_due hb hr h, quay_passCounted]
  dsimp only at hp ha ⊢
  exact ⟨congrArg (· + 1) hp, ha⟩

/-- Settles O36: gate entries, configuration changes, the slots of the wheel, bucket-mode shapers, sampling passes. -/
theorem gateAndShaperEventsAct : Obligations.GateAndShaperEventsAct := by
  intro s t d
  have hd : devAt s.dev t = d := rfl
  refine ⟨fun p h => lands_congr (hd ▸ lands_gateEvent t p s) (gateEventOp_none h), fun p g => ?_, fun p h hp => ⟨fun hc => ?_, fun hc => ?_⟩,
    fun p h => lands_congr (hd ▸ lands_gclConfigChange t p s) (gateConfigOp_none h), fun q => ⟨?_, ?_, fun k x hq => ⟨fun c hx hc hl => ?_, fun c hx hc => ?_⟩,
    fun hr hb => ?_, fun hb => lands_congr (hd ▸ lands_samplingPass t q s) (samplingOp_off hb)⟩⟩
  · intro d0 h now pg o d1 d2 hold d3
    exact ⟨fun ht => lands_congr (hd ▸ lands_gateEvent t p s) (gateEventOp_idle h ht),
      fun f ht hf hs hg x hx => lands_congr (hd ▸ lands_gateEvent t p s) (gateEventOp_cuts h ht hf hs hg hx)⟩
  · exact lands_congr (hd ▸ lands_gclConfigChange t p s) ((gateConfigOp_pend hp).trans (if_pos hc))
  · exact lands_congr (hd ▸ lands_gclConfigChange t p s) ((gateConfigOp_pend hp).trans (if_neg (Nat.not_lt.mpr hc)))
  · exact lands_congr (hd ▸ lands_shaperSlotRelease t q s) rfl
  · exact lands_congr (hd ▸ lands_shaperBucketEval t q s) rfl
  · exact lands_congr (hd ▸ lands_coarseSlotMove t q s) ((coarseMoveOp_single hq hx).trans ((if_pos hc).trans (if_pos hl)))
  · exact lands_congr (hd ▸ lands_coarseSlotMove t q s) ((coarseMoveOp_single hq hx).trans (if_neg (Nat.not_le.mpr hc)))
  · intro us per
    refine ⟨fun h => ⟨_, hd ▸ lands_samplingPass t q s, samplingOp_counts hb hr (decide_eq_true h)⟩,
      fun h => lands_congr (hd ▸ lands_samplingPass t q s) (samplingOp_notDue (decide_eq_false (Nat.not_lt.mpr h)))⟩

end Sys2Proof.Machine
end

section
/-! PROOF. The time domains, timed outputs and captures (spec ch. 7). -/

namespace Sys2Proof.Machine
open Safety

section
variable (mem : List Host.Cell) {d : Dev} {m : Master} {off : Nat} (h8 : off % 8 = 0) (hl : 0x80 ≤ off) (hs : off < 0x800) (v : W64)
include h8 hl hs

theorem regPut_time {i : Fin 2} (h : Accepts d m (.time i)) : regPut mem d m (.time i) off v = timeWrite d i off v := by
  rw [regPut_accepts _ _ _ _ _ _ h h8 (.inl hs)]
  unfold regWrite
  exact if_neg (by omega)

end

/-! ### The registers of a domain -/

/-- A write of one of the registers of a domain (Table 7.3). -/
def domWrite (d : Dev) (i r : Nat) (v : W64) : Dev :=
  if r = 0 then timeCtrlOp d i v else if r = 8 then rateOp d i v else if r = 0x28 then timeCmdOp d i v
  else writeFields d (.time 0) (tReg i r) v

theorem timeWrite_dom (d : Dev) {i r off : Nat} (hi : i < 4) (hr : r < 0x40) (ho : off = 0x100 + i * 0x40 + r) (v : W64) :
    timeWrite d 0 off v = domWrite d i r v := by
  subst ho
  unfold timeWrite
  refine (if_pos (by decide)).trans ((if_neg (by omega)).trans ((if_pos (by omega)).trans ?_))
  dsimp only
  rw [show (0x100 + i * 0x40 + r - 0x100) / 0x40 = i by omega,
    show (0x100 + i * 0x40 + r - 0x100) % 0x40 = r by omega]
  rfl

theorem regPut_dom (mem : List Host.Cell) {d : Dev} {m : Master} (h : Accepts d m (.time 0)) {i r off : Nat} (hi : i < 4) (hr : r < 0x40)
    (h8 : r % 8 = 0) (ho : off = 0x100 + i * 0x40 + r) (v : W64) : regPut mem d m (.time 0) off v = domWrite d i r v :=
  (regPut_time mem (by omega) (by omega) (by omega) v h).trans (timeWrite_dom d hi hr ho v)

/-! ### Enabling and disabling a domain -/

section
variable {d : Dev} {i : Nat} {v : W64}

theorem timeCtrlOp_enables (h : rb d (.time 0) (tReg i 0) 0 = false) : timeCtrlOp d i (setBit v 0 true) =
    syncRestart (xweTickFrom (domEv (wr d (.time 0) (tReg i 0) (setBit (setBit v 0 true &&& (maskOf 0 2 ||| maskOf 16 16)) 1 false)) i
      (leadEdge d) .load) [i] fun _ => locNow d) i := by
  unfold timeCtrlOp
  dsimp only
  rw [h, bit_setBit_same _ _ _ (by decide)]
  exact (if_neg (by decide)).trans (if_pos (by decide))

theorem timeCtrlOp_inUse (h : rb d (.time 0) (tReg i 0) 0 = true) (hu : (domUses d i).any id = true) :
    timeCtrlOp d i (setBit v 0 false) = invalidValue d (.time 0) := by
  unfold timeCtrlOp
  dsimp only
  rw [h, bit_setBit_same _ _ _ (by decide)]
  exact (if_pos (by decide)).trans (if_pos hu)

theorem timeCtrlOp_disables (h : rb d (.time 0) (tReg i 0) 0 = true) (hu : (domUses d i).any id = false) (hv : bit v 1 = false) :
    timeCtrlOp d i (setBit v 0 false) =
      snapClear (wb (setDom (wr d (.time 0) (tReg i 0) (setBit v 0 false &&& (maskOf 0 2 ||| maskOf 16 16))) i
        { dom d i with on := false, ctr := 0, evs := (dom d i).evs.filter (fun e => e.2 != .load), steps := [] }) (.time 0) (tReg i 0x30) 2
          false) i := by
  unfold timeCtrlOp
  dsimp only
  rw [h, bit_setBit_same _ _ _ (by decide), bit_setBit_other _ _ (by decide), hv]
  exact (if_pos (by decide)).trans ((if_neg (by rw [hu]; decide)).trans (if_neg (by decide)))

theorem timeCtrlOp_sync (h : rb d (.time 0) (tReg i 0) 0 = true) (hv : bit v 0 = true) : timeCtrlOp d i (setBit v 1 true) =
    syncRestart (wr d (.time 0) (tReg i 0) (setBit v 1 true &&& (maskOf 0 2 ||| maskOf 16 16))) i := by
  unfold timeCtrlOp
  dsimp only
  rw [h, bit_setBit_same _ _ _ (by decide), bit_setBit_other _ _ (by decide), hv]
  exact (if_neg (by decide)).trans ((if_neg (by decide)).trans (if_pos rfl))

/-! ### Steps of a domain -/

theorem timeCmdOp_off (h : rb d (.time 0) (tReg i 0) 0 = false) : timeCmdOp d i v = invalidValue d (.time 0) := by
  unfold timeCmdOp
  dsimp only
  rw [h, Bool.not_false, Bool.or_true, Bool.true_or]
  exact if_pos rfl

theorem steps_syncRestart (d : Dev) (i : Nat) : (dom (syncRestart d i) i).steps = (dom d i).steps := by
  unfold syncRestart setDom
  rw [show dom _ i = kvD (kvPut d.time.doms i _) i {} from rfl]
  unfold kvD
  rw [kvGet_kvPut_same]
  rfl

/-- A step of a running domain that waits for none. -/
def stepWaits (d : Dev) (i : Nat) (a : Bool) (val : Int) : Dev :=
  wb (setDom (syncRestart d i) i { dom (syncRestart d i) i with steps := [{ edge := leadEdge d, abs := a, val := val }] }) (.time 0)
    (tReg i 0x30) 2 true

section
variable (h : rb d (.time 0) (tReg i 0) 0 = true) (hs : (dom d i).steps = [])
include h hs

theorem timeCmdOp_abs (hv : bit v 1 = false) (hn : fld (rd d (.time 0) (tReg i 0x18)) 0 32 < 1000000000) :
    timeCmdOp d i (setBit v 0 true) = stepWaits d i true
      (tMake (rd d (.time 0) (tReg i 0x10)).toNat (fld (rd d (.time 0) (tReg i 0x18)) 0 32) (fld (rd d (.time 0) (tReg i 0x18)) 32 16) : Nat) := by
  unfold timeCmdOp
  dsimp only
  rw [h, bit_setBit_same _ _ _ (by decide), bit_setBit_other _ _ (by decide), hv, decide_eq_false (Nat.not_le.mpr hn), steps_syncRestart, hs]
  rfl

theorem timeCmdOp_rel (hv : bit v 0 = false) :
    timeCmdOp d i (setBit v 1 true) = stepWaits d i false (toSigned 64 (rd d (.time 0) (tReg i 0x20)).toNat) := by
  unfold timeCmdOp
  dsimp only
  rw [h, bit_setBit_same _ _ _ (by decide), bit_setBit_other _ _ (by decide), hv, steps_syncRestart, hs]
  rfl

end

/-- The step that is due is taken off its domain. -/
def stepTaken (d : Dev) (i : Nat) (rest : List TimeStep) : Dev :=
  wb (setDom d i { dom d i with steps := rest }) (.time 0) (tReg i 0x30) 2 (decide (rest ≠ []))

section
variable {x : TimeStep} {rest : List TimeStep} (hx : (dom d i).steps = x :: rest)
include hx

theorem stepApplyOp_early (h : d.now / 4 < x.edge) : stepApplyOp d i = d := by
  unfold stepApplyOp
  dsimp only
  rw [hx]
  exact if_pos h

theorem stepApplyOp_refused (h : x.edge ≤ d.now / 4) (hc : stepCtr d { dom d i with steps := rest } x = none) :
    stepApplyOp d i = wb (stepTaken d i rest) (.time 0) (tReg i 0x30) 1 true := by
  unfold stepApplyOp
  dsimp only
  rw [hx]
  refine (if_neg (Nat.not_lt.mpr h)).trans ?_
  rw [hc]
  rfl

theorem stepApplyOp_steps (h : x.edge ≤ d.now / 4) {c : Nat} (hc : stepCtr d { dom d i with steps := rest } x = some c) :
    stepApplyOp d i = afterStep (irq (cnt (setDom ((List.range 26).foldl (fun d p => cbsSync d p) (stepTaken d i rest)) i
      { dom d i with steps := rest, ctr := c }) (.time 0) (tReg i 0x38) 1) (.time 0) (4 + i)) i (timeOf d i) := by
  unfold stepApplyOp
  dsimp only
  rw [hx]
  refine (if_neg (Nat.not_lt.mpr h)).trans ?_
  rw [hc]
  rfl

end

/-! ### Rates, watchdogs, snapshots -/

theorem rateOp_in (hl : -549755813 ≤ toSigned 40 (fld v 0 40)) (hh : toSigned 40 (fld v 0 40) ≤ 549755813) : rateOp d i v =
    syncRestart (domEv (wr d (.time 0) (tReg i 8) (v &&& maskOf 0 40)) i (leadEdge d) (.rate (toSigned 40 (fld v 0 40)))) i :=
  if_neg (not_or.mpr ⟨Int.not_lt.mpr hl, Int.not_lt.mpr hh⟩)

theorem syncWatchdogOp_off (h : rf d (.time 0) (tReg i 0) 16 16 = 0) : syncWatchdogOp d i = d := if_pos (.inl h)

theorem syncWatchdogOp_out (h : rf d (.time 0) (tReg i 0) 16 16 ≠ 0) (hs : rb d (.time 0) (tReg i 0) 1 = true)
    (ht : (dom d i).wdFrom + rf d (.time 0) (tReg i 0) 16 16 * msTicks ≤ d.now) :
    syncWatchdogOp d i = irq (wb (wb d (.time 0) (tReg i 0) 1 false) (.time 0) (tReg i 0x30) 0 true) (.time 0) i :=
  if_neg (not_or.mpr ⟨h, not_or.mpr ⟨by rw [hs]; decide, Nat.not_lt.mpr ht⟩⟩)

theorem snapOp_due (hv : bit v 0 = true) (h : d.time.snapDue = none) : snapOp d v =
    { wb d (.time 0) 0x90 1 false with time := { (wb d (.time 0) 0x90 1 false).time with snapDue := some (leadEdge d) } } := by
  unfold snapOp
  rw [hv]
  dsimp only
  rw [wb_time, h]
  rfl

end

/-- Settles O37: the commands of a time domain, its steps, its watchdog, snapshots. -/
theorem timeDomainCommandsAct : Obligations.TimeDomainCommandsAct := by
  intro s t n d
  have hd : devAt s.dev t = d := rfl
  clear_value d
  intro pg i
  refine ⟨fun m v hm => ?_, fun x rest hx => ?_, ⟨fun h hs ht => ?_, fun h => ?_⟩, hd ▸ lands_ctrMismatch t s⟩
  · have hR : ∀ v r off, r < 0x40 → r % 8 = 0 → off = 0x100 + i * 0x40 + r → regPut s.mem d m pg off v = domWrite d i r v :=
      fun v r off hr h8 ho => regPut_dom s.mem hm n.isLt hr h8 ho v
    have hrate := lands_congr (hd ▸ lands_rateWrite t m n v s) (hR v 8 _ (by decide) rfl (by omega))
    have hen := lands_congr (hd ▸ lands_domainEnable t m n v s) (hR _ 0 _ (by decide) rfl (by omega))
    have hdis := lands_congr (hd ▸ lands_domainDisable t m n v s) (hR _ 0 _ (by decide) rfl (by omega))
    have hsync := lands_congr (hd ▸ lands_syncSet t m n v s) (hR _ 0 _ (by decide) rfl (by omega))
    have habs := lands_congr (hd ▸ lands_stepAbs t m n v s) (hR _ 0x28 _ (by decide) rfl (by omega))
    have hrel := lands_congr (hd ▸ lands_stepRel t m n v s) (hR _ 0x28 _ (by decide) rfl (by omega))
    intro r
    refine ⟨fun hl hh => lands_congr hrate (rateOp_in hl hh), fun h => lands_congr hrate (if_pos h),
      fun h => lands_congr hen (timeCtrlOp_enables h), fun h hu => lands_congr hdis (timeCtrlOp_inUse h hu),
      fun h hu hv => lands_congr hdis (timeCtrlOp_disables h hu hv), fun h hv => lands_congr hsync (timeCtrlOp_sync h hv),
      fun h => ⟨fun _ => lands_congr habs (timeCmdOp_off h), fun _ => lands_congr hrel (timeCmdOp_off h)⟩, fun h hs => ?_, fun v hv h => ?_⟩
    · intro step ns
      exact ⟨fun hv hn => lands_congr habs (timeCmdOp_abs h hs hv hn), fun hv => lands_congr hrel (timeCmdOp_rel h hs hv)⟩
    · refine lands_congr (hd ▸ lands_timeSnap t m v s) ?_
      rw [regPut_time _ (by decide) (by decide) (by decide) _ hm]
      exact snapOp_due hv h
  · intro x1 d1
    refine ⟨fun h => lands_congr (hd ▸ lands_timeStepApply t n s) (stepApplyOp_early hx h),
      fun h hc => lands_congr (hd ▸ lands_timeStepApply t n s) (stepApplyOp_refused hx h hc), fun c h hc => ?_⟩
    intro d2
    exact lands_congr (hd ▸ lands_timeStepApply t n s) (stepApplyOp_steps hx h hc)
  · exact lands_congr (hd ▸ lands_syncWatchdog t n s) (syncWatchdogOp_out h hs ht)
  · exact lands_congr (hd ▸ lands_syncWatchdog t n s) (syncWatchdogOp_off h)

/-! ### Timed outputs -/

theorem regPut_toutCtrl (mem : List Host.Cell) {d : Dev} {m : Master} (h : Accepts d m (.time 1)) (n : Fin 8) (v : W64) :
    regPut mem d m (.time 1) (0x80 + n.val * 0x30) v = toutCtrlOp d n.val v := by
  have hn := n.isLt
  rw [regPut_time _ (by omega) (by omega) (by omega) _ h]
  unfold timeWrite
  refine (if_neg (by decide)).trans ((if_pos (by omega)).trans ?_)
  rw [show (0x80 + n.val * 0x30 - 0x80) / 0x30 = n.val by omega]

section
variable {d : Dev} {n : Nat}

theorem toutCtrlOp_arm {v : W64} (hv : bit v 1 = false) :
    toutCtrlOp d n (setBit v 0 true) = toutArmOp (writeFields d (.time 1) (0x80 + n * 0x30) (setBit v 0 true)) n := by
  unfold toutCtrlOp
  dsimp only
  rw [bit_setBit_same _ _ _ (by decide), bit_setBit_other _ _ (by decide), hv]
  rfl

theorem toutCtrlOp_stop {v : W64} (hv : bit v 0 = false) :
    toutCtrlOp d n (setBit v 1 true) = toutStopOp (writeFields d (.time 1) (0x80 + n * 0x30) (setBit v 1 true)) n := by
  unfold toutCtrlOp
  dsimp only
  rw [bit_setBit_same _ _ _ (by decide), bit_setBit_other _ _ (by decide), hv]
  rfl

theorem toutArmOp_rejected (h : toutReject d n ≠ 0) : toutArmOp d n = wf d (.time 1) (0x80 + n * 0x30 + 0x28) 4 3 (toutReject d n) := if_pos h

theorem toutArmOp_loads (h : toutReject d n = 0) : toutArmOp d n =
    (let o := 0x80 + n * 0x30
     let c := rd d (.time 1) o
     let st := tMake (rd d (.time 1) (o + 8)).toNat (rf d (.time 1) (o + 0x10) 0 32) (rf d (.time 1) (o + 0x10) 32 16)
     setTout (wf d (.time 1) (o + 0x28) 4 3 (toutReject d n)) n
       { state := 1, dom := fld c 2 3, periodic := bit c 5, lowIdle := !bit c 6, start := st, next := st,
         period := rf d (.time 1) (o + 0x18) 0 40 * 65536, width := rf d (.time 1) (o + 0x20) 0 32 * 65536, pulses := (tout d n).pulses }) :=
  if_neg (not_not.mpr h)

theorem toutEdgeOp_idle (h : (tout d n).state = 0 ∨ timeOf d (tout d n).dom + 65536 < (tout d n).next) : toutEdgeOp d n = d :=
  if_pos (h.imp_left fun h => ⟨by omega, by omega⟩)

section
variable (hs : (tout d n).state = 1 ∨ (tout d n).state = 2) (ht : (tout d n).next ≤ timeOf d (tout d n).dom + 65536)
include hs ht

theorem toutEdgeOp_reached : toutEdgeOp d n = if (tout d n).active then
    toutFall d n (tout d n) ((tout d n).next - (tout d n).width + (tout d n).period) else toutRise d n (tout d n) (tout d n).next :=
  if_neg (not_or.mpr ⟨fun h => hs.elim h.1 h.2, Nat.not_lt.mpr ht⟩)

end

theorem toutFall_periodic {x : Tout} (hx : x.periodic = true) (nx : Nat) : toutFall d n x nx =
    emit (setTout d n { x with state := 2, active := false, next := nx }) (.tout n false) := by
  unfold toutFall
  dsimp only
  rw [if_pos hx, if_pos hx]

theorem toutFall_single {x : Tout} (hx : x.periodic = false) (nx : Nat) : toutFall d n x nx =
    irq (emit (setTout d n { x with state := 3, active := false, next := nx }) (.tout n false)) (.time 1) n := by
  have hx : ¬x.periodic = true := by rw [hx]; decide
  unfold toutFall
  dsimp only
  rw [if_neg hx, if_neg hx]

/-! ### Captures -/

/-- An edge lies less than 10 ns behind a last capture (R213). -/
def tcapEarly (d : Dev) : Option Nat → Bool
  | some x => decide (locNow d < x + 655360)
  | none => false

section
variable {rising : Bool} (he : rb d (.time 1) (0x200 + n * 0x18) 0 = true)
  (hs : rf d (.time 1) (0x200 + n * 0x18) 1 2 = 3 ∨ (rf d (.time 1) (0x200 + n * 0x18) 1 2 = 1 ∧ rising = true)
    ∨ (rf d (.time 1) (0x200 + n * 0x18) 1 2 = 2 ∧ rising = false))
include he hs

/-- An edge of the selected sort at an enabled input. -/
theorem tcapEdgeOp_selected : tcapEdgeOp d n rising =
    (let o := 0x200 + n * 0x18
     let q := kvD d.time.tcaps n []
     if tcapEarly d (kvGet d.time.tcapAt n) then cnt d (.time 1) (o + 0x10) 1
     else if 8 ≤ q.length then irq (wb (cnt d (.time 1) (o + 0x10) 1) (.time 1) (o + 8) 4 true) (.time 1) (16 + n)
     else
       let t := { d.time with tcaps := kvPut d.time.tcaps n (q ++ [tcapEntry d (rf d (.time 1) o 3 3) rising]),
                              tcapAt := kvPut d.time.tcapAt n (locNow d) }
       irq (wf { d with time := t } (.time 1) (o + 8) 0 4 (q.length + 1)) (.time 1) (8 + n)) := by
  unfold tcapEdgeOp
  refine (if_neg ?_).trans ?_
  · rw [show bit (rd d (.time 1) (0x200 + n * 0x18)) 0 = true from he]
    rintro (h | h)
    · exact absurd h (by decide)
    · have hs : fld (rd d (.time 1) (0x200 + n * 0x18)) 1 2 = 3 ∨ (fld (rd d (.time 1) (0x200 + n * 0x18)) 1 2 = 1 ∧ rising = true)
        ∨ (fld (rd d (.time 1) (0x200 + n * 0x18)) 1 2 = 2 ∧ rising = false) := hs
      rcases hs with hs | ⟨hs, hr⟩ | ⟨hs, hr⟩
      · rw [hs, show ((3 : Nat) == 3) = true from rfl, Bool.true_or, Bool.true_or] at h; exact absurd h (by decide)
      · rw [hs, hr] at h; exact absurd h (by decide)
      · rw [hs, hr] at h; exact absurd h (by decide)
  · cases kvGet d.time.tcapAt n with
    | none => rfl
    | some x => rfl

end

end

theorem tcapEarly_of {d : Dev} {n x : Nat} (hx : kvGet d.time.tcapAt n = some x) (h : locNow d < x + 655360) :
    tcapEarly d (kvGet d.time.tcapAt n) = true := by
  rw [hx]
  exact decide_eq_true h

theorem not_tcapEarly {d : Dev} {n : Nat} (h : ∀ x, kvGet d.time.tcapAt n = some x → x + 655360 ≤ locNow d) :
    ¬tcapEarly d (kvGet d.time.tcapAt n) = true := by
  cases hx : kvGet d.time.tcapAt n with
  | none => exact Bool.false_ne_true
  | some x => exact fun he => absurd (of_decide_eq_true he) (Nat.not_lt.mpr (h x hx))

/-- Settles O38: ARM and STOP of a timed output, its edges, the edges of a capture input. -/
theorem timedInputsAndOutputsAct : Obligations.TimedInputsAndOutputsAct := by
  intro s t n d
  have hd : devAt s.dev t = d := rfl
  clear_value d
  intro pg o
  refine ⟨fun m v hm => ⟨fun hv => ?_, fun hv => ?_⟩, ?_, fun rising => ?_⟩
  · have hA := lands_congr (hd ▸ lands_toutArm t m n v s) ((regPut_toutCtrl s.mem hm n _).trans (toutCtrlOp_arm hv))
    intro d1 d2
    refine ⟨fun hr => lands_congr hA (toutArmOp_rejected hr), fun hr => ?_⟩
    intro c st
    exact lands_congr hA (toutArmOp_loads hr)
  · exact lands_congr (hd ▸ lands_toutStop t m n v s) ((regPut_toutCtrl s.mem hm n _).trans (toutCtrlOp_stop hv))
  · intro x
    refine ⟨fun hs ht => ?_, fun h => lands_congr (hd ▸ lands_toutEdge t n s) (toutEdgeOp_idle h)⟩
    have hE := lands_congr (hd ▸ lands_toutEdge t n s) (toutEdgeOp_reached hs ht)
    exact ⟨fun ha => lands_congr hE (if_neg (by rw [ha]; decide)),
      fun ha hp => lands_congr hE ((if_pos ha).trans (toutFall_periodic hp _)),
      fun ha hp => lands_congr hE ((if_pos ha).trans (toutFall_single hp _))⟩
  · intro o q he hs
    have hE := lands_congr (hd ▸ lands_tcapEdge t n rising s) (tcapEdgeOp_selected he hs)
    refine ⟨fun x hx h => lands_congr hE (if_pos (tcapEarly_of hx h)), fun h => ⟨fun hq => ?_, fun hq => ?_⟩⟩
    · exact lands_congr hE ((if_neg (not_tcapEarly h)).trans (if_pos hq))
    · intro x
      exact lands_congr hE ((if_neg (not_tcapEarly h)).trans (if_neg (Nat.not_le.mpr hq)))

end Sys2Proof.Machine
end

section
/-! PROOF. CAN controllers and LIN channels (spec ch. 8). -/

namespace Sys2Proof.Machine
open Safety

/-! ### CAN reception -/

/-- A frame counted, with the keep-alive that it may be, REC lowered (R228, R230). -/
def canRxCounted (d : Dev) (k : Nat) (f : CanFrame) : Dev :=
  let e := kaNote d (kaOfCan d k f)
  canErrCounts (cnt e (canPg k) 0x200 1) k (canTec e k) (if 127 < canRec e k then 127 else canRec e k - 1)

/-- What CANsec makes of a frame that was counted (R233). -/
def canRxSec (d : Dev) (k : Nat) (f : CanFrame) : Option CanFrame × Dev :=
  if f.xlf then canSecRx (canRxCounted d k f) k f else (some f, canRxCounted d k f)

/-- A frame that CANsec lets pass goes to the Ferry, or is lost where the FIFO has no room (R227, R228). -/
def canRxTake (k : Nat) (sof : Instant) : Option CanFrame × Dev → Dev
  | (none, d) => d
  | (some g, d) =>
    if 512 < rxBlocks d k + canBlocks g then irq (cnt d (canPg k) 0x210 1) (canPg k) 2
    else
      let w := edgeTimes d { src := 32 + k, can := some g, sec := g.sec } (sof / edgeTicks * edgeTicks)
      setCan (ferryReady d w) k { can (ferryReady d w) k with lastRx := some { w with id := d.ferry.nextId } }

theorem canRxTake_none {k : Nat} {sof : Instant} {r : Option CanFrame × Dev} (h : r.1 = none) : canRxTake k sof r = r.2 := by
  obtain ⟨g, d⟩ := r
  subst h
  rfl

section
variable {k : Nat} {sof : Instant} {r : Option CanFrame × Dev} {g : CanFrame} (h : r.1 = some g)
include h

theorem canRxTake_full (hb : 512 < rxBlocks r.2 k + canBlocks g) : canRxTake k sof r = irq (cnt r.2 (canPg k) 0x210 1) (canPg k) 2 := by
  obtain ⟨g', d⟩ := r
  subst h
  exact if_pos hb

theorem canRxTake_work (hb : rxBlocks r.2 k + canBlocks g ≤ 512) : canRxTake k sof r =
    (let w := edgeTimes r.2 { src := 32 + k, can := some g, sec := g.sec } (sof / edgeTicks * edgeTicks)
     setCan (ferryReady r.2 w) k { can (ferryReady r.2 w) k with lastRx := some { w with id := r.2.ferry.nextId } }) := by
  obtain ⟨g', d⟩ := r
  subst h
  exact if_neg (Nat.not_lt.mpr hb)

end

theorem canRxOp_takes {d : Dev} {k : Nat} {f : CanFrame} (sof : Instant) (hr : running d (canPg k) = true) (hs : canState d k < 2)
    (hf : canHasFormat d k f = true) : canRxOp d k f sof = canRxTake k sof (canRxSec d k f) := by
  unfold canRxOp
  refine (if_neg ?_).trans ?_
  · rw [hr, hf]
    exact not_or.mpr ⟨by decide, not_or.mpr ⟨Nat.not_le.mpr hs, by decide⟩⟩
  · unfold canRxTake canRxSec canRxCounted
    rfl

theorem canRxOp_ignores {d : Dev} {k : Nat} {f : CanFrame} (sof : Instant)
    (h : running d (canPg k) = false ∨ 2 ≤ canState d k ∨ canHasFormat d k f = false) : canRxOp d k f sof = d :=
  if_pos (h.imp (fun h => by rw [h]; rfl) (Or.imp_right fun h => by rw [h]; rfl))

/-! ### CAN transmission -/

/-- A complete frame, `e` being the device after its blocks were read: counted, out of the transmit area, on the bus (R229, R230). -/
def canLeft (d : Dev) (k : Nat) (x : CanTx) (e : Dev) : Dev :=
  let f := { x.f with esi := x.f.fdf && canState d k == 1 }
  let e1 := canErrCounts (canTxDrop (cnt e (canPg k) 0x208 1) k (· == x)) k (canTec d k - 1) (canRec d k)
  if rb d (canPg k) 0x80 4 then e1 else kaNote (emit e1 (.canFrame k f)) (kaOfCan d k f)

theorem canTxCompleteOp_cut {d : Dev} {k : Nat} {sof : Instant} (e : EccEvent) (h : canCut d k sof = true ∨ canOnBus d k sof = none) :
    canTxCompleteOp d k sof e = d := by
  unfold canTxCompleteOp
  split
  · rfl
  · rename_i hc
    rw [h.resolve_left hc]

section
variable {d : Dev} {k : Nat} {sof : Instant} {x : CanTx} (hc : canCut d k sof = false) (hx : canOnBus d k sof = some x)
include hc hx

theorem canTxCompleteOp_lost (w : Nat) : canTxCompleteOp d k sof (.uncorrectable w) = ramLost (canTxDrop d k (· == x)) k := by
  unfold canTxCompleteOp
  refine (if_neg (by rw [hc]; decide)).trans ?_
  rw [hx]
  rfl

theorem canTxCompleteOp_leaves {e : EccEvent} (he : e.lost = false) : canTxCompleteOp d k sof e =
    if tdcFrame d k { x.f with esi := x.f.fdf && canState d k == 1 } then tdcMeasured (canLeft d k x (ramRead d e)) k
    else canLeft d k x (ramRead d e) := by
  unfold canTxCompleteOp
  refine (if_neg (by rw [hc]; decide)).trans ?_
  rw [hx]
  exact if_neg (by rw [he]; decide)

end

theorem canAgeOp_off {d : Dev} {k : Nat} (sof : Option Instant) (h : rf d (canPg k) 0xa8 0 16 = 0) : canAgeOp d k sof = d := if_pos h

/-- Settles O39: reception, transmission, aging and lost arbitration of a CAN controller. -/
theorem canFramesAct : Obligations.CanFramesAct := by
  intro s t k d
  have hd : devAt s.dev t = d := rfl
  clear_value d
  intro pg
  refine ⟨fun f sof hf hr hs hc => ?_, fun f sof hf h => lands_congr (hd ▸ lands_canFrameReceived t k f sof s hf) (canRxOp_ignores sof h),
    fun sof e h => lands_congr (hd ▸ lands_canTxComplete t k ⟨sof, e⟩ s) (canTxCompleteOp_cut e h), fun sof x hc hx => ?_, ?_,
    hd ▸ lands_canArbitrationLost t k s⟩
  · have hR := lands_congr (hd ▸ lands_canFrameReceived t k f sof s hf) (canRxOp_takes sof hr hs hc)
    intro e d1 r
    refine ⟨fun h => lands_congr hR (canRxTake_none h), fun g h => ⟨fun hb => lands_congr hR (canRxTake_full h hb), fun hb => ?_⟩⟩
    exact lands_congr hR (canRxTake_work h hb)
  · intro f sent
    have hT : ∀ e, e.lost = false → Lands t (.canTxComplete t k ⟨sof, e⟩) s _ := fun e he =>
      lands_congr (hd ▸ lands_canTxComplete t k ⟨sof, e⟩ s) (canTxCompleteOp_leaves hc hx he)
    refine ⟨fun h => ?_, fun h => ?_, fun w => lands_congr (hd ▸ lands_canTxComplete t k ⟨sof, .uncorrectable w⟩ s) (canTxCompleteOp_lost hc hx w)⟩
    · have h : ¬tdcFrame d k.val f = true := by rw [h]; decide
      exact ⟨lands_congr (hT .clean rfl) (if_neg h), fun w => lands_congr (hT (.corrected w) rfl) (if_neg h)⟩
    · exact lands_congr (hT .clean rfl) (if_pos h)
  · intro ms old
    exact ⟨fun h => lands_congr (hd ▸ lands_canTxAgeExpiry t k none s) (if_neg h),
      fun h sof => lands_congr (hd ▸ lands_canTxAgeExpiry t k sof s) (canAgeOp_off sof h)⟩

/-! ### CAN errors -/

/-- A bus error counted by its kind (Table 8.20). -/
def canErrCounted (d : Dev) (k : Nat) : CanErr → Dev
  | .bit => cnt d (canPg k) 0x238 1
  | .stuff => wf d (canPg k) 0x240 0 32 (min (2 ^ 32 - 1) (rf d (canPg k) 0x240 0 32 + 1))
  | .form => wf d (canPg k) 0x240 32 32 (min (2 ^ 32 - 1) (rf d (canPg k) 0x240 32 32 + 1))
  | .ack => cnt d (canPg k) 0x250 1
  | .crc => cnt d (canPg k) 0x290 1

/-- The weight of a bus error: TEC + 8 of a transmitter, REC + 1 of a receiver (R230, log 29). -/
def canErrWeighed (d : Dev) (k : Nat) (tx : Bool) (e : Dev) : Dev :=
  if tx then canErrCounts e k (canTec d k + 8) (canRec d k) else canErrCounts e k (canTec d k) (canRec d k + 1)

section
variable {d : Dev} {k : Nat} (hr : running d (canPg k) = true) (hs : canState d k < 2)
include hr hs

theorem canOnBus_runs : ¬((!running d (canPg k)) = true ∨ 2 ≤ canState d k) := by
  rw [hr]
  exact not_or.mpr ⟨by decide, Nat.not_le.mpr hs⟩

theorem canBusErrorOp_other {e : CanErr} (tx : Bool) (he : e ≠ .ack) :
    canBusErrorOp d k e tx = canErrWeighed d k tx (canErrCounted (canErrorFrame (if tx then tdcAttempt d k else d) k) k e) := by
  unfold canBusErrorOp
  refine (if_neg (canOnBus_runs hr hs)).trans ?_
  cases tx with
  | true => exact (if_pos rfl).trans (if_neg fun h => he h.1)
  | false => exact if_neg (by decide)

theorem canBusErrorOp_ack (tx : Bool) : canBusErrorOp d k .ack tx =
    (let e := cnt (canErrorFrame (if tx then tdcAttempt d k else d) k) (canPg k) 0x250 1
     if tx = true ∧ canState d k = 1 then e else canErrWeighed d k tx e) := by
  unfold canBusErrorOp
  refine (if_neg (canOnBus_runs hr hs)).trans ?_
  cases tx with
  | true => exact (if_pos rfl).trans (if_congr (and_congr_left' (iff_of_true rfl rfl)) rfl rfl)
  | false => exact (if_neg (by decide)).trans (if_neg fun h => Bool.false_ne_true h.1).symm

end

theorem canErrCounts_busOff (d : Dev) (k : Nat) {tec rec : Nat} (h : 255 < tec) : canErrCounts d k tec rec =
    (let d1 := wf (wf d (canPg k) 0xc0 0 8 255) (canPg k) 0xc0 8 8 (min 255 rec)
     let d2 := raise (irq (cnt (wf (if canState d k = 1 then irq d1 (canPg k) 1 else d1) (canPg k) 0xc0 16 2 2) (canPg k) 0x258 1) (canPg k) 0)
       (canPg k) 0
     setCan d2 k { can d2 k with recover := rb d (canPg k) 0x80 5 }) := by
  unfold canErrCounts
  rw [Nat.min_eq_left (Nat.le_of_lt h)]
  exact if_pos h

theorem regPut_canRecover (mem : List Host.Cell) {d : Dev} {m : Master} {k : Fin 24} (h : Accepts d m (.can k)) :
    regPut mem d m (.can k) 0xb8 1 = canRecoverOp d k.val := by
  rw [regPut_accepts _ _ _ _ _ _ h (by decide) (.inl (by decide))]
  unfold regWrite
  exact (if_neg (by decide)).trans ((if_pos rfl).trans (if_pos (by decide)))

section
variable {d : Dev} {k : Nat}

theorem busOffRecoveryOp_waits (h : (can d k).recover = false) (hb : rb d (canPg k) 0x80 5 = false) : busOffRecoveryOp d k = d :=
  if_neg fun h' => by
    rw [h, hb] at h'
    exact h'.2.elim Bool.false_ne_true Bool.false_ne_true

theorem protocolExceptionOp_integrates (hr : running d (canPg k) = true) (hs : canState d k < 2) (hp : rb d (canPg k) 0x80 2 = true) :
    protocolExceptionOp d k = wf (cnt d (canPg k) 0x260 1) (canPg k) 0xc0 16 2 3 :=
  (if_neg (canOnBus_runs hr hs)).trans (if_pos hp)

end

/-- Settles O40: bus errors by their kind, bus-off, recovery, the protocol exception, the transceiver fault. -/
theorem canErrorsAct : Obligations.CanErrorsAct := by
  intro s t k d
  have hd : devAt s.dev t = d := rfl
  clear_value d
  intro pg
  refine ⟨fun hr hs tx => ?_, fun e tec rec h => canErrCounts_busOff e k.val h, fun h => ⟨fun m hm => ?_, fun hc => ?_, fun hc hb => ?_⟩,
    fun hr hs hp => lands_congr (hd ▸ lands_canProtocolException t k s) (protocolExceptionOp_integrates hr hs hp),
    fun h => lands_congr (hd ▸ lands_busIntegrationEnd t k s) (if_pos h), fun h => lands_congr (hd ▸ lands_busIntegrationEnd t k s) (if_neg h),
    fun h => lands_congr (hd ▸ lands_canXcvrFault t k s) (if_pos h)⟩
  · intro e d0 up
    have hE : ∀ x, x ≠ .ack → Lands t (.canBusError t k x tx) s _ := fun x hx =>
      lands_congr (hd ▸ lands_canBusError t k x tx s) (canBusErrorOp_other hr hs tx hx)
    exact ⟨hE .bit CanErr.noConfusion, hE .stuff CanErr.noConfusion, hE .form CanErr.noConfusion, hE .crc CanErr.noConfusion,
      lands_congr (hd ▸ lands_canBusError t k .ack tx s) (canBusErrorOp_ack hr hs tx)⟩
  · exact lands_congr (hd ▸ lands_canRecover t m k s) ((regPut_canRecover s.mem hm).trans (if_pos h))
  · exact lands_congr (hd ▸ lands_busOffRecovery t k s) (if_pos ⟨h, hc⟩)
  · exact lands_congr (hd ▸ lands_busOffRecovery t k s) (busOffRecoveryOp_waits hc hb)

/-! ### LIN slots -/

/-- A slot of entry `e` shown (R235). -/
def linSlotShown (d : Dev) (l e : Nat) : Dev :=
  let w := linEntry d.tbl l e
  wf (setLin d l { lin d l with sched := 0, hdrFid := none, entry := if bit w 62 then 0 else (e + 1) % 64,
                                slotEnd := some (d.now + fld w 16 16 * 100 * usTicks) }) (linPg l) 0xa8 2 6 e

/-- The slot of entry `e`: the published response, or the header of a subscribed frame (R235 to R237). -/
def linSlotOf (d : Dev) (l e : Nat) : Dev :=
  let w := linEntry d.tbl l e
  let d1 := linSlotShown d l e
  if !bit w 6 then if pubValid d l (fld w 0 6) then linPublish d1 l (fld w 0 6) w else cnt d1 (linPg l) 0x238 1
  else
    let d2 := linAwait d1 l (fld w 0 6) (fld w 8 4) (rf d (linPg l) 0x80 24 5 + 21)
    if claimGated d then d2
    else if linSilent d l then d1
    else emit d2 (.linHeader l (fld w 0 6) (rf d (linPg l) 0x80 24 5) (rf d (linPg l) 0x80 8 16))

def linSlotNext (d : Dev) (l : Nat) : Option Nat → Dev
  | none => d
  | some e => linSlotOf d l e

/-- The slot of a master has ended, or none has begun. -/
def slotPast (now : Instant) : Option Instant → Bool
  | some y => decide (y ≤ now)
  | none => true

theorem slotPast_of {now : Instant} {x : Option Instant} (h : ∀ y, x = some y → y ≤ now) : slotPast now x = true := by
  cases x with
  | none => rfl
  | some y => exact decide_eq_true (h y rfl)

theorem linSlotOp_eq (d : Dev) (l : Nat) : linSlotOp d l =
    if !linMaster d l ∨ !slotPast d.now (lin d l).slotEnd then d
    else if (lin d l).gosleep then linSleepNow d l
    else if d.pair.yield.isSome ∨ !rb d (linPg l) 0x88 0 ∨ rb d (linPg l) 0xa8 0 ∨ (lin d l).resume.isSome then d
    else linSlotNext d l (linNext d.tbl l (if (lin d l).sched = 1 then 0 else (lin d l).entry)) := by
  unfold linSlotOp linSlotNext linSlotOf linSlotShown slotPast
  rfl

section
variable {d : Dev} {l : Nat}

theorem linSlotOp_early {y : Instant} (hy : (lin d l).slotEnd = some y) (h : d.now < y) : linSlotOp d l = d := by
  rw [linSlotOp_eq, hy]
  have hp : slotPast d.now (some y) = false := decide_eq_false (Nat.not_le.mpr h)
  exact if_pos (.inr (by rw [hp]; rfl))

section
variable (hm : linMaster d l = true) (hy : ∀ y, (lin d l).slotEnd = some y → y ≤ d.now)
include hm hy

theorem linSlotOp_due : linSlotOp d l =
    if (lin d l).gosleep then linSleepNow d l
    else if d.pair.yield.isSome ∨ !rb d (linPg l) 0x88 0 ∨ rb d (linPg l) 0xa8 0 ∨ (lin d l).resume.isSome then d
    else linSlotNext d l (linNext d.tbl l (if (lin d l).sched = 1 then 0 else (lin d l).entry)) := by
  rw [linSlotOp_eq, hm, slotPast_of hy]
  exact if_neg (by decide)

theorem linSlotOp_sleeps (hg : (lin d l).gosleep = true) : linSlotOp d l = linSleepNow d l := (linSlotOp_due hm hy).trans (if_pos hg)

/-- A master that runs its schedule serves its next entry. -/
theorem linSlotOp_serves (hg : (lin d l).gosleep = false) (hp : d.pair.yield = none) (hr : rb d (linPg l) 0x88 0 = true)
    (hs : rb d (linPg l) 0xa8 0 = false) (hn : (lin d l).resume = none) {e : Nat}
    (he : linNext d.tbl l (if (lin d l).sched = 1 then 0 else (lin d l).entry) = some e) : linSlotOp d l = linSlotOf d l e := by
  refine (linSlotOp_due hm hy).trans ((if_neg (by rw [hg]; decide)).trans ((if_neg ?_).trans (congrArg (linSlotNext d l) he)))
  rw [hp, hr, hs, hn]
  decide

end

section
variable {e : Nat}

theorem linSlotOf_published (hw : bit (linEntry d.tbl l e) 6 = false) : linSlotOf d l e =
    if pubValid d l (fld (linEntry d.tbl l e) 0 6) then linPublish (linSlotShown d l e) l (fld (linEntry d.tbl l e) 0 6) (linEntry d.tbl l e)
    else cnt (linSlotShown d l e) (linPg l) 0x238 1 := if_pos (by rw [hw]; decide)

theorem linSlotOf_subscribed (hw : bit (linEntry d.tbl l e) 6 = true) : linSlotOf d l e =
    (let w := linEntry d.tbl l e
     let d2 := linAwait (linSlotShown d l e) l (fld w 0 6) (fld w 8 4) (rf d (linPg l) 0x80 24 5 + 21)
     if claimGated d then d2
     else if linSilent d l then linSlotShown d l e
     else emit d2 (.linHeader l (fld w 0 6) (rf d (linPg l) 0x80 24 5) (rf d (linPg l) 0x80 8 16))) := if_neg (by rw [hw]; decide)

end

/-! ### LIN headers and responses -/

/-- The rate of a received header noted by a slave with AUTO_BAUD (R235). -/
def linMeasured (d : Dev) (l baud : Nat) : Dev :=
  if rb d (linPg l) 0x80 29 = true ∧ linMaster d l = false then wf d (linPg l) 0xa8 16 16 baud else d

theorem linHeaderOp_ignores {fid baud : Nat} (hm : linMaster d l = true) (hg : claimGated d = false) : linHeaderOp d l fid baud = d :=
  if_pos (.inr ⟨hm, by rw [hg]; rfl⟩)

section
variable {fid : Nat} (baud : Nat) (hr : running d (linPg l) = true) (hm : linMaster d l = false ∨ claimGated d = true)
include hr hm

omit baud in
theorem linListens : ¬((!running d (linPg l)) = true ∨ linMaster d l = true ∧ (!claimGated d) = true) := by
  rw [hr]
  rintro (h | ⟨h, hg⟩)
  · exact absurd h (by decide)
  · rcases hm with hm | hm
    · exact Bool.false_ne_true (hm.symm.trans h)
    · rw [hm] at hg
      exact absurd hg (by decide)

theorem linHeaderOp_none (hf : linFor d.tbl l fid = none) : linHeaderOp d l fid baud = linMeasured d l baud := by
  unfold linHeaderOp linMeasured
  refine (if_neg (linListens hr hm)).trans ?_
  rw [show linFor (curView d).tbl l fid = none from hf]
  exact if_congr (and_congr_right' (iff_of_eq (Bool.not_eq_true' _))) rfl rfl

theorem linHeaderOp_awaits {w : W64} (hf : linFor d.tbl l fid = some w) (hw : bit w 6 = true) :
    linHeaderOp d l fid baud = linAwait (linMeasured d l baud) l fid (fld w 8 4) 0 := by
  unfold linHeaderOp linMeasured
  refine (if_neg (linListens hr hm)).trans ?_
  rw [show linFor (curView d).tbl l fid = some w from hf]
  refine (if_pos hw).trans (congrArg (linAwait · l fid (fld w 8 4) 0) ?_)
  exact if_congr (and_congr_right' (iff_of_eq (Bool.not_eq_true' _))) rfl rfl

end

section
variable {f : LinFrame} {start : Instant} (hr : running d (linPg l) = true)
include hr

theorem linRxOp_other (h : (lin d l).hdrFid ≠ some f.fid) : linRxOp d l f none start = d := (if_neg (by rw [hr]; decide)).trans (if_pos h)

theorem linRxOp_wrongSum (h : (lin d l).hdrFid = some f.fid) (hs : linSumOk d l f = false) :
    linRxOp d l f none start = linErr (setLin d l { lin d l with hdrFid := none }) l 0x218 :=
  (if_neg (by rw [hr]; decide)).trans ((if_neg (not_not.mpr h)).trans (if_pos (by rw [hs]; decide)))

theorem linRxOp_complete (h : (lin d l).hdrFid = some f.fid) (hs : linSumOk d l f = true) : linRxOp d l f none start =
    ferryReady (cnt (setLin d l { lin d l with hdrFid := none }) (linPg l) 0x200 1)
      (edgeTimes d { src := 56 + l, lin := some f } (start / edgeTicks * edgeTicks)) :=
  (if_neg (by rw [hr]; decide)).trans ((if_neg (not_not.mpr h)).trans (if_neg (by rw [hs]; decide)))

end

/-! ### LIN sleep and wake -/

theorem regPut_linCmd (mem : List Host.Cell) {m : Master} {l : Fin 8} (h : Accepts d m (.lin l)) (v : W64) :
    regPut mem d m (.lin l) 0x90 v =
      (let d1 := if bit v 0 then linGotoSleepOp d l.val else d
       if bit v 1 then linWakeOp d1 l.val else d1) := by
  rw [regPut_accepts _ _ _ _ _ _ h (by decide) (.inl (by decide))]
  unfold regWrite
  exact (if_neg (by decide)).trans (if_pos rfl)

theorem linWakeOp_pulses (hm : linMaster d l = true) (hs : linSilent d l = false) :
    linWakeOp d l = emit (linResumeIn d l) (.linWakePulse l (wakeUs d l)) :=
  (if_neg (by rw [hm]; decide)).trans (if_neg (by rw [hs]; decide))

theorem linResumeOp_of {r : Instant} (h : (lin d l).resume = some r) : linResumeOp d l =
    if r ≤ d.now then setLin d l { lin d l with resume := none, entry := 0, slotEnd := none, sched := 1 } else d := by
  unfold linResumeOp
  rw [h]

theorem linWakeRxOp_up (h : domUp d 14 = true) : linWakeRxOp d l =
    if linMaster d l then linResumeIn (irq (wb d (linPg l) 0xa8 1 true) (linPg l) 0) l else irq (wb d (linPg l) 0xa8 1 true) (linPg l) 0 :=
  if_neg (by rw [h]; decide)

end

/-- Settles O41: slots, headers, responses, sleep and wake of a LIN channel. -/
theorem linActs : Obligations.LinActs := by
  intro s t l d
  have hd : devAt s.dev t = d := rfl
  clear_value d
  intro pg x
  refine ⟨fun hm hy hg hp hr hs hn e he => ?_, fun hm hy hg => lands_congr (hd ▸ lands_linSlotStart t l s) (linSlotOp_sleeps hm hy hg),
    fun y hy h => lands_congr (hd ▸ lands_linSlotStart t l s) (linSlotOp_early hy h), fun fid baud hr hm => ?_,
    fun fid baud hm hg => lands_congr (hd ▸ lands_linHeaderReceived t l fid baud s) (linHeaderOp_ignores hm hg), fun f start hf hr => ?_,
    fun h hr ht => lands_congr (hd ▸ lands_linNoResponse t l s) (if_pos ⟨h, hr, ht⟩),
    fun h => lands_congr (hd ▸ lands_linNoResponse t l s) (if_neg fun h' => Nat.not_le.mpr h h'.2.2), fun m hA hm => ⟨?_, fun hs => ?_⟩,
    fun r hr => ?_, fun h => ?_, fun h => ⟨lands_congr (hd ▸ lands_linWakeRx t l s) (if_pos (by rw [h]; rfl)),
      lands_congr (hd ▸ lands_linBusStuck t l s) (if_neg (by rw [h]; decide))⟩⟩
  · have hS := lands_congr (hd ▸ lands_linSlotStart t l s) (linSlotOp_serves hm hy hg hp hr hs hn he)
    intro w x1 d1
    refine ⟨fun hw => ?_, fun hw hv => lands_congr hS ((linSlotOf_published hw).trans (if_neg (by rw [hv]; decide))),
      fun hw hv => lands_congr hS ((linSlotOf_published hw).trans (if_pos hv))⟩
    have hS := lands_congr hS (linSlotOf_subscribed hw)
    intro d2
    exact ⟨fun hc => lands_congr hS (if_pos hc), fun hc hs => lands_congr hS ((if_neg (by rw [hc]; decide)).trans (if_pos hs)),
      fun hc hs => lands_congr hS ((if_neg (by rw [hc]; decide)).trans (if_neg (by rw [hs]; decide)))⟩
  · intro d1
    exact ⟨fun hn => lands_congr (hd ▸ lands_linHeaderReceived t l fid baud s) (linHeaderOp_none baud hr hm hn),
      fun w hn hw => lands_congr (hd ▸ lands_linHeaderReceived t l fid baud s) (linHeaderOp_awaits baud hr hm hn hw)⟩
  · intro d1 err
    have hR : ∀ e d', linRxOp d l.val f e start = d' → Lands t (.linFrameReceived t l f e start) s d' := fun e _ h =>
      lands_congr (hd ▸ lands_linFrameReceived t l f e start s hf) h
    have hr' : ¬(!running d (linPg l.val)) = true := by rw [show running d (linPg l.val) = true from hr]; decide
    exact ⟨hR _ _ (if_neg hr'), hR _ _ (if_neg hr'), hR _ _ (if_neg hr'), hR _ _ (if_neg hr'), fun h hs => hR _ _ (linRxOp_wrongSum hr h hs),
      fun h hs => hR _ _ (linRxOp_complete hr h hs), fun h => hR _ _ (linRxOp_other hr h)⟩
  · exact lands_congr (hd ▸ lands_linGotoSleep t m l s) ((regPut_linCmd s.mem hA 1).trans (if_pos hm))
  · exact lands_congr (hd ▸ lands_linWake t m l s) ((regPut_linCmd s.mem hA 2).trans (linWakeOp_pulses hm hs))
  · have hR := lands_congr (hd ▸ lands_linResume t l s) (linResumeOp_of hr)
    exact ⟨fun h => lands_congr hR (if_pos h), fun h => lands_congr hR (if_neg (Nat.not_le.mpr h))⟩
  · intro e
    have hW := lands_congr (hd ▸ lands_linWakeRx t l s) (linWakeRxOp_up h)
    exact ⟨fun hm => lands_congr hW (if_neg (by rw [hm]; decide)), fun hm => lands_congr hW (if_pos hm),
      lands_congr (hd ▸ lands_linBusStuck t l s) (if_pos h)⟩

end Sys2Proof.Machine
end

section
/-! PROOF. The Ferry and the witness engine (spec ch. 8 and 9). -/

namespace Sys2Proof.Machine
open Safety

/-! ### The start of the Ferry's work -/

/-- Four cycles of CLK_EDGE have passed since the last start (R240). -/
def ferrySpaced (now : Instant) : Option Instant → Bool
  | some x => decide (x + 4 * edgeTicks ≤ now)
  | none => true

theorem ferrySpaced_of {now : Instant} {x : Option Instant} (h : ∀ y, x = some y → y + 4 * edgeTicks ≤ now) : ferrySpaced now x = true := by
  cases x with
  | none => rfl
  | some y => exact decide_eq_true (h y rfl)

/-- The wait of a work that starts, recorded (R240). -/
def ferryWaited (d d1 : Dev) (w : EdgeWork) : Dev :=
  let wait := (d.now - w.ready) / edgeTicks
  let d2 := setFerry d1 fun f => { f with lastAt := some d.now }
  if (rd d2 .ferry 0xb0).toNat < wait then wr d2 .ferry 0xb0 (BitVec.ofNat 64 wait) else d2

/-- A work that was taken is submitted, or lost with its message RAM (R227). -/
def ferryStarted (d : Dev) (e : EccEvent) : Option (EdgeWork × Dev) → Dev
  | none => d
  | some (w, d1) =>
    let ram := w.stream.isNone && w.can.isSome
    let d3 := ferryWaited d d1 w
    if ram && e.lost then ramLost d3 (w.src - 32) else ferrySubmit (if ram then ramRead d3 e else d3) w

section
variable {d : Dev}

theorem ferryStartOp_starts (hr : running d .ferry = true) (hu : domUp d 14 = true)
    (hs : ∀ x, d.ferry.lastAt = some x → x + 4 * edgeTicks ≤ d.now) (e : EccEvent) :
    ferryStartOp d e = ferryStarted d e (ferryTake d) := by
  have he : ferryStartOp d e = if !running d .ferry || !domUp d 14 || !ferrySpaced d.now d.ferry.lastAt then d else ferryStarted d e (ferryTake d) := by
    unfold ferryStartOp ferryStarted ferrySpaced ferryWaited
    rfl
  rw [he, hr, hu, ferrySpaced_of hs]
  exact if_neg (by decide)

theorem ferryStarted_clean {w : EdgeWork} {d1 : Dev} {x : Option (EdgeWork × Dev)} (h : x = some (w, d1)) :
    ferryStarted d .clean x = ferrySubmit (ferryWaited d d1 w) w := by
  subst h
  refine (if_neg fun h => ?_).trans (congrArg (ferrySubmit · w) (ite_self (ferryWaited d d1 w)))
  exact Bool.false_ne_true (Bool.and_eq_true_iff.mp h).2

section
variable {w : EdgeWork} {d1 : Dev} {x : Option (EdgeWork × Dev)} (h : x = some (w, d1)) (hs : w.stream = none) (hc : w.can.isSome = true)
  (k : Nat)
include h hs hc

theorem ferryStarted_corrected :
    ferryStarted d (.corrected k) x = ferrySubmit (seenTwice (raise (ferryWaited d d1 w) .chip 4) 4 k).2 w := by
  subst h
  refine (if_neg fun h => ?_).trans (congrArg (ferrySubmit · w) (if_pos ?_))
  · exact Bool.false_ne_true (Bool.and_eq_true_iff.mp h).2
  · rw [hs, hc]
    rfl

theorem ferryStarted_lost : ferryStarted d (.uncorrectable k) x = ramLost (ferryWaited d d1 w) (w.src - 32) := by
  subst h
  refine if_pos ?_
  rw [hs, hc]
  rfl

end

/-! ### Verdicts, windows, carriers -/

section
variable {v : Verdicts} {l : List Verdicts} (hb : d.ferry.back = v :: l)
include hb

theorem verdictReturnOp_early (h : d.now < v.at0 + 30) : verdictReturnOp d = d := by
  unfold verdictReturnOp
  rw [hb]
  exact if_pos h

theorem verdictReturnOp_dropped (h : v.at0 + 30 ≤ d.now) (hf : v.fwd = []) :
    verdictReturnOp d = cnt (setFerry d fun f => { f with back := l }) .ferry 0x210 1 := by
  unfold verdictReturnOp
  rw [hb]
  exact (if_neg (Nat.not_lt.mpr h)).trans (if_pos hf)

/-- The verdicts of a frame without a stream: its copies for the edge targets. -/
theorem verdictReturnOp_targets (h : v.at0 + 30 ≤ d.now) (hf : v.fwd ≠ []) (hl : v.work.late = false) {r : Nat}
    (hr : (ferryPlan (setFerry d fun f => { f with back := l }) (viewOf (setFerry d fun f => { f with back := l }) v.epoch) v.work).route = some r)
    (hs : (ferryPlan (setFerry d fun f => { f with back := l }) (viewOf (setFerry d fun f => { f with back := l }) v.epoch) v.work).stream = none) :
    verdictReturnOp d = (let d0 := setFerry d fun f => { f with back := l }
      let vw := viewOf d0 v.epoch
      ((ferryPlan d0 vw v.work).targets.filter v.fwd.contains).foldl (fun d x => toTarget d vw.tbl r v.work x) d0) := by
  unfold verdictReturnOp
  rw [hb]
  refine (if_neg (Nat.not_lt.mpr h)).trans ((if_neg hf).trans ((if_neg (by rw [hl]; decide)).trans ?_))
  rw [hr, hs]

end

section
variable {s : Nat} {x : Window} (hx : kvGet d.ferry.windows s = some x)
include hx

theorem aggCloseOp_of : aggCloseOp d s = if x.opened + windowUs (viewOf d x.epoch).tbl s * 65536000 ≤ locNow d then closeWindow d s else d := by
  unfold aggCloseOp
  rw [hx]

theorem closeWindow_of : closeWindow d s =
    (let d1 := setFerry d fun f => { f with windows := kvDel f.windows s }
     if x.msgs = [] then d1 else presentCarrier d1 (viewOf d1 x.epoch) s x.msgs) := by
  unfold closeWindow
  rw [hx]

end

theorem carrierReceivedOp_reads {c : Copy} {l : List Copy} (h : d.ferryIn = c :: l) (hr : running d .ferry = true) :
    carrierReceivedOp d = carrierOp { d with ferryIn := l } c := by
  unfold carrierReceivedOp
  dsimp only
  rw [if_neg (by rw [h]; exact List.cons_ne_nil _ _), h]
  exact if_pos hr

/-! ### Stalls -/

theorem ferryStallOp_old {w : EdgeWork} (hr : running d .ferry = true) (hw : w ∈ d.ferry.ready) (h : w.ready + 10 * usTicks < d.now) :
    ferryStallOp d = raise d .ferry 0 := by
  unfold ferryStallOp
  dsimp only
  refine if_pos ?_
  rw [hr, List.any_eq_true.mpr ⟨w, hw, decide_eq_true h⟩]
  rfl

theorem ferryStallOp_none (h : ∀ w ∈ d.ferry.ready, d.now ≤ w.ready + 10 * usTicks)
    (hc : ∀ l ∈ d.ferry.carriers, ∀ w ∈ l, d.now ≤ w.ready + 10 * usTicks) : ferryStallOp d = d := by
  unfold ferryStallOp
  dsimp only
  refine if_neg ?_
  rw [Bool.and_eq_true, Bool.or_eq_true, List.any_eq_true, List.any_eq_true]
  rintro ⟨-, ⟨w, hw, ho⟩ | ⟨l, hl, ho⟩⟩
  · exact absurd (of_decide_eq_true ho) (Nat.not_lt.mpr (h w hw))
  · obtain ⟨w, hw, ho⟩ := List.any_eq_true.mp ho
    exact absurd (of_decide_eq_true ho) (Nat.not_lt.mpr (hc l hl w hw))

/-! ### Late errors -/

end

/-- The work is that of a frame, received as such (R248). -/
def isWork (w : Nat) (x : EdgeWork) : Bool := x.id == w && x.stream.isNone

/-- The frame withdrawn from the Ferry and from the presentations that wait, and the copies that withdraws. -/
def lateTaken (d : Dev) (w : Nat) : Dev × Nat :=
  let q := quay d 3
  let held := q.ready.map (presWithdraw d.now (isWork w) w)
  let entered := q.pipe.filterMap fun h => (presWithdraw h.1 (isWork w) w h.2).1.map fun x => (h.1, x)
  let backs := d.ferry.back.filter fun v => isWork w v.work
  let without (e : Nat × Window) : Option (Nat × Window) :=
    let l := e.2.msgs.filter fun m => m.work != w
    if l = [] then none else some (e.1, { e.2 with msgs := l })
  (setFerry (setQuay d 3 { q with ready := held.filterMap (·.1), pipe := entered }) fun f =>
      { f with ready := f.ready.filter fun x => !isWork w x, back := f.back.filter fun v => !isWork w v.work,
               windows := f.windows.filterMap without },
    (d.ferry.ready.filter (isWork w)).length + (held.map (·.2)).sum + (backs.map lateCopies).sum
      + (d.ferry.windows.map fun e => (e.2.msgs.filter fun m => m.work == w).length).sum)

/-- The frame withdrawn from the publish buffers of a LIN channel. -/
def latePub (w : Nat) (acc : Dev × Nat) (l : Nat) : Dev × Nat := ((pubWithdraw acc.1 l w).1, acc.2 + (pubWithdraw acc.1 l w).2)

/-- The frame withdrawn from the transmit area of a CAN controller. -/
def lateTx (w k : Nat) (onBus : List (Fin 24)) (acc : Dev × Nat) (c : Nat) : Dev × Nat :=
  if onBus.any (fun x => x.val == c) then acc
  else
    let sel (x : CanTx) : Bool := x.work == w && x.src == 32 + k
    let m := ((can acc.1 c).tx.filter sel).length
    (if m = 0 then acc.1 else canTxDrop acc.1 c sel, acc.2 + m)

/-- What a late error withdraws, and counts. -/
def lateAll (d : Dev) (w k : Nat) (onBus : List (Fin 24)) : Dev × Nat :=
  (List.range 24).foldl (lateTx w k onBus) ((List.range 8).foldl (latePub w) (lateTaken d w))

theorem lateErrorOp_none {d : Dev} {k : Nat} (onBus : List (Fin 24)) (h : (can d k).lastRx = none) : lateErrorOp d k onBus = d := by
  unfold lateErrorOp
  rw [h]

theorem irq_ferry (d : Dev) (pg : Page) (b : Nat) : (irq d pg b).ferry = d.ferry :=
  irq_part Dev.ferry (fun _ _ _ _ => rfl) (fun _ _ => rfl) (fun _ _ => rfl) d pg b

theorem irq_cans (d : Dev) (pg : Page) (b : Nat) : (irq d pg b).cans = d.cans :=
  irq_part Dev.cans (fun _ _ _ _ => rfl) (fun _ _ => rfl) (fun _ _ => rfl) d pg b

theorem lateCount_ferry (d : Dev) (n : Nat) : (lateCount d n).ferry = d.ferry := by
  unfold lateCount
  split
  · rfl
  · exact (irq_ferry _ _ _).trans (cnt_ferry d .ferry 0x230 n)

theorem lateCount_cans (d : Dev) (n : Nat) : (lateCount d n).cans = d.cans := by
  unfold lateCount
  split
  · rfl
  · exact (irq_cans _ _ _).trans (cnt_cans d .ferry 0x230 n)

theorem pubBack_ferry {β : Type} (pg : Page) (f : β → Nat) (v : β → W64) (g : β → Nat) (b : β → Bool) (l : List β) : ∀ d : Dev,
    (l.foldl (fun d x => wb (wr d pg (f x) (v x)) pg 0x600 (g x) (b x)) d).ferry = d.ferry := by
  induction l with
  | nil => exact fun _ => rfl
  | cons x l ih => exact fun d => (ih _).trans rfl

theorem pubWithdraw_ferry (d : Dev) (l w : Nat) : (pubWithdraw d l w).1.ferry = d.ferry := by
  unfold pubWithdraw
  dsimp only
  split
  · rfl
  · exact pubBack_ferry (linPg l) (fun b : Nat × Nat × W64 × Bool => 0x400 + b.1 * 8) (·.2.2.1) (·.1) (·.2.2.2) _ d

theorem foldl_ferry {f : Dev × Nat → Nat → Dev × Nat} (hf : ∀ x c, (f x c).1.ferry = x.1.ferry) (l : List Nat) :
    ∀ x, (l.foldl f x).1.ferry = x.1.ferry := by
  induction l with
  | nil => exact fun _ => rfl
  | cons c l ih => exact fun x => (ih _).trans (hf x c)

theorem lateErrorOp_withdraws {d : Dev} {k : Nat} (onBus : List (Fin 24)) {w : EdgeWork} (h : (can d k).lastRx = some w) :
    lateErrorOp d k onBus = (let x := lateAll d w.id k onBus
      lateCount (setCan x.1 k { can x.1 k with lastRx := none }) x.2) := by
  unfold lateErrorOp
  rw [h]
  unfold lateAll lateTaken latePub lateTx isWork
  dsimp only [Prod.mk.eta]

theorem lateTx_ferry (w k : Nat) (onBus : List (Fin 24)) (x : Dev × Nat) (c : Nat) : (lateTx w k onBus x c).1.ferry = x.1.ferry := by
  unfold lateTx
  split
  · rfl
  · dsimp only
    split <;> rfl

theorem lateAll_ready (d : Dev) (w k : Nat) (onBus : List (Fin 24)) :
    (lateAll d w k onBus).1.ferry.ready = d.ferry.ready.filter fun x => !isWork w x := by
  unfold lateAll
  rw [foldl_ferry (lateTx_ferry w k onBus), foldl_ferry (f := latePub w) fun x c => pubWithdraw_ferry x.1 c w]
  rfl

/-- After a late error the channel has no last frame, and no work of it waits. -/
theorem lateErrorOp_forgets {d : Dev} {k : Nat} (onBus : List (Fin 24)) {w : EdgeWork} (h : (can d k).lastRx = some w) :
    (can (lateErrorOp d k onBus) k).lastRx = none ∧ ∀ x ∈ (lateErrorOp d k onBus).ferry.ready, ¬(x.id = w.id ∧ x.stream = none) := by
  rw [lateErrorOp_withdraws onBus h]
  dsimp only
  constructor
  · unfold can kvD
    rw [lateCount_cans]
    unfold setCan
    rw [kvGet_kvPut_same]
    rfl
  · rw [lateCount_ferry]
    intro x hx ⟨hi, hs⟩
    rw [show (setCan (lateAll d w.id k onBus).1 k _).ferry = (lateAll d w.id k onBus).1.ferry from rfl, lateAll_ready, List.mem_filter] at hx
    obtain ⟨-, hx⟩ := hx
    unfold isWork at hx
    rw [hi, hs, beq_self_eq_true] at hx
    exact absurd hx (by decide)

/-- Settles O42: the Ferry's start, its verdicts, its windows, its carriers, late errors, stalls. -/
theorem ferryActs : Obligations.FerryActs := by
  intro s t d
  have hd : devAt s.dev t = d := rfl
  clear_value d
  refine ⟨fun hr hu hs => ?_, fun v l hb => ⟨fun h => ?_, fun h hf => ?_, fun h hf hl => ?_⟩, fun i x hx => ?_, fun c l h hr => ?_,
    fun k onBus h => ?_, fun k onBus w h => ?_, fun hr ⟨w, hw, h⟩ => ?_, fun h hc => ?_⟩
  · have hS : ∀ e, Lands t (.ferryStart t e) s _ := fun e => lands_congr (hd ▸ lands_ferryStart t e s) (ferryStartOp_starts hr hu hs e)
    refine ⟨fun h e => lands_congr (hS e) (congrArg (ferryStarted d e) h), fun w d1 h => ?_⟩
    intro wait d2 d3
    refine ⟨lands_congr (hS .clean) (ferryStarted_clean h), fun hw hc k => ⟨?_, ?_⟩⟩
    · exact lands_congr (hS (.corrected k)) (ferryStarted_corrected h hw hc k)
    · exact lands_congr (hS (.uncorrectable k)) (ferryStarted_lost h hw hc k)
  · exact lands_congr (hd ▸ lands_ferryVerdictReturn t s) (verdictReturnOp_early hb h)
  · exact lands_congr (hd ▸ lands_ferryVerdictReturn t s) (verdictReturnOp_dropped hb h hf)
  · intro d0 vw p r hr hs
    exact lands_congr (hd ▸ lands_ferryVerdictReturn t s) (verdictReturnOp_targets hb h hf hl hr hs)
  · have hW := lands_congr (hd ▸ lands_aggWindowClose t i s) (aggCloseOp_of hx)
    intro due
    refine ⟨fun h hm => lands_congr hW ((if_pos h).trans ((closeWindow_of hx).trans (if_pos hm))), fun h hm => ?_,
      fun h => lands_congr hW (if_neg (Nat.not_le.mpr h))⟩
    exact lands_congr hW ((if_pos h).trans ((closeWindow_of hx).trans (if_neg hm)))
  · exact lands_congr (hd ▸ lands_carrierReceived t s) (carrierReceivedOp_reads h hr)
  · exact lands_congr (hd ▸ lands_canLateError t k onBus s) (lateErrorOp_none onBus h)
  · exact ⟨_, hd ▸ lands_canLateError t k onBus s, lateErrorOp_forgets onBus h⟩
  · exact lands_congr (hd ▸ lands_ferryStall t s) (ferryStallOp_old hr hw h)
  · exact lands_congr (hd ▸ lands_ferryStall t s) (ferryStallOp_none h hc)

/-! ### The witness engine -/

theorem irq_xwe (d : Dev) (pg : Page) (b : Nat) : (irq d pg b).xwe = d.xwe :=
  irq_part Dev.xwe (fun _ _ _ _ => rfl) (fun _ _ => rfl) (fun _ _ => rfl) d pg b

/-- The device keeps its taps. -/
def KeepsTaps (d e : Dev) : Prop := e.xwe.fifo = d.xwe.fifo

theorem keepsTaps_of_xwe {d e : Dev} (h : e.xwe = d.xwe) : KeepsTaps d e := congrArg XweSt.fifo h

theorem keepsTaps_trans {a b c : Dev} (h : KeepsTaps a b) (h' : KeepsTaps b c) : KeepsTaps a c := Eq.trans h' h

theorem keepsTaps_foldl {β : Type} {f : Dev → β → Dev} (h : ∀ d x, KeepsTaps d (f d x)) (l : List β) : ∀ d, KeepsTaps d (l.foldl f d) := by
  induction l with
  | nil => exact fun _ => rfl
  | cons x l ih => exact fun d => keepsTaps_trans (h d x) (ih _)

theorem witRecord_xwe (d : Dev) (vw : View) (c ev onset t : Nat) (e : CmpEval) : (witRecord d vw c ev onset t e).xwe = d.xwe := by
  unfold witRecord
  dsimp only
  split
  · rfl
  · split
    · exact (irq_xwe _ _ _).trans (cnt_xwe d .xwe 0x728 1)
    · rfl

theorem xweViolation_taps (d : Dev) (vw : View) (c onset t : Nat) (e : CmpEval) : KeepsTaps d (xweViolation d vw c onset t e) := by
  refine keepsTaps_of_xwe ((witRecord_xwe ..).trans ((irq_xwe ..).trans ?_))
  exact (cnt_xwe _ .xwe 0x720 1).trans ((wb_xwe _ .xwe 0xd8 c true).trans (wb_xwe d .xwe 0xd0 c true))

theorem xweViolEnd_taps (d : Dev) (vw : View) (c onset t : Nat) (e : CmpEval) : KeepsTaps d (xweViolEnd d vw c onset t e) :=
  keepsTaps_of_xwe ((witRecord_xwe ..).trans ((irq_xwe ..).trans (wb_xwe d .xwe 0xd0 c false)))

/-- A comparator replaced. -/
def cmpPut (d : Dev) (c : Nat) (s : XweCmp) : Dev := setXwe d { d.xwe with cmps := kvPut d.xwe.cmps c s }

theorem xweEval_taps (d : Dev) (vw : View) (t c : Nat) : KeepsTaps d (xweEval d vw t c) := by
  have hp : ∀ s, KeepsTaps d (cmpPut d c s) := fun _ => rfl
  unfold xweEval
  dsimp only
  split
  · exact hp _
  · exact ite_part (·.xwe.fifo) _ (keepsTaps_trans (hp _) (xweViolation_taps ..)) (hp _)
  · exact ite_part (·.xwe.fifo) _ (ite_part (·.xwe.fifo) _ (keepsTaps_trans (hp _) (xweViolEnd_taps ..)) (hp _)) (hp _)

theorem xweTickEval_taps (d : Dev) (dm t : Nat) : KeepsTaps d (xweTickEval d dm t) :=
  keepsTaps_trans (keepsTaps_foldl (fun d c => xweEval_taps d _ t c) _ d) rfl

theorem xweTicksDue_taps (d : Dev) : KeepsTaps d (xweTicksDue d) := by
  unfold xweTicksDue
  have h := keepsTaps_foldl (f := fun d (k : Nat × Nat × Nat) => xweTickEval d k.1 k.2.1) (fun d k => xweTickEval_taps d k.1 k.2.1)
    (d.xwe.ticks.filter fun k => k.2.2 == 0) (setXwe d { d.xwe with ticks := d.xwe.ticks.filter fun k => k.2.2 != 0 })
  exact Eq.trans h rfl

theorem refillEnd_xwe (d : Dev) (pg : Page) : (refillEnd d pg).xwe = d.xwe := by
  unfold refillEnd
  split
  · rfl
  · have h : (irq (wb { d with refillAt := kvDel d.refillAt pg.base } pg 0x18 5 false) pg 63).xwe = d.xwe := (irq_xwe ..).trans rfl
    dsimp only
    split
    · exact h
    · exact ite_part Dev.xwe _ ((wf_xwe ..).trans ((wf_xwe ..).trans ((wf_xwe ..).trans ((wf_xwe ..).trans h)))) ((wf_xwe ..).trans h)

theorem xweRelease_taps (d : Dev) : KeepsTaps d (xweRelease d) :=
  ite_part (·.xwe.fifo) _ (keepsTaps_trans (b := setXwe d { d.xwe with refDone := false }) rfl (keepsTaps_of_xwe (refillEnd_xwe ..))) rfl

theorem xweSample_taps (vw : View) (tp : Tap) (p : Parsed) (ms : List (Nat × Nat × Nat)) (x : Dev × List (Nat × Nat)) (i : Nat) :
    KeepsTaps x.1 (xweSample vw tp p ms x i).1 := by
  unfold xweSample
  dsimp only
  split
  · rfl
  · exact keepsTaps_of_xwe (cnt_xwe _ .xwe 0x710 1)
  · split
    · exact keepsTaps_of_xwe (cnt_xwe _ .xwe 0x718 1)
    · rfl

theorem xweSamples_taps (vw : View) (tp : Tap) (p : Parsed) (ms : List (Nat × Nat × Nat)) (l : List Nat) :
    ∀ x, KeepsTaps x.1 (l.foldl (xweSample vw tp p ms) x).1 := by
  induction l with
  | nil => exact fun _ => rfl
  | cons i l ih => exact fun x => keepsTaps_trans (xweSample_taps vw tp p ms x i) (ih _)

theorem xweTapOp_waits {d : Dev} (h : d.xwe.fifo = [] ∨ running d .xwe = false ∨ d.now < d.xwe.busyTo) : xweTapOp d = d := by
  unfold xweTapOp
  split
  · rfl
  · rename_i tp rest hf
    refine if_pos ((h.resolve_left fun h => ?_).imp_left fun h => by rw [h]; rfl)
    exact List.cons_ne_nil tp rest (hf.symm.trans h)

/-- The oldest tap is taken, and the others stay. -/
theorem xweTapOp_takes {d : Dev} {tp : Tap} {rest : List Tap} (hf : d.xwe.fifo = tp :: rest) (hr : running d .xwe = true)
    (hb : d.xwe.busyTo ≤ d.now) : (xweTapOp d).xwe.fifo = rest := by
  unfold xweTapOp
  rw [hf]
  dsimp only
  rw [if_neg (not_or.mpr ⟨by rw [hr]; decide, Nat.not_lt.mpr hb⟩)]
  refine Eq.trans (xweRelease_taps _) (Eq.trans (xweTicksDue_taps _) (Eq.trans (b := XweSt.fifo (Dev.xwe (List.foldl _ _ _))) rfl
    (Eq.trans (keepsTaps_foldl (fun d c => ?_) _ _) (Eq.trans (xweSamples_taps _ tp _ _ _ _) rfl))))
  split
  · exact xweEval_taps ..
  · rfl

/-! ### Ticks -/

/-- The tick at `tt` was evaluated. -/
def tickPast (tt : Nat) : Option Nat → Bool
  | some x => decide (tt ≤ x)
  | none => false

section
variable {d : Dev} {dm : Nat}

theorem xweTickOp_off (h : af d .xwe 0x80 0 10 * 65536000000 = 0 ∨ running d .xwe = false ∨ domOn d dm = false) : xweTickOp d dm = d := by
  refine if_pos ?_
  rcases h with h | h | h
  · exact .inr (.inr h)
  · exact .inl (by rw [h]; rfl)
  · exact .inr (.inl (by rw [h]; rfl))

variable (hp : af d .xwe 0x80 0 10 * 65536000000 ≠ 0) (hr : running d .xwe = true) (ho : domOn d dm = true)
include hp hr ho

theorem xweTickOp_on : xweTickOp d dm =
    (let per := af d .xwe 0x80 0 10 * 65536000000
     let tt := timeOf d dm / per * per
     if tickPast tt (kvGet d.xwe.lastTick dm) = true then d
     else xweTicksDue (setXwe d { d.xwe with lastTick := kvPut d.xwe.lastTick dm tt, ticks := d.xwe.ticks ++ [(dm, tt, d.xwe.fifo.length)] })) := by
  unfold xweTickOp
  dsimp only
  rw [if_neg hp, if_neg (by rw [hr, ho]; exact not_or.mpr ⟨by decide, not_or.mpr ⟨by decide, hp⟩⟩)]
  cases kvGet d.xwe.lastTick dm <;> rfl

theorem xweTickOp_again {x : Nat} (hx : kvGet d.xwe.lastTick dm = some x)
    (h : timeOf d dm / (af d .xwe 0x80 0 10 * 65536000000) * (af d .xwe 0x80 0 10 * 65536000000) ≤ x) : xweTickOp d dm = d := by
  refine (xweTickOp_on hp hr ho).trans (if_pos ?_)
  rw [hx]
  exact decide_eq_true h

/-- A tick that is new. -/
theorem xweTickOp_new (h : ∀ x, kvGet d.xwe.lastTick dm = some x →
      x < timeOf d dm / (af d .xwe 0x80 0 10 * 65536000000) * (af d .xwe 0x80 0 10 * 65536000000)) : xweTickOp d dm =
    (let per := af d .xwe 0x80 0 10 * 65536000000
     let tt := timeOf d dm / per * per
     xweTicksDue (setXwe d { d.xwe with lastTick := kvPut d.xwe.lastTick dm tt, ticks := d.xwe.ticks ++ [(dm, tt, d.xwe.fifo.length)] })) := by
  refine (xweTickOp_on hp hr ho).trans (if_neg ?_)
  cases hx : kvGet d.xwe.lastTick dm with
  | none => exact Bool.false_ne_true
  | some x => exact fun he => absurd (of_decide_eq_true he) (Nat.not_le.mpr (h x hx))

end

/-! ### Comparators -/

/-- A deviation above its limit for longer than PERSIST is a violation (R268). -/
theorem xweEval_violates {e : Dev} {vw : View} {x c : Nat} {rc dev : Int} {onset : Nat} (hc : (cmpCond e vw c x).rcDev = some (rc, dev))
    (hl : (fld (cmpReg e vw c 2) 0 24 : Int) * 256 + (fld (cmpReg e vw c 2) 24 8 : Int) * rc.natAbs / 256 < dev.natAbs)
    (hs : (kvD e.xwe.cmps c {}).state = 1) (ho : (kvD e.xwe.cmps c {}).onset = some onset)
    (hp : fld (cmpReg e vw c 2) 44 12 * 655360000000 < x - onset) :
    xweEval e vw x c = xweViolation (cmpPut e c { kvD e.xwe.cmps c {} with stale := false, dev := dev, since := none, state := 2 }) vw c onset x
      (cmpCond e vw c x) := by
  unfold xweEval cmpPut
  dsimp only
  rw [hc]
  dsimp only
  rw [decide_eq_true hl]
  dsimp only
  rw [if_neg (show ¬(kvD e.xwe.cmps c {}).state = 0 by rw [hs]; decide), ho]
  exact if_pos ⟨hs, hp⟩

/-- Settles O43: the taps, the ticks, the comparators of the witness engine. -/
theorem witnessEngineActs : Obligations.WitnessEngineActs := by
  intro s t d
  have hd : devAt s.dev t = d := rfl
  clear_value d
  refine ⟨fun h => lands_congr (hd ▸ lands_xweTapProcess t s) (xweTapOp_waits h),
    fun tp rest hf hr hb => ⟨_, hd ▸ lands_xweTapProcess t s, xweTapOp_takes hf hr hb⟩, fun dm => ?_,
    fun e vw x c rc dev onset hc => ?_, fun e vw c onset x ev => ⟨rfl, rfl⟩⟩
  · intro per tt
    refine ⟨fun h => lands_congr (hd ▸ lands_xweTick t dm s) (xweTickOp_off h), fun hp hr ho => ⟨fun x hx h => ?_, fun h => ?_⟩⟩
    · exact lands_congr (hd ▸ lands_xweTick t dm s) (xweTickOp_again hp hr ho hx h)
    · exact lands_congr (hd ▸ lands_xweTick t dm s) (xweTickOp_new hp hr ho h)
  · intro tol s0 hl hs ho hp s1
    exact xweEval_violates hc hl hs ho hp

end Sys2Proof.Machine
end

section
/-! PROOF. Wake sources, network management, the keeper and idle quays (spec ch. 10 and 11). -/

namespace Sys2Proof.Machine
open Safety

section
variable (mem : List Host.Cell) {d : Dev} {m : Master} {off : Nat} (h8 : off % 8 = 0) (hl : 0x80 ≤ off) (hs : off < 0x800) (v : W64)
include h8 hl hs

theorem regPut_buoy {i : Fin 4} (h : Accepts d m (.buoy i)) : regPut mem d m (.buoy i) off v = buoyWrite d m i off v := by
  rw [regPut_accepts _ _ _ _ _ _ h h8 (.inl hs)]
  unfold regWrite
  exact if_neg (by omega)

end

/-! ### Wake sources -/

section
variable {d : Dev} {k : Nat}

theorem canWupOp_short {us : Nat} (h : bit (ac d (.buoy 0) (0x100 + k * 8)) 20 = false ∨ bit (ac d (.buoy 0) (0x100 + k * 8)) 2 = true
    ∨ us < fld (ac d (.buoy 0) (0x100 + k * 8)) 12 8) : canWupOp d k us = d := by
  refine if_neg ?_
  rintro ⟨h1, h2, h3⟩
  rcases h with h | h | h
  · exact Bool.false_ne_true (h.symm.trans h1)
  · rw [h] at h2
    exact absurd h2 (by decide)
  · exact Nat.not_le.mpr h h3

theorem canWupOp_wakes {us : Nat} (h1 : bit (ac d (.buoy 0) (0x100 + k * 8)) 20 = true) (h2 : bit (ac d (.buoy 0) (0x100 + k * 8)) 2 = false)
    (h3 : fld (ac d (.buoy 0) (0x100 + k * 8)) 12 8 ≤ us) : canWupOp d k us = wakeEvents d [k] :=
  if_pos ⟨h1, by rw [h2]; rfl, h3⟩

/-- A decoder that is on. -/
theorem frameDecoded_on (h1 : bit (ac d (.buoy 0) (0x100 + k * 8)) 20 = true)
    (h2 : bit (ac d (.buoy 0) (0x100 + k * 8)) 2 = true ∨ rb d (canPg k) 0xb0 8 = true) :
    ¬(!(bit (ac d (.buoy 0) (0x100 + k * 8)) 20 && (bit (ac d (.buoy 0) (0x100 + k * 8)) 2 || rb d (canPg k) 0xb0 8))) = true := by
  rw [h1, Bool.or_eq_true_iff.mpr h2]
  decide

section
variable (h1 : bit (ac d (.buoy 0) (0x100 + k * 8)) 20 = true)
  (h2 : bit (ac d (.buoy 0) (0x100 + k * 8)) 2 = true ∨ rb d (canPg k) 0xb0 8 = true)
include h1 h2

theorem frameDecodedOp_valid {x : CanFrame} (hf : x.fdf = false) (hx : x.xlf = false) (h3 : bit (ac d (.buoy 0) (0x100 + k * 8)) 3 = false) :
    frameDecodedOp d k (.valid x) = wakeEvents (if running d (canPg k) then d else (kaOfCan d k x).foldl keepAliveOp d)
      (((List.range 64).filter fun f => filterHit d f k x).map (64 + ·)) := by
  unfold frameDecodedOp
  refine (if_neg (frameDecoded_on h1 h2)).trans ((if_neg (by rw [hf, hx]; decide)).trans ?_)
  dsimp only
  rw [if_neg (show ¬bit (ac d (.buoy 0) (0x100 + k * 8)) 3 = true by rw [h3]; decide)]

theorem frameDecodedOp_error (h3 : bit (ac d (.buoy 0) (0x100 + k * 8)) 3 = true) : frameDecodedOp d k .error =
    (let n := kvD d.buoy.fec k 0
     let put := fun x => setBuoy d fun b => { b with fec := kvPut b.fec k x }
     if fld (ac d (.buoy 0) (0x100 + k * 8)) 4 8 < n + 1 then wakeEvents (put 0) [k] else put (n + 1)) := by
  unfold frameDecodedOp
  exact (if_neg (frameDecoded_on h1 h2)).trans (if_neg (by rw [h3]; decide))

end

theorem linPulseOp_on {l us : Nat} (h : bit (ac d (.buoy 0) (0x1c0 + l * 8)) 16 = true) : linPulseOp d l us =
    if 20000 < us then setSrc d (24 + l) fun x => { x with ignored := min ctrMax (x.ignored + 1) }
    else if fld (ac d (.buoy 0) (0x1c0 + l * 8)) 0 13 ≤ us then wakeEvents d [24 + l] else d := if_neg (by rw [h]; decide)

theorem linPulseOp_short {l us : Nat} (h : bit (ac d (.buoy 0) (0x1c0 + l * 8)) 16 = false ∨ us < fld (ac d (.buoy 0) (0x1c0 + l * 8)) 0 13
    ∧ us ≤ 20000) : linPulseOp d l us = d := by
  rcases hb : bit (ac d (.buoy 0) (0x1c0 + l * 8)) 16 with _ | _
  · exact if_pos (by rw [hb]; rfl)
  · obtain ⟨h1, h2⟩ := h.resolve_left (by rw [hb]; decide)
    exact (linPulseOp_on hb).trans ((if_neg (Nat.not_lt.mpr h2)).trans (if_neg (Nat.not_le.mpr h1)))

theorem phyWakeOp_wakes {p : Nat} (h4 : 4 ≤ p) (hp : p < 26) (h : ab d (.buoy 0) 0x240 (p - 4) = true) (hr : running d (phyPage p) = false) :
    phyWakeOp d p = wakeEvents d [28 + p] := if_pos ⟨h4, hp, h, by rw [hr, Bool.not_false, Bool.or_true, Bool.true_or]⟩

theorem phyWakeOp_off {p : Nat} (h : p < 4 ∨ ab d (.buoy 0) 0x240 (p - 4) = false) : phyWakeOp d p = d :=
  if_neg fun h' => h.elim (fun h => Nat.not_le.mpr h h'.1) fun h => Bool.false_ne_true (h.symm.trans h'.2.2.1)

theorem wakePinOp_on {n : Nat} (active : Bool) (h : ab d (.buoy 0) (0x200 + n * 8) 0 = true) : wakePinOp d n active =
    if !active then setBuoy d fun b => { b with pins := b.pins.filter (· != n) }
    else if d.buoy.pins.contains n then d
    else wakeEvents (setBuoy d fun b => { b with pins := b.pins ++ [n] }) [54 + n] := if_neg (by rw [h]; decide)

end

/-- Settles O44: each wake source, with its condition met and not met. -/
theorem wakeSourcesAct : Obligations.WakeSourcesAct := by
  intro s t d
  have hd : devAt s.dev t = d := rfl
  clear_value d
  refine ⟨fun k us => ?_, fun l us => ?_, fun p => ⟨fun h4 h hr => ?_, fun h => ?_⟩, fun n h => ?_⟩
  · intro c
    refine ⟨fun h1 h2 h3 => lands_congr (hd ▸ lands_canWup t k us s) (canWupOp_wakes h1 h2 h3),
      fun h => lands_congr (hd ▸ lands_canWup t k us s) (canWupOp_short h), fun h1 h2 => ⟨fun x hx hf hl h3 => ?_, fun h3 => ?_⟩⟩
    · exact lands_congr (hd ▸ lands_buoyFrameDecoded t k (.valid x) s hx) (frameDecodedOp_valid h1 h2 hf hl h3)
    · have hE := lands_congr (hd ▸ lands_buoyFrameDecoded t k .error s rfl) (frameDecodedOp_error h1 h2 h3)
      intro n put
      exact ⟨fun h => lands_congr hE (if_pos h), fun h => lands_congr hE (if_neg (Nat.not_lt.mpr h))⟩
  · intro c
    exact ⟨fun h hl hu => lands_congr (hd ▸ lands_linWakePulse t l us s) ((linPulseOp_on h).trans ((if_neg (Nat.not_lt.mpr hu)).trans (if_pos hl))),
      fun h hu => lands_congr (hd ▸ lands_linWakePulse t l us s) ((linPulseOp_on h).trans (if_pos hu)),
      fun h => lands_congr (hd ▸ lands_linWakePulse t l us s) (linPulseOp_short h)⟩
  · exact lands_congr (hd ▸ lands_phyWakeDetect t p s) (phyWakeOp_wakes h4 p.isLt h hr)
  · exact lands_congr (hd ▸ lands_phyWakeDetect t p s) (phyWakeOp_off h)
  · have hW := fun a => lands_congr (hd ▸ lands_wakePinEvent t n a s) (wakePinOp_on a h)
    exact ⟨fun hp => lands_congr (hW true) ((if_neg (by decide)).trans (if_neg (by rw [hp]; decide))),
      fun hp => lands_congr (hW true) ((if_neg (by decide)).trans (if_pos hp)), lands_congr (hW false) (if_pos rfl)⟩

/-! ### Keep-alives -/

theorem clus_setClus_same (d : Dev) (n : Nat) (f : Cluster → Cluster) : clus (setClus d n f) n = f (clus d n) := by
  unfold clus setClus setBuoy kvD
  dsimp only
  rw [kvGet_kvPut_same]
  rfl

/-- A keep-alive noted in its cluster (R289). -/
def clAlive (d : Dev) (n : Nat) : Dev := setClus d n fun c => { c with lastKa := some d.now, timer := d.now }

/-- An entry to a deep state aborted by a keep-alive (R310). -/
def kaEntry (d : Dev) : Option (Nat × Instant) → Dev
  | some (t, x) => if !ponrPast d t x ∧ !d.fcn.safe then entryAbort d else d
  | none => d

section
variable {d : Dev} {n : Nat}

theorem keepAliveOp_valid (h : clValid d n = true) : keepAliveOp d n =
    (let s := (clus d n).state
     let d2 := if s = 2 ∨ s = 5 then clAwake (clAlive d n) n
       else if s = 3 ∧ (clus d n).ponr.isNone then clAwake (clCancel (clAlive d n) n) n else clAlive d n
     kaEntry d2 d2.pwr.entry) := (if_neg (by rw [h]; decide)).trans rfl

theorem kaEntry_none {x : Option (Nat × Instant)} (h : x = none) : kaEntry d x = d := by rw [h]; rfl

theorem keepAliveOp_keeps (h : clValid d n = true) (hs : (clus d n).state = 1 ∨ (clus d n).state = 4) (he : (clAlive d n).pwr.entry = none) :
    keepAliveOp d n = clAlive d n := by
  rw [keepAliveOp_valid h]
  dsimp only
  rw [if_neg (by omega), if_neg (by omega)]
  exact kaEntry_none he

theorem keepAliveOp_wakes (h : clValid d n = true) (hs : (clus d n).state = 2 ∨ (clus d n).state = 5)
    (he : (clAwake (clAlive d n) n).pwr.entry = none) : keepAliveOp d n = clAwake (clAlive d n) n := by
  rw [keepAliveOp_valid h]
  dsimp only
  rw [if_pos hs]
  exact kaEntry_none he

theorem keepAliveOp_cancels (h : clValid d n = true) (hs : (clus d n).state = 3) (hp : (clus d n).ponr = none)
    (he : (clAwake (clCancel (clAlive d n) n) n).pwr.entry = none) : keepAliveOp d n = clAwake (clCancel (clAlive d n) n) n := by
  rw [keepAliveOp_valid h]
  dsimp only
  rw [if_neg (by omega), if_pos ⟨hs, by rw [hp]; rfl⟩]
  exact kaEntry_none he

theorem keepAliveIn_none (h : kvGet d.buoy.kaDue n = none) : keepAliveIn d n = d := by
  unfold keepAliveIn
  rw [h]

theorem keepAliveIn_due {y : Instant} (h : kvGet d.buoy.kaDue n = some y) : keepAliveIn d n =
    if d.now < y + 299 then d else keepAliveOp (setBuoy d fun b => { b with kaDue := kvDel b.kaDue n }) n := by
  unfold keepAliveIn
  rw [h]

/-! ### Timers and sleeps of a cluster -/

theorem falseWakeOp_vain (h : clValid d n = true) (hs : (clus d n).state = 5)
    (ht : timerOut d (clus d n).entered (fld (clWord d n 2) 32 16) = true) (hw : (clus d n).woken = none) :
    falseWakeOp d n = clSleep (irq (setClus d n fun c => { c with woken := none }) (.buoy 0) 1) n := by
  unfold falseWakeOp
  refine (if_neg ?_).trans ?_
  · rw [h, ht]
    exact not_or.mpr ⟨by decide, not_or.mpr ⟨not_not.mpr hs, by decide⟩⟩
  · rw [hw]

theorem clPonr_clus (d : Dev) (n : Nat) : (clus (clPonr d n) n).ponr = some d.now ∧ (clus (clPonr d n) n).waits = [] := by
  unfold clPonr
  dsimp only
  rw [clus_setClus_same]
  exact ⟨rfl, rfl⟩

section
variable {x : Instant} (hs : (clus d n).state = 3) (hp : (clus d n).ponr = some x)
include hp

theorem windowEndOp_early (h : d.now < x + af d (.buoy 0) 0x80 8 8 * usTicks) : windowEndOp d n = d := by
  unfold windowEndOp
  dsimp only
  rw [hp]
  exact if_pos (.inr h)

include hs

theorem windowEndOp_asleep (h : x + af d (.buoy 0) 0x80 8 8 * usTicks ≤ d.now) (hl : (clus d n).latch = none) (hc : clCan d n = none) :
    windowEndOp d n = setClus (clTo d n 4) n fun c => { c with ponr := none, latch := none, owed := false } := by
  unfold windowEndOp
  dsimp only
  rw [hp]
  refine (if_neg (not_or.mpr ⟨not_not.mpr hs, Nat.not_lt.mpr h⟩)).trans ?_
  rw [hl, hc]

end

theorem regPut_nmLocal (mem : List Host.Cell) {m : Master} (h : Accepts d m (.buoy 0)) (v : W64) :
    regPut mem d m (.buoy 0) 0x400 v = writeFields d (.buoy 0) 0x400 v := by
  rw [regPut_buoy mem (by decide) (by decide) (by decide) v h]
  unfold buoyWrite
  exact (if_neg (by decide)).trans (if_neg (by decide))

end

/-- Settles O45: LOCAL_NEED, keep-alives, the timers of a cluster, its point of no return, its window. -/
theorem networkManagementActs : Obligations.NetworkManagementActs := by
  intro s t n d
  have hd : devAt s.dev t = d := rfl
  clear_value d
  intro c
  refine ⟨fun m v hm => lands_congr (hd ▸ lands_nmLocalWrite t m v s) (regPut_nmLocal s.mem hm v),
    fun h => lands_congr (hd ▸ lands_keepAlive t n s) (keepAliveIn_none h), fun y hy => ?_, fun hv => ⟨fun hs hl ht => ?_, fun hs ht => ?_,
      fun hs ht => ?_, fun hs ht => ?_, fun hs ht hw => ?_, fun hs hp hc hl => ⟨fun ht => ?_, fun ht => ?_⟩⟩, fun x hs hp => ⟨fun h => ?_, fun h hl hc => ?_⟩⟩
  · have hK := lands_congr (hd ▸ lands_keepAlive t n s) (keepAliveIn_due hy)
    refine ⟨fun h => lands_congr hK (if_pos h), fun h => ?_⟩
    have hK := lands_congr hK (if_neg (Nat.not_lt.mpr h))
    intro d0 d1
    refine ⟨fun hv => lands_congr hK (if_pos (by rw [show clValid (setBuoy d _) n.val = false from hv]; rfl)), fun hv he => ⟨fun hs => ?_, fun hs he => ?_, fun hs hp he => ?_⟩⟩
    · exact lands_congr hK (keepAliveOp_keeps hv hs he)
    · exact lands_congr hK (keepAliveOp_wakes hv hs he)
    · exact lands_congr hK (keepAliveOp_cancels hv hs hp he)
  · exact lands_congr (hd ▸ lands_nmTimeout t n s) (if_pos ⟨hv, hs, by rw [hl]; rfl, ht⟩)
  · exact lands_congr (hd ▸ lands_nmTimeout t n s) (if_neg fun h => Bool.false_ne_true (ht.symm.trans h.2.2.2))
  · exact lands_congr (hd ▸ lands_readySleepExpiry t n s) (if_pos ⟨hv, hs, ht⟩)
  · exact lands_congr (hd ▸ lands_readySleepExpiry t n s) (if_neg fun h => Bool.false_ne_true (ht.symm.trans h.2.2))
  · exact lands_congr (hd ▸ lands_falseWakeExpiry t n s) (falseWakeOp_vain hv hs ht hw)
  · have hS := lands_congr (hd ▸ lands_sleepConditionsMet t n s) (if_pos ⟨hv, hs, by rw [hp]; rfl, hc, hl, ht⟩)
    exact ⟨hS, ⟨_, hS, clPonr_clus d n.val⟩⟩
  · exact lands_congr (hd ▸ lands_sleepConditionsMet t n s) (if_neg fun h => Nat.not_le.mpr ht h.2.2.2.2.2)
  · exact lands_congr (hd ▸ lands_modeChangeWindowEnd t n s) (windowEndOp_early hp h)
  · exact lands_congr (hd ▸ lands_modeChangeWindowEnd t n s) (windowEndOp_asleep hs hp h hl hc)

/-! ### The keeper -/

theorem rd_rewritten_same (d : Dev) (pg : Page) (off : Nat) : rd (rewritten d pg off) pg off = rd d pg off := rd_wr_same ..

/-- An accepted write of KICK or RELEASE alone: the rest of BUOY_KEEP_CTRL is as it was. -/
theorem regBits_keeper (mem : List Host.Cell) {d : Dev} {m : Master} (h : Accepts d m (.buoy 0)) {set : W64} (hs : set = 2 ∨ set = 4) :
    regBits mem d m (.buoy 0) 0x280 set 0 =
      (let e := rewritten d (.buoy 0) 0x280
       if set = 2 then keeperKickOp e m else keeperReleaseOp e m) := by
  have hf : writeFields d (.buoy 0) 0x280 (((rd d (.buoy 0) 0x280 &&& keepBits (.buoy 0) 0x280) ||| set) &&& ~~~0) =
      rewritten d (.buoy 0) 0x280 := by
    rcases hs with rfl | rfl <;> exact writeFields_act _ _ _ _ _ rfl (by decide)
  have hb : ∀ i, i = 1 ∨ i = 2 → bit (((rd d (.buoy 0) 0x280 &&& keepBits (.buoy 0) 0x280) ||| set) &&& ~~~0) i = bit set i := by
    rintro i (rfl | rfl) <;> rw [bit_act, show keepBits (.buoy 0) 0x280 = 0x71 by decide] <;>
      simp only [show bit (0x71 : W64) 1 = false by decide, show bit (0x71 : W64) 2 = false by decide, Bool.and_false, Bool.false_or]
  have he : ¬((!rb d (.buoy 0) 0x280 0) = true ∧ rb (rewritten d (.buoy 0) 0x280) (.buoy 0) 0x280 0 = true) := by
    unfold rb
    rw [rd_rewritten_same]
    cases bit (rd d (.buoy 0) 0x280) 0 <;> decide
  unfold regBits
  rw [regPut_buoy mem (by decide) (by decide) (by decide) _ h]
  unfold buoyWrite
  refine (if_pos ⟨rfl, rfl⟩).trans ?_
  dsimp only
  rw [hf, if_neg he, hb 1 (.inl rfl), hb 2 (.inr rfl)]
  rcases hs with rfl | rfl
  · rw [show bit (2 : W64) 1 = true by decide, show bit (2 : W64) 2 = false by decide, if_neg Bool.false_ne_true]
    rfl
  · rw [show bit (4 : W64) 1 = false by decide, show bit (4 : W64) 2 = true by decide, if_pos rfl, if_neg Bool.false_ne_true]
    rfl

theorem keeperMaster_rewritten (d : Dev) : keeperMaster (rewritten d (.buoy 0) 0x280) = keeperMaster d := by
  unfold keeperMaster rf
  rw [rd_rewritten_same]

section
variable {d : Dev}

theorem keeperPeriodOp_off (h : rb d (.buoy 0) 0x280 0 = false ∨ rb d (.buoy 0) 0x288 3 = true) : keeperPeriodOp d = d :=
  if_pos (h.elim (fun h => .inl (by rw [h]; rfl)) fun h => .inr (.inl h))

theorem keeperPeriodOp_ends (he : rb d (.buoy 0) 0x280 0 = true) (hs : rb d (.buoy 0) 0x288 3 = false) (ht : d.buoy.keepAt + 99 * msTicks ≤ d.now) :
    keeperPeriodOp d =
      if d.buoy.kicked then wf (setBuoy d fun b => { b with kicked := false, keepAt := d.now }) (.buoy 0) 0x288 0 2 0
      else
        let p := setBuoy d fun b => { b with keepAt := d.now }
        let d1 := wf p (.buoy 0) 0x288 0 2 (min 3 (rf p (.buoy 0) 0x288 0 2 + 1))
        if rf p (.buoy 0) 0x288 0 2 ≠ 2 then d1
        else
          let d2 := raise (wb (wb d1 (.buoy 0) 0x288 2 true) (.buoy 0) 0x288 4 true) (.buoy 0) 0
          let d3 := irq (cnt d2 (.buoy 0) 0x490 1) (.buoy 0) 3
          manPush d3 13 1 (wordBytes (rd d3 (.buoy 0) 0x490) ++ leBytes 1 (keeperMaster p)) :=
  if_neg (by rw [he, hs]; exact not_or.mpr ⟨by decide, not_or.mpr ⟨by decide, Nat.not_lt.mpr ht⟩⟩)

/-- The third period without a KICK in a row trips the keeper (R297). -/
theorem keeperPeriodOp_trips (he : rb d (.buoy 0) 0x280 0 = true) (hs : rb d (.buoy 0) 0x288 3 = false)
    (ht : d.buoy.keepAt + 99 * msTicks ≤ d.now) (hk : d.buoy.kicked = false) (hm : rf d (.buoy 0) 0x288 0 2 = 2) : keeperPeriodOp d =
      (let p := setBuoy d fun b => { b with keepAt := d.now }
       let d1 := raise (wb (wb (wf p (.buoy 0) 0x288 0 2 3) (.buoy 0) 0x288 2 true) (.buoy 0) 0x288 4 true) (.buoy 0) 0
       let d2 := irq (cnt d1 (.buoy 0) 0x490 1) (.buoy 0) 3
       manPush d2 13 1 (wordBytes (rd d2 (.buoy 0) 0x490) ++ leBytes 1 (keeperMaster p))) := by
  rw [keeperPeriodOp_ends he hs ht, if_neg (by rw [hk]; decide)]
  dsimp only
  rw [show rf (setBuoy d fun b => { b with keepAt := d.now }) (.buoy 0) 0x288 0 2 = 2 from hm]
  exact if_neg (not_not.mpr rfl)

end

/-- Settles O46: KICK, RELEASE and the periods of the keeper. -/
theorem keeperActs : Obligations.KeeperActs := by
  intro s t d
  have hd : devAt s.dev t = d := rfl
  clear_value d
  intro pg e
  refine ⟨fun m hm => ?_, fun he hs ht => ?_, fun h => lands_congr (hd ▸ lands_keeperPeriod t s) (if_pos (.inr (.inr h))),
    fun h => lands_congr (hd ▸ lands_keeperPeriod t s) (keeperPeriodOp_off h)⟩
  · have hK := lands_congr (hd ▸ lands_keeperKick t m s) ((regBits_keeper s.mem hm (.inl rfl)).trans (if_pos rfl))
    have hR := lands_congr (hd ▸ lands_keeperRelease t m s) ((regBits_keeper s.mem hm (.inr rfl)).trans (if_neg (by decide)))
    have hE : keeperMaster e = keeperMaster d := keeperMaster_rewritten d
    refine ⟨fun h => ⟨lands_congr hK (if_pos (h.trans hE.symm)), fun hk => ?_⟩, fun h => ?_⟩
    · exact lands_congr hR ((if_neg (not_not.mpr (h.trans hE.symm))).trans (if_pos hk))
    · exact ⟨lands_congr hK (if_neg fun h' => h (h'.trans hE)), lands_congr hR (if_pos fun h' => h (h'.trans hE))⟩
  · have hP := lands_congr (hd ▸ lands_keeperPeriod t s) (keeperPeriodOp_ends he hs ht)
    intro p
    refine ⟨fun h => lands_congr hP (if_pos h), fun h hm => lands_congr hP ((if_neg (by rw [h]; decide)).trans (if_pos hm)), fun h hm => ?_⟩
    exact lands_congr (hd ▸ lands_keeperPeriod t s) (keeperPeriodOp_trips he hs ht h hm)

/-! ### Idle quays -/

section
variable {d : Dev} {n : Nat} (hs : d.fcn.safe = false) (hi : (quay d n).isoAt = none)
include hs hi

theorem quayClockGateOp_gates (ht : pwrTarget d ≠ 0) (hc : domCond d (5 + n) = 1) (hp : p1Idle d n = true) {y : Instant}
    (hy : kvGet d.pwr.idle1 n = some y) (h : y + usTicks ≤ d.now) :
    quayClockGateOp d n = pagesStop (wb (setDomCond d (5 + n) 2) .pwr 0x88 (8 + n) true) (domainPages (5 + n)) := by
  unfold quayClockGateOp
  rw [hs, hi, hp, hy]
  refine if_neg ?_
  rintro (h' | h' | h' | h' | h' | h')
  · exact Bool.false_ne_true h'
  · exact ht h'
  · exact h' hc
  · exact absurd h' (by decide)
  · exact absurd h' (by decide)
  · exact absurd (decide_eq_true h) (by simpa using h')

theorem quayPowerGateOp_gates (ht : 2 ≤ pwrTarget d) (hu : domUp d (5 + n) = true) (hp : p2Idle d n = true) {y : Instant}
    (hy : kvGet d.pwr.idle2 n = some y) (h : y + max 1 (rf d .pwr 0x80 16 16) * usTicks ≤ d.now) :
    quayPowerGateOp d n = (let d1 := statusReset (quayForget (ltDomainStop d [5 + n]) n) fun pg => pg.domain == 5 + n
      wb (wb (setDomCond d1 (5 + n) 3) .pwr 0x88 (8 + n) false) .pwr 0x88 (12 + n) true) := by
  unfold quayPowerGateOp
  rw [hs, hi, hp, hu, hy]
  refine if_neg ?_
  rintro (h' | h' | h' | h' | h' | h')
  · exact Bool.false_ne_true h'
  · exact Nat.not_lt.mpr ht h'
  · exact absurd h' (by decide)
  · exact absurd h' (by decide)
  · exact absurd h' (by decide)
  · exact absurd (decide_eq_true h) (by simpa using h')

end

section
variable {d : Dev} {n : Nat}

theorem quayRestoreOp_begins (hs : d.fcn.safe = false) (hp : pwrState d < 3) (hc : domCond d (5 + n) = 2 ∨ domCond d (5 + n) = 3)
    (hr : (quay d n).restore = none) : quayRestoreOp d n = setQuay d n { quay d n with restore := some (d.now, domCond d (5 + n)) } := by
  unfold quayRestoreOp
  refine if_neg ?_
  rw [hs, hr]
  rintro (h | h | h | h)
  · exact Bool.false_ne_true h
  · omega
  · rcases hc with hc | hc <;> rw [hc] at h <;> exact absurd h (by decide)
  · exact absurd h (by decide)

theorem quayRestoreDoneOp_of {y : Instant} {c : Nat} (h : (quay d n).restore = some (y, c)) :
    quayRestoreDoneOp d n = if y + (if c = 2 then 640 else 48 * usTicks) ≤ d.now then quayOn d n else d := by
  unfold quayRestoreDoneOp
  rw [h]

theorem quayOn_runs (h : ¬(domCond d (5 + n) = 3 ∧ pwrTarget d = 1 ∧ p1Idle d n = true)) : quayOn d n =
    (let d1 := wb (setQuay d n { quay d n with restore := none }) .pwr 0x88 (12 + n) false
     pagesStart (setDomCond (quayPass (wb d1 .pwr 0x88 (8 + n) false) n (domCond d (5 + n))) (5 + n) 1) (domainPages (5 + n))) := by
  unfold quayOn
  dsimp only
  rw [if_neg h, decide_eq_false h]

end

/-- Settles O47: clock gating, power gating and restoration of an idle quay. -/
theorem quayGatingActs : Obligations.QuayGatingActs := by
  intro s t q d
  have hd : devAt s.dev t = d := rfl
  clear_value d
  intro x
  refine ⟨fun hs hi => ⟨fun ht hc hp y hy h => ?_, fun ht => ?_, fun ht hu hp y hy h => ?_, fun ht => ?_, fun hp hc hr => ?_⟩, fun y c hr => ?_⟩
  · exact lands_congr (hd ▸ lands_quayClockGate t q s) (quayClockGateOp_gates hs hi ht hc hp hy h)
  · exact lands_congr (hd ▸ lands_quayClockGate t q s) (if_pos (.inr (.inl ht)))
  · exact lands_congr (hd ▸ lands_quayPowerGate t q s) (quayPowerGateOp_gates hs hi ht hu hp hy h)
  · exact lands_congr (hd ▸ lands_quayPowerGate t q s) (if_pos (.inr (.inl ht)))
  · exact lands_congr (hd ▸ lands_quayRestore t q s) (quayRestoreOp_begins hs hp hc hr)
  · have hR := lands_congr (hd ▸ lands_quayRestoreDone t q s) (quayRestoreDoneOp_of hr)
    intro due
    refine ⟨fun h => lands_congr hR (if_neg (Nat.not_le.mpr h)), fun h hg => ?_⟩
    exact lands_congr hR ((if_pos h).trans (quayOn_runs hg))

end Sys2Proof.Machine
end

section
/-! PROOF. Deep power states: the entry, the point at which a state is reached, the exit (spec ch. 11). -/

namespace Sys2Proof.Machine
open Safety

/-! ### Frames -/

theorem foldl_part {α β : Type} (f : Dev → α) {g : Dev → β → Dev} (h : ∀ d x, f (g d x) = f d) (l : List β) : ∀ d, f (l.foldl g d) = f d := by
  induction l with
  | nil => exact fun _ => rfl
  | cons x l ih => exact fun d => (ih _).trans (h d x)

section
variable {α : Type} (f : Dev → α) (h : ∀ d pg off v, f (wr d pg off v) = f d)
include h

theorem wf_part (d : Dev) (pg : Page) (off lo len x : Nat) : f (wf d pg off lo len x) = f d := h ..

theorem wb_part (d : Dev) (pg : Page) (off i : Nat) (b : Bool) : f (wb d pg off i b) = f d := h ..

theorem conflict_part (d : Dev) (pg : Page) (c : Nat) : f (conflict d pg c) = f d :=
  (wf_part f h (wb d pg 0x18 3 true) pg 0x18 16 4 c).trans (wb_part f h d pg 0x18 3 true)

theorem dropJoined_part (d : Dev) (pg : Page) : f (dropJoined d pg) = f d := by
  unfold dropJoined
  dsimp only
  rw [conflict_part f h, wf_part f h, wb_part f h, wb_part f h]

theorem slotEnd_part (d : Dev) (n o c p : Nat) : f (slotEnd d n o c p) = f d := by
  unfold slotEnd
  dsimp only
  rw [wf_part f h, wf_part f h, wf_part f h, wf_part f h, wf_part f h, foldl_part f (dropJoined_part f h)]

theorem abortDomain_part (d : Dev) (x : Nat) : f (abortDomain d x) = f d := by
  unfold abortDomain
  refine foldl_part f (fun d n => ite_part f _ ?_ rfl) _ d
  cases (joinedPages d n).find? (fun pg => pg.domain == x) with
  | none => rfl
  | some pg => exact slotEnd_part f h ..

theorem abortDomains_part (d : Dev) : f (abortDomains d) = f d :=
  foldl_part f (fun d x => ite_part f _ rfl (abortDomain_part f h d x)) _ d

end

/-- What a deep state keeps of the clocks: whether CLK_TS stands, since when the device sleeps, the instant. -/
@[irreducible] def clockOf (d : Dev) : Bool × Option Instant × Instant := (d.time.stopped, d.pwr.sleepAt, d.now)

theorem clockOf_congr {d e : Dev} (ht : e.time.stopped = d.time.stopped) (hp : e.pwr.sleepAt = d.pwr.sleepAt) (hn : e.now = d.now) :
    clockOf e = clockOf d := by
  unfold clockOf
  rw [ht, hp, hn]

theorem clockOf_inj {d e : Dev} (h : clockOf e = clockOf d) :
    e.time.stopped = d.time.stopped ∧ e.pwr.sleepAt = d.pwr.sleepAt ∧ e.now = d.now := by
  unfold clockOf at h
  exact ⟨congrArg Prod.fst h, congrArg (fun x => x.2.1) h, congrArg (fun x => x.2.2) h⟩

theorem wr_clock (d : Dev) (pg : Page) (off : Nat) (v : W64) : clockOf (wr d pg off v) = clockOf d := clockOf_congr rfl rfl rfl

theorem wf_clock (d : Dev) (pg : Page) (off lo len x : Nat) : clockOf (wf d pg off lo len x) = clockOf d := wr_clock ..

theorem wb_clock (d : Dev) (pg : Page) (off i : Nat) (b : Bool) : clockOf (wb d pg off i b) = clockOf d := wr_clock ..

theorem cnt_clock (d : Dev) (pg : Page) (off n : Nat) : clockOf (cnt d pg off n) = clockOf d := wr_clock ..

theorem emit_clock (d : Dev) (o : Out) : clockOf (emit d o) = clockOf d := clockOf_congr rfl rfl rfl

theorem irq_clock (d : Dev) (pg : Page) (b : Nat) : clockOf (irq d pg b) = clockOf d :=
  irq_part clockOf wr_clock (fun _ _ => clockOf_congr rfl rfl rfl) emit_clock d pg b

theorem setTout_clock (d : Dev) (n : Nat) (x : Tout) : clockOf (setTout d n x) = clockOf d :=
  (wf_clock _ _ _ _ _ _).trans ((wf_clock _ _ _ _ _ _).trans (clockOf_congr rfl rfl rfl))

theorem toutStopOp_clock (d : Dev) (n : Nat) : clockOf (toutStopOp d n) = clockOf d :=
  ite_part clockOf _ ((emit_clock _ _).trans (setTout_clock _ _ _)) (setTout_clock _ _ _)

theorem timedClear_clock (d : Dev) : clockOf (timedClear d) = clockOf d := by
  have hc : ∀ x : Dev, clockOf { x with time := { x.time with tcaps := [], tcapAt := [] } } = clockOf x := fun _ => clockOf_congr rfl rfl rfl
  unfold timedClear
  dsimp only
  rw [hc, foldl_part clockOf fun d m => wf_clock d (.time 1) (0x208 + m * 0x18) 0 4 0,
    foldl_part clockOf fun d n => (setTout_clock (toutStopOp d n) n {}).trans (toutStopOp_clock d n)]

theorem tsqClear_clock (d : Dev) (p : Nat) : clockOf (tsqClear d p) = clockOf d := (wf_clock _ _ _ _ _ _).trans (clockOf_congr rfl rfl rfl)

theorem tsqClears_clock (d : Dev) (l : List Nat) : clockOf (l.foldl tsqClear d) = clockOf d := foldl_part clockOf tsqClear_clock l d

theorem dropDomains_clock (d : Dev) (keep : Page → Bool) : clockOf (dropDomains d keep) = clockOf d := by
  unfold dropDomains
  generalize hx : (List.range 26).foldl tsqClear (timedClear d) = x
  refine Eq.trans (b := clockOf x) ?_ ?_
  · exact clockOf_congr rfl rfl rfl
  · rw [← hx, tsqClears_clock, timedClear_clock]

theorem tsqPut_clock (d : Dev) (p : Nat) (w0 w1 : W64) : clockOf (tsqPut d p w0 w1) = clockOf d :=
  ite_part clockOf _ ((irq_clock _ _ _).trans ((wb_clock _ _ _ _ _).trans (cnt_clock _ _ _ _)))
    ((irq_clock _ _ _).trans ((wf_clock _ _ _ _ _ _).trans (clockOf_congr rfl rfl rfl)))

theorem tsqEntry_clock (d : Dev) (c : Copy) (x : Nat) (a b p : Bool) : clockOf (tsqEntry d c x a b p) = clockOf d := by
  unfold tsqEntry
  cases c.tsId with
  | none => rfl
  | some i => exact ite_part clockOf _ (tsqPut_clock _ _ _ _) rfl

theorem setQuay_clock (d : Dev) (n : Nat) (q : Quay) : clockOf (setQuay d n q) = clockOf d := clockOf_congr rfl rfl rfl

theorem setPort_clock (d : Dev) (p : Nat) (x : PortSt) : clockOf (setPort d p x) = clockOf d := clockOf_congr rfl rfl rfl

theorem freeCopy_clock (d : Dev) (c : Copy) : clockOf (freeCopy d c) = clockOf d := by
  unfold freeCopy emptied
  exact (ite_part clockOf _ rfl (setPort_clock _ _ _)).trans (tsqEntry_clock d c 0 false true false)

theorem takeCopies_clock (d : Dev) (n : Nat) (sel : Copy → Bool) : clockOf (takeCopies d n sel freeCopy) = clockOf d := by
  unfold takeCopies
  refine foldl_part clockOf (fun d e => ?_) _ d
  dsimp only
  split
  · rfl
  · rw [foldl_part clockOf freeCopy_clock]
    exact setQuay_clock _ _ _

theorem quayForget_clock (d : Dev) (n : Nat) : clockOf (quayForget d n) = clockOf d := by
  have hc : ∀ (e : Dev) (l : List (Nat × Credit)), clockOf { e with credits := l } = clockOf e := fun _ _ => clockOf_congr rfl rfl rfl
  have hp : ∀ d p, clockOf (if p < 26 then tsqClear d p else d) = clockOf d := fun d p => ite_part clockOf _ (tsqClear_clock d p) rfl
  unfold quayForget
  dsimp only
  rw [foldl_part clockOf hp, wf_clock, wf_clock, hc, setQuay_clock, takeCopies_clock]

theorem anchorReset_clock (d : Dev) : clockOf (anchorReset d) = clockOf d := by
  have hw : ∀ (d : Dev) (pg : Page), clockOf (wr (wr d pg 0x20 0) pg 0x40 0) = clockOf d := fun _ _ => (wr_clock _ _ _ _).trans (wr_clock _ _ _ _)
  unfold anchorReset
  dsimp only
  rw [foldl_part clockOf hw]
  exact clockOf_congr rfl rfl rfl

theorem setDomCond_clock (d : Dev) (x c : Nat) : clockOf (setDomCond d x c) = clockOf d := wf_clock ..

theorem domainsTo_clock (d : Dev) (t : Nat) : clockOf (domainsTo d t) = clockOf d :=
  foldl_part clockOf (fun d x => ite_part clockOf _ rfl (setDomCond_clock d x _)) _ d

/-! ### The state is reached -/

/-- What is lost when P3 or P4 is reached (Table 11.3). -/
def stateLost (d : Dev) (t : Nat) : Dev :=
  let d1 := if t = 4 then dropDomains d (fun pg => pg.domain ≤ 1 || pg == .time 0)
    else
      let e := anchorReset ((List.range 4).foldl quayForget d)
      ferryClear { e with susp := [], gates := e.gates.map fun g => (g.1, { g.2 with hold := false }) } true
  if t = 3 then xweClear (setXwe d1 {}) else setBoot d1 fun b => { b with image := none, confirm := none }

theorem stateLost_clock (d : Dev) (t : Nat) : clockOf (stateLost d t) = clockOf d := by
  have hx : ∀ e, clockOf (xweClear (setXwe e {})) = clockOf e := fun _ => clockOf_congr rfl rfl rfl
  have hb : ∀ e (f : BootSt → BootSt), clockOf (setBoot e f) = clockOf e := fun _ _ => clockOf_congr rfl rfl rfl
  have hf : ∀ e : Dev, clockOf (ferryClear { e with susp := [], gates := e.gates.map fun g => (g.1, { g.2 with hold := false }) } true) = clockOf e :=
    fun _ => clockOf_congr rfl rfl rfl
  have hd : ∀ e, clockOf e = clockOf d →
      clockOf (if t = 3 then xweClear (setXwe e {}) else setBoot e fun b => { b with image := none, confirm := none }) = clockOf d :=
    fun e he => ite_part clockOf _ ((hx e).trans he) ((hb e _).trans he)
  refine hd _ (ite_part clockOf _ (dropDomains_clock d _) ?_)
  dsimp only
  rw [hf, anchorReset_clock, foldl_part clockOf quayForget_clock]

/-- The state reached is shown and counted; no entry is under way. -/
def stateShown (d : Dev) (t : Nat) : Dev :=
  let d4 := wf (wf (wb d .pwr 0x88 6 false) .pwr 0x88 8 8 0) .pwr 0x88 0 3 t
  setPwr (irq (cnt d4 .pwr (if t = 4 then 0x108 else 0x100) 1) .pwr 0) fun x =>
    { x with entry := none, latched := none, idle1 := [], idle2 := [], pwrEn := t != 4 }

theorem stateShown_clock (d : Dev) (t : Nat) : clockOf (stateShown d t) = clockOf d := by
  have hp : ∀ (e : Dev), clockOf (setPwr e fun x => { x with entry := none, latched := none, idle1 := [], idle2 := [], pwrEn := t != 4 }) = clockOf e :=
    fun _ => clockOf_congr rfl rfl rfl
  unfold stateShown
  dsimp only
  rw [hp, irq_clock, cnt_clock, wf_clock, wf_clock, wb_clock]

theorem pwrState_stateShown (d : Dev) {t : Nat} (ht : t < 8) : pwrState (stateShown d t) = t := by
  unfold stateShown pwrState rf
  refine Eq.trans (b := fld (rd (irq (cnt (wf (wf (wb d .pwr 0x88 6 false) .pwr 0x88 8 8 0) .pwr 0x88 0 3 t) .pwr (if t = 4 then 0x108 else 0x100) 1)
    .pwr 0) .pwr 0x88) 0 3) rfl ?_
  rw [rd_irq_off _ _ _ (by decide), rd_cnt_off _ _ _ (by split <;> decide)]
  exact (rf_wf_same _ .pwr 0x88 0 3 t (by decide)).trans (Nat.mod_eq_of_lt ht)

theorem domCond_stateShown (d : Dev) (t x : Nat) : domCond (stateShown d t) x = domCond d x := by
  unfold stateShown domCond rf
  refine congrArg (fld · (3 * x) 3) (Eq.trans (b := rd (irq (cnt (wf (wf (wb d .pwr 0x88 6 false) .pwr 0x88 8 8 0) .pwr 0x88 0 3 t) .pwr
    (if t = 4 then 0x108 else 0x100) 1) .pwr 0) .pwr 0x90) rfl ?_)
  rw [rd_irq_off _ _ _ (by decide), rd_cnt_off _ _ _ (by split <;> decide), rd_wf_off _ _ _ _ _ (by decide), rd_wf_off _ _ _ _ _ (by decide),
    rd_wb_off _ _ _ _ (by decide)]

theorem domCond_setDomCond_same (d : Dev) {x c : Nat} (hx : x < 21) (hc : c < 8) : domCond (setDomCond d x c) x = c :=
  (rf_wf_same d .pwr 0x90 (3 * x) 3 c (by omega)).trans (Nat.mod_eq_of_lt hc)

theorem domCond_setDomCond_other (d : Dev) {x y : Nat} (c : Nat) (h : x ≠ y) : domCond (setDomCond d x c) y = domCond d y := by
  unfold domCond setDomCond rf wf
  rw [rd_wr_same]
  exact fld_setFld_other _ _ (by omega)

/-- The condition that a domain has in a state (Table 11.2). -/
def domCondIn (t x : Nat) : Nat := if t = 4 then 0 else if t = 3 then (if x = 11 then 4 else 3) else 1

theorem domCond_foldl {t y : Nat} (l : List Nat) (h : y ∉ l) :
    ∀ d, domCond (l.foldl (fun d x => if x ≤ 1 then d else setDomCond d x (domCondIn t x)) d) y = domCond d y := by
  induction l with
  | nil => exact fun _ => rfl
  | cons x l ih =>
    intro d
    obtain ⟨hx, hl⟩ := not_or.mp (mt List.mem_cons.mpr h)
    refine (ih hl _).trans ?_
    dsimp only
    split
    · rfl
    · exact domCond_setDomCond_other d _ (Ne.symm hx)

/-- PD_BUF in P3 and in P4. -/
theorem domCond_domainsTo_buf (d : Dev) (t : Nat) : domCond (domainsTo d t) 9 = domCondIn t 9 := by
  unfold domainsTo
  rw [show List.range 15 = List.range 9 ++ 9 :: [10, 11, 12, 13, 14] from rfl, List.foldl_append, List.foldl_cons]
  refine (domCond_foldl (t := t) [10, 11, 12, 13, 14] (by decide) _).trans ((congrArg (domCond · 9) (if_neg (by decide))).trans ?_)
  refine domCond_setDomCond_same _ (by decide) ?_
  split
  · decide
  · split <;> decide

theorem abortDomains_clock (d : Dev) : clockOf (abortDomains d) = clockOf d := abortDomains_part clockOf wr_clock d

section
variable {d : Dev}

theorem ponrPast_of {t : Nat} {x : Instant} (h : ponrAt t x ≤ d.now) (ht : t = 3 ∨ t = 4)
    (h3 : t = 3 → resyncing d = false ∧ d.scarab.digFrom ≤ d.now) : ponrPast d t x = true := by
  unfold ponrPast
  rw [decide_eq_true h]
  rcases ht with rfl | rfl
  · obtain ⟨hr, hd⟩ := h3 rfl
    rw [hr, decide_eq_false (Nat.not_lt.mpr hd)]
    exact Bool.or_true _
  · exact Bool.or_true _

/-- An entry past its point of no return, with no wake event latched, reaches its state. -/
theorem stateReachedOp_reaches {t : Nat} {x : Instant} (he : d.pwr.entry = some (t, x)) (hl : d.pwr.latched = none) (hh : halted d = false)
    (hp : ponrPast d t x = true) : stateReachedOp d = stateShown (domainsTo (stateLost (clockStop (abortDomains d)) t) t) t := by
  have hc : (clockStop (abortDomains d)).pwr.latched = none := by
    have ha : (abortDomains d).pwr.latched = none := by
      rw [abortDomains_part Dev.pwr (fun _ _ _ _ => rfl) d]
      exact hl
    unfold clockStop
    split
    · exact ha
    · exact ha
  unfold stateReachedOp
  rw [he]
  refine (if_neg (by rw [hh, hp]; decide)).trans ?_
  dsimp only
  rw [hc]
  rfl

end

/-- Table 11.6: the state and its condition of PD_BUF, no entry, CLK_TS stands, since when the device sleeps. -/
theorem stateReachedOp_state {d : Dev} {t : Nat} {x : Instant} (ht : t = 3 ∨ t = 4) (he : d.pwr.entry = some (t, x)) (hl : d.pwr.latched = none)
    (hh : halted d = false) (hp : ponrPast d t x = true) :
    pwrState (stateReachedOp d) = t ∧ (stateReachedOp d).pwr.entry = none ∧ (stateReachedOp d).time.stopped = true
    ∧ (d.time.stopped = false → (stateReachedOp d).pwr.sleepAt = some d.now) ∧ domCond (stateReachedOp d) 9 = (if t = 4 then 0 else 3) := by
  obtain ⟨hs, -, hn⟩ := clockOf_inj (abortDomains_clock d)
  have hc : clockOf (stateReachedOp d) = clockOf (clockStop (abortDomains d)) := by
    rw [stateReachedOp_reaches he hl hh hp, stateShown_clock, domainsTo_clock, stateLost_clock]
  obtain ⟨hs', hp', -⟩ := clockOf_inj hc
  have hq : (clockStop (abortDomains d)).time.stopped = true ∧
      (d.time.stopped = false → (clockStop (abortDomains d)).pwr.sleepAt = some d.now) := by
    unfold clockStop
    split
    · rename_i h
      exact ⟨h, fun h' => absurd (hs.symm.trans h) (by rw [h']; decide)⟩
    · exact ⟨rfl, fun _ => congrArg some hn⟩
  refine ⟨?_, ?_, hs'.trans hq.1, fun h => hp'.trans (hq.2 h), ?_⟩
  · rw [stateReachedOp_reaches he hl hh hp, pwrState_stateShown _ (by omega)]
  · rw [stateReachedOp_reaches he hl hh hp]
    rfl
  · rw [stateReachedOp_reaches he hl hh hp, domCond_stateShown, domCond_domainsTo_buf]
    rcases ht with rfl | rfl <;> rfl

/-! ### The entry and the exit -/

/-- DEEP_DELAY_MS has passed since an instant (R309). -/
def deepDue (d : Dev) : Option Instant → Bool
  | some x => decide (x + rf d .pwr 0x80 32 16 * msTicks ≤ d.now)
  | none => false

section
variable {d : Dev}

theorem deepDelayOp_of {x : Instant} (hh : halted d = false) (hp : pwrState d < 3) (he : d.pwr.entry = none) (ht : 3 ≤ pwrTarget d)
    (hx : (if pwrTarget d = 4 then d.pwr.deepAt4 else d.pwr.deepAt) = some x) :
    deepDelayOp d = if x + rf d .pwr 0x80 32 16 * msTicks ≤ d.now then entryStart d (pwrTarget d) else d := by
  have hd : deepDelayOp d = if halted d ∨ pwrTarget d < 3 ∨ 3 ≤ pwrState d ∨ d.pwr.entry.isSome
      ∨ !deepDue d (if pwrTarget d = 4 then d.pwr.deepAt4 else d.pwr.deepAt) then d else entryStart d (pwrTarget d) := by
    unfold deepDelayOp deepDue
    rfl
  rw [hd, hx, hh, he]
  by_cases h : x + rf d .pwr 0x80 32 16 * msTicks ≤ d.now
  · rw [if_pos h, if_neg]
    rintro (h' | h' | h' | h' | h')
    · exact Bool.false_ne_true h'
    · omega
    · omega
    · exact absurd h' (by decide)
    · rw [show deepDue d (some x) = true from decide_eq_true h] at h'
      exact absurd h' (by decide)
  · rw [if_neg h, if_pos]
    refine .inr (.inr (.inr (.inr ?_)))
    rw [show deepDue d (some x) = false from decide_eq_false h]
    rfl

theorem entryStart_entry (d : Dev) (t : Nat) : (entryStart d t).pwr.entry = some (t, d.now) ∧ rb (entryStart d t) .pwr 0x88 6 = true := by
  have h : ∀ e : Dev, (setPwr (wb e .pwr 0x88 6 true) fun x => { x with entry := some (t, d.now), latched := none }).pwr.entry = some (t, d.now)
      ∧ rb (setPwr (wb e .pwr 0x88 6 true) fun x => { x with entry := some (t, d.now), latched := none }) .pwr 0x88 6 = true :=
    fun e => ⟨rfl, rb_wb_same e .pwr 0x88 6 true (by decide)⟩
  exact h _

theorem exitRequest_begins (host : Bool) (c : Nat) (hh : halted d = false) (he : d.pwr.entry = none) (hp : pwrState d = 3) (hx : d.pwr.exit = none) :
    (exitRequest d host c).pwr.exit = some (host, c) ∧ (exitRequest d host c).pwr.exitAt = d.now ∧ rb (exitRequest d host c) .pwr 0x88 6 = true := by
  unfold exitRequest
  rw [if_neg (by rw [hh]; decide), he]
  dsimp only
  rw [if_neg (by rw [hp, hx]; decide), if_neg (by rw [hp]; rintro ⟨h, -⟩; exact absurd h (by decide))]
  refine ⟨rfl, rfl, ?_⟩
  exact (rb_wb_bit (wb d .pwr 0x88 6 true) .pwr 0x88 false (by decide)).trans (rb_wb_same d .pwr 0x88 6 true (by decide))

theorem exitDoneOp_none (h : d.pwr.exit = none) : exitDoneOp d = d := by
  unfold exitDoneOp
  rw [h]

theorem exitDoneOp_early (h : d.pwr.exitStep < (exitTimes (pwrState d)).length) : exitDoneOp d = d := by
  unfold exitDoneOp
  split
  · rfl
  · exact if_pos (.inr (.inr h))

/-- The device that an exit leaves, after its record and its interrupts: the self-test is due, nothing is left of the exit, the keeper begins. -/
def exitEnded (d : Dev) : Dev :=
  keeperRestart (wb (setPwr { d with fcn := { d.fcn with exitTest := true } } fun x => { x with exit := none, check := [] }) (.buoy 0) 0x288 3
    false)

theorem exitEnded_exit : ∀ d : Dev, (exitEnded d).pwr.exit = none := fun _ => rfl

/-- No register of the PWR page is KEEPER_STAT. -/
theorem keeper_far {off : Nat} (h : off < 0x1000) : (Page.buoy 0).base + 0x288 ≠ Page.pwr.base + off := by
  have hb : (Page.buoy 0).base / 0x1000 ≠ Page.pwr.base / 0x1000 ∧ (Page.buoy 0).base % 0x1000 = 0 ∧ Page.pwr.base % 0x1000 = 0 := by decide
  omega

theorem rd_keeperRestart {off : Nat} (d : Dev) (h : off < 0x1000) : rd (keeperRestart d) .pwr off = rd d .pwr off := by
  have hr : (keeperRestart d).regs = (wf d (.buoy 0) 0x288 0 2 0).regs := by
    unfold keeperRestart
    generalize wf d (.buoy 0) 0x288 0 2 0 = e
    rfl
  rw [rd_of_regs hr]
  unfold wf
  exact rd_wr_far _ _ (keeper_far h)

theorem rd_exitEnded (d : Dev) {off : Nat} (h : off < 0x1000) : rd (exitEnded d) .pwr off = rd d .pwr off := by
  unfold exitEnded
  rw [rd_keeperRestart _ h]
  generalize hx : setPwr { d with fcn := { d.fcn with exitTest := true } } (fun x => { x with exit := none, check := [] }) = x
  have hr : rd x .pwr off = rd d .pwr off := by rw [← hx]; rfl
  rw [← hr]
  unfold wb
  exact rd_wr_far _ _ (keeper_far h)

/-- The end of an exit: P0, and what it is recorded as (R312). -/
theorem exitDoneOp_awake {h : Bool} {c : Nat} (hx : d.pwr.exit = some (h, c)) (hh : halted d = false) (hp : 3 ≤ pwrState d)
    (hs : (exitTimes (pwrState d)).length ≤ d.pwr.exitStep) :
    pwrState (exitDoneOp d) = 0 ∧ (exitDoneOp d).pwr.exit = none
    ∧ rd (exitDoneOp d) .pwr 0x98 = mkWord [(0, pwrState d), (3, h.toNat), (4, c), (32, min (2 ^ 32 - 1) ((d.now - d.pwr.exitAt) / usTicks))] := by
  unfold exitDoneOp
  rw [hx]
  dsimp only
  rw [if_neg (not_or.mpr ⟨by rw [hh]; decide, not_or.mpr ⟨Nat.not_lt.mpr hp, Nat.not_lt.mpr hs⟩⟩)]
  generalize hw : mkWord [(0, pwrState d), (3, h.toNat), (4, c), (32, min (2 ^ 32 - 1) ((d.now - d.pwr.exitAt) / usTicks))] = w
  generalize he : irq (irq (wb (wf (wr d .pwr 0x98 w) .pwr 0x88 0 3 0) .pwr 0x88 6 false) .pwr 2) .pwr 0 = e
  have hE : ∀ e : Dev, pwrState (exitEnded e) = fld (rd (exitEnded e) .pwr 0x88) 0 3 := fun _ => rfl
  show pwrState (exitEnded e) = 0 ∧ (exitEnded e).pwr.exit = none ∧ rd (exitEnded e) .pwr 0x98 = w
  rw [hE, rd_exitEnded e (by decide), rd_exitEnded e (by decide), ← he]
  refine ⟨?_, exitEnded_exit _, ?_⟩
  · rw [rd_irq_off _ _ _ (by decide), rd_irq_off _ _ _ (by decide)]
    unfold wb wf
    rw [rd_wr_same, rd_wr_same, fld_setFld_other _ _ (by decide), fld_setFld_same _ _ _ _ (by decide), Nat.zero_mod]
  · rw [rd_irq_off _ _ _ (by decide), rd_irq_off _ _ _ (by decide), rd_wb_off _ _ _ _ (by decide), rd_wf_off _ _ _ _ _ (by decide), rd_wr_same]

end

/-- Settles O48: the entry to a deep state, the request and the end of an exit, the state that an entry reaches. -/
theorem deepStatesAct : Obligations.DeepStatesAct := by
  intro s t d
  have hd : devAt s.dev t = d := rfl
  clear_value d
  refine ⟨fun hh hp he ht x hx => ?_, fun addr hb hp => ?_, fun addr hb => ?_, ?_, fun h => lands_congr (hd ▸ lands_exitDone t s) (exitDoneOp_none h),
    fun h => lands_congr (hd ▸ lands_exitDone t s) (exitDoneOp_early h),
    fun h c hx hh hp hs => ⟨_, hd ▸ lands_exitDone t s, exitDoneOp_awake hx hh hp hs⟩⟩
  · have hD := lands_congr (hd ▸ lands_deepDelayExpiry t s) (deepDelayOp_of hh hp he ht hx)
    exact ⟨fun h => ⟨lands_congr hD (if_pos h), ⟨_, lands_congr hD (if_pos h), entryStart_entry d _⟩⟩,
      fun h => lands_congr hD (if_neg (Nat.not_le.mpr h))⟩
  · have hA := lands_congr (hd ▸ lands_hostAccessWake t addr s) (if_pos ⟨hb, .inl hp⟩)
    exact ⟨hA, fun hh he hx => ⟨_, hA, exitRequest_begins true _ hh he hp hx⟩⟩
  · exact lands_congr (hd ▸ lands_hostAccessWake t addr s) (if_neg fun h => Bool.false_ne_true (hb.symm.trans h.1))
  · have hS := hd ▸ lands_powerStateReached t s
    intro lose
    refine ⟨fun h => ?_, fun e x he hx hl hh hp h3 => ?_⟩
    · have hn : stateReachedOp d = d := by
        unfold stateReachedOp
        rw [h]
      rw [hn] at hS
      exact hS
    · intro d'
      exact ⟨hS, stateReachedOp_state he hx hl hh (ponrPast_of hp he h3)⟩

end Sys2Proof.Machine
end

section
/-! PROOF. Transactions on SPI and in-band management (R331 to R334). -/

namespace Sys2Proof.Machine
open Safety

section
variable {d : Dev} {mem : List Host.Cell}

theorem spiOp_read {mosi : List Byte} (words : Nat) (h : octetAt mosi 0 = 0x0B) (h5 : 5 ≤ mosi.length) :
    spiOp mem d mosi words = emit (spiReads mem words (beNat (slice mosi 1 4)) d).2
      (.spi ([0, 0] ++ (spiReads mem words (beNat (slice mosi 1 4)) d).1)) :=
  if_pos ⟨h, h5⟩

theorem spiOp_write {mosi : List Byte} (words : Nat) (h : octetAt mosi 0 = 0x02) (hs : spiOn d = true) :
    spiOp mem d mosi words = if mosi.length < 6 ∨ mosi.length % 8 ≠ 6
        ∨ crc8 (mosi.take (mosi.length - 1)) ≠ octetAt mosi (mosi.length - 1) then cnt d (.host 0) 0x90 1
      else spiWrites mem ((mosi.take (mosi.length - 1)).drop 5) ((mosi.length - 6) / 8) (beNat (slice mosi 1 4)) d :=
  (if_neg fun hr => absurd (h.symm.trans hr.1) (by decide)).trans (if_pos ⟨h, hs⟩)

/-- A request of OP 1 with its form right (R333). -/
structure InbandRead (l : List Byte) : Prop where
  version : octetAt l 0 = 1
  op : octetAt l 1 = 1
  least : 1 ≤ beNat (slice l 2 2)
  most : beNat (slice l 2 2) ≤ 64
  length : l.length = 36

theorem inbandOp_keyless {l : List Byte} (hf : firmwareRuns d = true) (hk : inbKey d = none) :
    inbandOp mem d l = cnt d (.host 0) 0xa0 1 := by
  unfold inbandOp
  rw [hk, hf]
  rfl

theorem inbandOp_badTag {l key : List Byte} (hf : firmwareRuns d = true) (hk : inbKey d = some key)
    (ht : inbTag key (l.take (l.length - 16)) ≠ l.drop (l.length - 16)) : inbandOp mem d l = cnt d (.host 0) 0xa0 1 := by
  unfold inbandOp
  rw [hk, hf]
  dsimp only
  rw [beq_eq_false_iff_ne.mpr ht, Bool.and_false]
  rfl

/-- A read request with its tag right is served, or answered with STATUS 2 where its epoch is not the device's. -/
theorem inbandOp_read {l key : List Byte} (hf : firmwareRuns d = true) (hk : inbKey d = some key)
    (ht : inbTag key (l.take (l.length - 16)) = l.drop (l.length - 16)) (hl : InbandRead l) :
    (beNat (slice l 4 4) ≠ d.host.inbEpoch → inbandOp mem d l = inbAnswer (cnt d (.host 0) 0xa0 1) (l.take 20) 2 [])
    ∧ (beNat (slice l 4 4) = d.host.inbEpoch → d.host.inbLast = none → inbandOp mem d l
        = inbServe mem { d with host := { d.host with inbLast := some (beNat (slice l 8 4)) } } l ((l.take (l.length - 16)).drop 20)) := by
  have hform : decide (36 ≤ l.length ∧ octetAt l 0 = 1 ∧ 1 ≤ octetAt l 1 ∧ octetAt l 1 ≤ 3 ∧ 1 ≤ beNat (slice l 2 2)
      ∧ (octetAt l 1 = 3 ∨ beNat (slice l 2 2) ≤ 64) ∧ l.length = 36 + (if octetAt l 1 = 1 then 0 else
        if octetAt l 1 = 2 then 8 * beNat (slice l 2 2) else beNat (slice l 2 2))) = true := by
    obtain ⟨hv, ho, h1, h64, hn⟩ := hl
    rw [if_pos ho]
    exact decide_eq_true ⟨hn.ge, hv, by omega, by omega, h1, .inr h64, hn⟩
  unfold inbandOp
  rw [hk, hf]
  dsimp only
  rw [hform, beq_iff_eq.mpr ht, if_neg (show ¬(!true) = true by decide), if_neg (show ¬(!(true && true)) = true by decide)]
  refine ⟨fun he => if_pos (.inl he), fun he hn => ?_⟩
  rw [hn]
  exact if_neg (not_or.mpr ⟨not_not.mpr he, Bool.false_ne_true⟩)

theorem inbServe_disabled (l data : List Byte) (h : rb d (.mbox 0) 0x88 0 = false) : inbServe mem d l data = inbAnswer d (l.take 20) 4 [] := by
  unfold inbServe
  exact if_pos (by rw [h]; rfl)

theorem inbServe_read {l w : List Byte} (data : List Byte) {d2 : Dev} (h : rb d (.mbox 0) 0x88 0 = true) (ho : octetAt l 1 = 1)
    (hr : inbReads mem (beNat (slice l 2 2)) (beNat (slice l 12 8)) d = (some w, d2)) :
    inbServe mem d l data = inbAnswer d2 (l.take 20) 0 w := by
  unfold inbServe
  refine (if_neg (by rw [h]; exact Bool.false_ne_true)).trans ((if_pos ho).trans ?_)
  rw [hr]

end

/-- Settles O50: SPI transactions by opcode, in-band requests by key, tag, epoch and enable. -/
theorem serialManagementActs : Obligations.SerialManagementActs := by
  intro s t d
  have hd : devAt s.dev t = d := rfl
  clear_value d
  refine ⟨fun mosi words ho h5 => lands_congr (hd ▸ lands_spiTransaction t mosi words s) (spiOp_read words ho h5), fun mosi words ho hs => ?_,
    fun hf l => ⟨fun hk => lands_congr (hd ▸ lands_inbandRequest t l s) (inbandOp_keyless hf hk), fun key hk => ?_⟩⟩
  · have hL := lands_congr (hd ▸ lands_spiTransaction t mosi words s) (spiOp_write words ho hs)
    exact ⟨fun h => lands_congr hL (if_pos h), fun h6 h8 hc =>
      lands_congr hL (if_neg (not_or.mpr ⟨Nat.not_lt.mpr h6, not_or.mpr ⟨not_not.mpr h8, not_not.mpr hc⟩⟩))⟩
  · have hL := hd ▸ lands_inbandRequest t l s
    refine ⟨fun ht => lands_congr hL (inbandOp_badTag hf hk ht), fun ht hv ho h1 h64 hn => ?_⟩
    obtain ⟨hold, hnew⟩ := inbandOp_read (mem := s.mem) hf hk ht ⟨hv, ho, h1, h64, hn⟩
    refine ⟨fun he => lands_congr hL (hold he), fun he hlast => ?_⟩
    intro d1
    have hS := lands_congr hL (hnew he hlast)
    exact ⟨fun hb => lands_congr hS (inbServe_disabled _ _ hb), fun hb w d2 hr => lands_congr hS (inbServe_read _ hb ho hr)⟩

end Sys2Proof.Machine
end

section
/-! PROOF. The mailbox: request words, RING, ACK, VERSION (R335 to R338). -/

namespace Sys2Proof.Machine
open Safety

section
variable {mem : List Host.Cell} {d : Dev} {m : Master}

theorem mboxPg_succ : ∀ ch : Fin 4, mboxPg ch.val = .mbox ch.succ := by decide

theorem regPut_mbox (ch : Fin 4) {off : Nat} (v : W64) (h : Accepts d m (mboxPg ch.val)) (h8 : off % 8 = 0) (hl : 0x80 ≤ off) (hh : off < 0x1000) :
    regPut mem d m (mboxPg ch.val) off v = mboxWrite d m ch.succ off v := by
  rw [mboxPg_succ] at h ⊢
  rw [regPut_accepts _ _ _ _ _ _ h h8 (.inr ⟨hh, rfl⟩)]
  unfold regWrite
  exact if_neg (by omega)

theorem regPut_mboxReq (ch : Fin 4) (v : W64) (h : Accepts d m (mboxPg ch.val)) :
    regPut mem d m (mboxPg ch.val) 0x800 v = mboxReqOp d ch.val v := by
  rw [regPut_mbox ch v h (by decide) (by decide) (by decide)]
  exact (if_neg (Nat.succ_ne_zero ch.val)).trans ((if_neg (by decide)).trans (if_pos (by decide)))

theorem regPut_mboxRing (ch : Fin 4) (h : Accepts d m (mboxPg ch.val)) :
    regPut mem d m (mboxPg ch.val) 0x80 1 = mboxRingOp d m ch.val := by
  rw [regPut_mbox ch 1 h (by decide) (by decide) (by decide)]
  exact (if_neg (Nat.succ_ne_zero ch.val)).trans (if_pos rfl)

theorem regPut_mboxAck (ch : Fin 4) (h : Accepts d m (mboxPg ch.val)) :
    regPut mem d m (mboxPg ch.val) 0x80 2 = mboxAckOp d ch.val := by
  rw [regPut_mbox ch 2 h (by decide) (by decide) (by decide)]
  exact (if_neg (Nat.succ_ne_zero ch.val)).trans (if_pos rfl)

theorem versionOp_served {ch : Nat} (h : Served d ch 1 []) :
    versionOp d ch = mboxReply (opened d ch) ch 0 (leBytes 8 (imgVersion d.boot.hdr) ++ leBytes 4 d.host.inbEpoch) := by
  unfold versionOp
  rw [mboxStart_served h none (fun _ hb => nomatch hb) _ rfl]
  rfl

end

/-- Settles O51: the four register writes of a channel, and VERSION. -/
theorem mailboxActs : Obligations.MailboxActs := by
  intro s t ch d pg x
  have hd : devAt s.dev t = d := rfl
  clear_value d
  refine ⟨fun m hm => ?_, fun h => lands_congr (hd ▸ lands_version t ch s) (versionOp_served h)⟩
  have hReq := fun v => lands_congr (hd ▸ lands_mboxReqWrite t m ch v s) (regPut_mboxReq ch v hm)
  have hRing := lands_congr (hd ▸ lands_mboxRing t m ch s) (regPut_mboxRing ch hm)
  refine ⟨fun v h => lands_congr (hReq v) (if_neg (Nat.not_lt.mpr h)), fun v h => lands_congr (hReq v) (if_pos h),
    fun h0 hw => lands_congr hRing (if_pos ⟨h0, hw⟩), fun h => lands_congr hRing (if_neg fun hb => ?_),
    lands_congr (hd ▸ lands_mboxAck t m ch s) (regPut_mboxAck ch hm)⟩
  exact h.elim (fun h => h hb.1) fun h => h hb.2

end Sys2Proof.Machine
end

section
/-! PROOF. Key slots: the commands of CAR_CMD and of the mailbox, integrity, TRNG, the recheck of a port's keys (spec ch. 13). -/

namespace Sys2Proof.Machine
open Safety

/-! ### Fields of words that are built of fields -/

theorem fld_or (a b : W64) (lo len : Nat) : fld (a ||| b) lo len = fld a lo len ||| fld b lo len := by
  unfold fld
  rw [BitVec.extractLsb'_or, BitVec.toNat_or]

theorem fld_shift_same (x lo len : Nat) (h : lo + len ≤ 64) : fld (BitVec.ofNat 64 x <<< lo) lo len = x % 2 ^ len := by
  unfold fld
  apply Nat.eq_of_testBit_eq
  intro i
  rw [BitVec.testBit_toNat, BitVec.getLsbD_extractLsb', Nat.testBit_mod_two_pow, BitVec.getLsbD_shiftLeft, BitVec.getLsbD_ofNat]
  by_cases hi : i < len
  · simp [hi, show lo + i < 64 by omega, show i < 64 by omega]
  · simp [hi]

theorem fld_shift_off {x k w lo len : Nat} (hx : x < 2 ^ w) (h : k + w ≤ lo ∨ lo + len ≤ k) : fld (BitVec.ofNat 64 x <<< k) lo len = 0 := by
  unfold fld
  apply Nat.eq_of_testBit_eq
  intro i
  rw [BitVec.testBit_toNat, BitVec.getLsbD_extractLsb', Nat.zero_testBit, BitVec.getLsbD_shiftLeft, BitVec.getLsbD_ofNat]
  by_cases hi : i < len
  · by_cases hk : lo + i < k
    · simp [hk]
    · have hb : x.testBit (lo + i - k) = false := Nat.testBit_lt_two_pow (hx.trans_le (Nat.pow_le_pow_right (by decide) (by omega)))
      simp [hb]
  · simp [hi]

theorem bit_eq_fld (v : W64) (i : Nat) : bit v i = decide (fld v i 1 = 1) := by
  unfold bit fld
  have h := BitVec.getLsbD_extractLsb' (x := v) (start := i) (len := 1) (i := 0)
  have h2 : (v.extractLsb' i 1).getLsbD 0 = decide ((v.extractLsb' i 1).toNat = 1) := by
    generalize v.extractLsb' i 1 = y
    revert y
    decide
  rw [← h2, h]
  simp

/-- The word of a GO of CAR_CMD holds its operation, its slot, and GO. -/
theorem carWord_fields {op x : Nat} (ho : op < 16) (hx : x < 256) : bit (mkWord [(0, op), (4, x), (12, 1)]) 12 = true
    ∧ fld (mkWord [(0, op), (4, x), (12, 1)]) 0 4 = op ∧ fld (mkWord [(0, op), (4, x), (12, 1)]) 4 8 = x := by
  have hz : ∀ lo len, fld (0 : W64) lo len = 0 := fun lo len => by unfold fld; simp
  have hw : mkWord [(0, op), (4, x), (12, 1)] = (0 : W64) ||| BitVec.ofNat 64 op <<< 0 ||| BitVec.ofNat 64 x <<< 4 ||| BitVec.ofNat 64 1 <<< 12 := rfl
  rw [hw, bit_eq_fld]
  simp only [fld_or]
  refine ⟨?_, ?_, ?_⟩
  · rw [hz, fld_shift_off (w := 4) ho (.inl (by decide)), fld_shift_off (w := 8) hx (.inl (by decide)), fld_shift_same _ _ _ (by decide)]
    rfl
  · rw [hz, fld_shift_same _ _ _ (by decide), fld_shift_off (w := 8) hx (.inr (by decide)), fld_shift_off (w := 1) (by decide) (.inr (by decide)),
      Nat.zero_or, Nat.or_zero, Nat.or_zero]
    exact Nat.mod_eq_of_lt ho
  · rw [hz, fld_shift_same _ _ _ (by decide), fld_shift_off (w := 4) ho (.inl (by decide)), fld_shift_off (w := 1) (by decide) (.inr (by decide)),
      Nat.zero_or, Nat.zero_or, Nat.or_zero]
    exact Nat.mod_eq_of_lt hx

section
variable {mem : List Host.Cell} {d : Dev}

/-! ### CAR_CMD -/

theorem regPut_carGo {m : Master} {op : Nat} (x : Fin 256) (ho : op < 16) (h : Accepts d m .carapace) :
    regPut mem d m .carapace 0x100 (mkWord [(0, op), (4, x.val), (12, 1)]) = carGo d (masterCode m) op x.val := by
  obtain ⟨h12, h0, h4⟩ := carWord_fields ho x.isLt
  rw [regPut_accepts _ _ _ _ _ _ h (by decide) (.inl (by decide))]
  generalize mkWord [(0, op), (4, x.val), (12, 1)] = v at h12 h0 h4 ⊢
  unfold regWrite
  refine (if_neg (by decide)).trans ?_
  unfold carWrite
  refine (if_neg (by decide)).trans ((if_pos rfl).trans ((if_pos h12).trans ?_))
  rw [h0, h4]

/-- What the command in progress does: its result and the device (Table 13.10). -/
def carEffect (d : Dev) (c : CarCmd) : Nat × Dev :=
  if c.op = 1 then keyWriteOp d c.master c.slot c.attr (c.data.flatMap wordBytes)
  else if c.op = 2 then keyGenOp d c.master c.slot c.attr
  else if c.op = 3 then keyDestroyOp d c.master c.slot
  else if c.op = 4 then wrapExportOp d c
  else if c.op = 5 then unwrapImportOp d c
  else if c.op = 6 then deriveOp d c
  else freeNat d

/-- The end of a command: its result shown, BUSY clear, CMD_DONE. -/
def carEnded (r : Nat) (e : Dev) : Dev :=
  irq (wr (wb { e with car := { e.car with cmd := none } } .carapace 0x100 63 false) .carapace 0x110 (BitVec.ofNat 64 r)) .carapace 0

theorem carDone_idle (h : d.car.cmd = none) : carDone d = d := by
  unfold carDone
  rw [h]

theorem carDone_of {c : CarCmd} (h : d.car.cmd = some c) : carDone d = carEnded (carEffect d c).1 (carEffect d c).2 := by
  unfold carDone
  rw [h]
  rfl

theorem carDone_effect {c : CarCmd} {r : Nat} {e : Dev} (h : d.car.cmd = some c) (he : carEffect d c = (r, e)) : carDone d = carEnded r e := by
  rw [carDone_of h, he]

theorem reservedSlot_of {s : Nat} (h : s < 8) : reservedSlot s = true := decide_eq_true h

theorem not_reservedSlot {s : Nat} (h : 8 ≤ s) : ¬ reservedSlot s = true := fun hr => absurd (of_decide_eq_true hr) (Nat.not_lt.mpr h)

theorem carEffect_reserved {c : CarCmd} (h : c.slot < 8) (ho : c.op = 1 ∨ c.op = 2 ∨ c.op = 3 ∨ c.op = 5 ∨ c.op = 6) : carEffect d c = (1, d) := by
  unfold carEffect
  rcases ho with ho | ho | ho | ho | ho <;> rw [ho]
  · exact if_pos (reservedSlot_of h)
  · exact if_pos (reservedSlot_of h)
  · exact if_pos (reservedSlot_of h)
  · exact if_pos (reservedSlot_of h)
  · exact if_pos (reservedSlot_of h)

theorem carEffect_badAttr {c : CarCmd} (h : 8 ≤ c.slot) (hb : badAttr c.attr = true) (ho : c.op = 1 ∨ c.op = 2 ∨ c.op = 6) :
    carEffect d c = (2, d) := by
  unfold carEffect
  rcases ho with ho | ho | ho <;> rw [ho]
  · exact (if_neg (not_reservedSlot h)).trans (if_pos hb)
  · exact (if_neg (not_reservedSlot h)).trans (if_pos (.inl hb))
  · exact (if_neg (not_reservedSlot h)).trans (if_pos (.inl hb))

theorem persistRefused_zero {a : W64} (h : bit a 10 = true → rootPresent d = true ∧ trngOk d = true) : persistRefused d a = 0 := by
  unfold persistRefused
  cases hb : bit a 10 with
  | false => rfl
  | true =>
    obtain ⟨hr, ht⟩ := h hb
    rw [hr, ht]
    rfl

theorem keyWriteOp_done {m s : Nat} {a : W64} {l : List Byte} (h : 8 ≤ s) (hb : badAttr a = false)
    (hp : bit a 10 = true → rootPresent d = true ∧ trngOk d = true)
    (hg : goodValue (ktypeOf a) ((fitLen 64 l).drop (64 - ktypeLen (ktypeOf a))) = true) :
    keyWriteOp d m s a l = (0, keyRecord (fillSlot d s a l) 1 s m (slotOf (fillSlot d s a l) s).attr) := by
  unfold keyWriteOp
  refine (if_neg (not_reservedSlot h)).trans ((if_neg (by rw [hb]; exact Bool.false_ne_true)).trans
    ((if_neg (not_not.mpr (persistRefused_zero hp))).trans (if_neg ?_)))
  rw [hg]
  exact Bool.false_ne_true

theorem keyGenOp_done {m s : Nat} {a : W64} (h : 8 ≤ s) (hb : badAttr a = false) (hp : bit a 10 = true → rootPresent d = true ∧ trngOk d = true)
    (ht : trngOk d = true) (h5 : ktypeOf a ≠ 5) (h6 : ktypeOf a ≠ 6) {e : Dev}
    (he : fillSlot (draw d (ktypeLen (ktypeOf a))).2 s (setBit a 6 true) (rightAlign (draw d (ktypeLen (ktypeOf a))).1) = e) :
    keyGenOp d m s a = (0, keyRecord e 2 s m (slotOf e s).attr) := by
  subst he
  unfold keyGenOp
  refine (if_neg (not_reservedSlot h)).trans ((if_neg (not_or.mpr ⟨by rw [hb]; exact Bool.false_ne_true, not_or.mpr ⟨h5, h6⟩⟩)).trans
    ((if_neg (not_not.mpr (persistRefused_zero hp))).trans (if_neg ?_)))
  rw [ht]
  exact Bool.false_ne_true

/-- A slot destroyed: EMPTY, its wrapped copy erased. -/
def slotErased (d : Dev) (s : Nat) : Dev :=
  { emptySlot d s with car := { (emptySlot d s).car with wrapped := kvDel (emptySlot d s).car.wrapped s } }

theorem keyDestroyOp_done {s : Nat} (m : Nat) (h : 8 ≤ s) : keyDestroyOp d m s = (0, keyRecord (slotErased d s) 3 s m (slotOf d s).attr) :=
  if_neg (not_reservedSlot h)

/-- A use of a slot that R359 does not permit is refused and counted. -/
theorem useSlot_refused {s use : Nat} {l : List Nat} (h : slotUsable d s use l = false) :
    useSlot d s use l = (none, putSlot d s { slotOf d s with refused := min 65535 ((slotOf d s).refused + 1) }) :=
  if_neg (by rw [h]; exact Bool.false_ne_true)

theorem slotUsable_empty {s use : Nat} {l : List Nat} (h : ktypeOf (slotOf d s).attr = 0) : slotUsable d s use l = false := by
  unfold slotUsable
  dsimp only
  rw [h]
  rfl

theorem slotUsable_not {s use : Nat} {l : List Nat} (h : bit (slotOf d s).attr use = false) : slotUsable d s use l = false := by
  unfold slotUsable
  dsimp only
  rw [h, Bool.and_false, Bool.false_and, Bool.false_and]

theorem wrapExportOp_refused {c : CarCmd} (h : slotUsable d c.slot 7 [1, 2, 3, 4, 5, 6, 7, 8, 9] = false) : wrapExportOp d c
    = (refuseCode d c.slot, putSlot d c.slot { slotOf d c.slot with refused := min 65535 ((slotOf d c.slot).refused + 1) }) := by
  unfold wrapExportOp
  rw [useSlot_refused h]

/-! ### The mailbox commands -/

theorem mboxKeyWriteOp_busy {x : CarCmd} {ch : Nat} (h : d.car.cmd = some x) : mboxKeyWriteOp d ch = d := if_pos (by rw [h]; rfl)

theorem mboxKeyGenOp_busy {x : CarCmd} {ch : Nat} (h : d.car.cmd = some x) : mboxKeyGenOp d ch = d := if_pos (by rw [h]; rfl)

theorem mboxKeyWriteOp_served {ch : Nat} {p : List Byte} (hc : d.car.cmd = none) (h : Served d ch 0x10 p) (hp : privileged d ch 0 = true)
    (hl : p.length = 80) (h2 : ch ≠ 2) {r : Nat × Dev}
    (hr : keyWriteOp (opened d ch) (mboxMaster ch) (octetAt p 0) (bytesWord (slice p 8 8)) (slice p 16 64) = r) :
    mboxKeyWriteOp d ch = mboxReply (carShown r.2 1 (octetAt p 0) (bytesWord (slice p 8 8)) r.1) ch (special r.1) [] := by
  unfold mboxKeyWriteOp
  rw [if_neg (by rw [hc]; exact Bool.false_ne_true), mboxStart_served h (some 0) (fun b hb => by cases hb; exact hp) _ (by simpa using hl)]
  dsimp only
  rw [if_neg h2, hr]

theorem mboxKeyGenOp_served {ch : Nat} {p : List Byte} (hc : d.car.cmd = none) (h : Served d ch 0x11 p) (hp : privileged d ch 0 = true)
    (hl : p.length = 16) (h2 : ch ≠ 2) {r : Nat × Dev} (hr : keyGenOp (opened d ch) (mboxMaster ch) (octetAt p 0) (bytesWord (slice p 8 8)) = r)
    (hn : ¬(r.1 = 0 ∧ pubLen (ktypeOf (slotOf r.2 (octetAt p 0)).attr) ≠ 0)) :
    mboxKeyGenOp d ch = mboxReply (carShown r.2 2 (octetAt p 0) (bytesWord (slice p 8 8)) r.1) ch (special r.1) [] := by
  unfold mboxKeyGenOp
  rw [if_neg (by rw [hc]; exact Bool.false_ne_true), mboxStart_served h (some 0) (fun b hb => by cases hb; exact hp) _ (by simpa using hl)]
  dsimp only
  rw [if_neg h2, hr]
  dsimp only
  rw [if_neg hn]

/-- The statement that DEV_ATTEST signs (Table 13.12). -/
def deviceStatement (d : Dev) (p : List Byte) : List Byte :=
  attestCommon d 0x10 (slice p 8 32) ++ pubKey 4 (slotValue (slotOf d 0)) 96 ++ sha384 (pubKey 7 (slotValue (slotOf d 1)) 1952)
    ++ pubKey 4 (slotValue (slotOf d 2)) 96

/-- Octets of the public key in a statement about a slot, or of its digest. -/
def keyLen (a : W64) : Nat := if pubLen (ktypeOf a) = 0 then 8 else pubLen (ktypeOf a)

/-- The statement that KEY_ATTEST signs (Table 13.12). -/
def keyStatement (d : Dev) (p : List Byte) : List Byte :=
  let a := (slotOf d (octetAt p 0)).attr
  attestCommon d 0x11 (slice p 8 32) ++ leBytes 1 (octetAt p 0) ++ [0, 0, 0] ++ wordBytes a ++ leBytes 4 (keyLen a)
    ++ pubKey (ktypeOf a) (slotValue (slotOf d (octetAt p 0))) (keyLen a)

theorem devAttestOp_rootless {ch : Nat} {p : List Byte} (h : Served d ch 0x13 p) (hl : p.length = 40) (hr : rootPresent (opened d ch) = false) :
    devAttestOp d ch = mboxReply (opened d ch) ch (special 5) [] := by
  unfold devAttestOp
  rw [mboxStart_served h none (fun _ hb => nomatch hb) _ (by simpa using hl)]
  dsimp only
  rw [hr]
  rfl

theorem keyAttestOp_rootless {ch : Nat} {p : List Byte} (h : Served d ch 0x12 p) (hl : p.length = 40) (hr : rootPresent (opened d ch) = false) :
    keyAttestOp d ch = mboxReply (opened d ch) ch (special 5) [] := by
  unfold keyAttestOp
  rw [mboxStart_served h none (fun _ hb => nomatch hb) _ (by simpa using hl)]
  dsimp only
  rw [hr]
  rfl

theorem devAttestOp_signed {ch : Nat} {p k : List Byte} {e : Dev} (h : Served d ch 0x13 p) (hl : p.length = 40)
    (hr : rootPresent (opened d ch) = true) (hs : attestSign (opened d ch) (deviceStatement (opened d ch) p) true = (some k, e)) :
    devAttestOp d ch = mboxReply e ch 0 k := by
  unfold deviceStatement at hs
  unfold devAttestOp
  rw [mboxStart_served h none (fun _ hb => nomatch hb) _ (by simpa using hl)]
  dsimp only
  rw [hr, if_neg (by decide), hs]
  rfl

theorem devAttestOp_unsigned {ch : Nat} {p : List Byte} {e : Dev} (h : Served d ch 0x13 p) (hl : p.length = 40)
    (hr : rootPresent (opened d ch) = true) (hs : attestSign (opened d ch) (deviceStatement (opened d ch) p) true = (none, e)) :
    devAttestOp d ch = mboxReply e ch (special 2) [] := by
  unfold deviceStatement at hs
  unfold devAttestOp
  rw [mboxStart_served h none (fun _ hb => nomatch hb) _ (by simpa using hl)]
  dsimp only
  rw [hr, if_neg (by decide), hs]
  rfl

theorem keyAttestOp_signed {ch : Nat} {p x : List Byte} {e : Dev} (h : Served d ch 0x12 p) (hl : p.length = 40)
    (hr : rootPresent (opened d ch) = true) (hk : ktypeOf (slotOf (opened d ch) (octetAt p 0)).attr ≠ 0)
    (hb : bit (slotOf (opened d ch) (octetAt p 0)).attr 24 = false)
    (hs : attestSign (opened d ch) (keyStatement (opened d ch) p) false = (some x, e)) : keyAttestOp d ch = mboxReply e ch 0 x := by
  unfold keyStatement keyLen at hs
  dsimp only at hs
  unfold keyAttestOp
  rw [mboxStart_served h none (fun _ hb => nomatch hb) _ (by simpa using hl)]
  dsimp only
  rw [hr, if_neg (by decide), if_neg hk, hb, if_neg Bool.false_ne_true, hs]
  rfl

/-! ### The recheck of a port's keys (R377) -/

/-- The recheck of one SA of the port. -/
def recheckStep (d : Dev) (i : Nat) : Dev :=
  let w := trd d (saAddr i)
  let s := fld w 44 8
  let kt := if fld w 52 2 % 2 = 0 then [1] else [2]
  if (slotOf d s).cached && !slotUsable d s 0 kt then putSlot d s { slotOf d s with cached := false } else d

/-- The device at the start of a recheck, its instant noted. -/
def recheckNoted (d : Dev) (p : Nat) : Dev := { d with car := { d.car with recheckAt := kvPut d.car.recheckAt p d.now } }

/-- The SAs that a port's recheck visits. -/
def recheckList (d : Dev) (p : Nat) : List Nat :=
  (List.range 512).filter fun i => bit (trd d (saAddr i)) 63 && fld (trd d (saAddr i)) 56 6 == p

/-- Whether the last recheck of a port is 100 ms old. -/
def recheckDue (d : Dev) : Option Instant → Bool
  | none => true
  | some x => !decide (d.now < x + 100 * msTicks)

theorem recheckDue_some (d : Dev) (x : Instant) : recheckDue d (some x) = !decide (d.now < x + 100 * msTicks) := rfl

theorem macsecRecheck_eq (d : Dev) (p : Nat) : macsecRecheck d p =
    if recheckDue d (kvGet d.car.recheckAt p) = true then (recheckList (recheckNoted d p) p).foldl recheckStep (recheckNoted d p) else d := by
  unfold macsecRecheck
  cases hk : kvGet d.car.recheckAt p with
  | none => rfl
  | some x =>
    dsimp only
    rw [recheckDue_some]
    by_cases hx : d.now < x + 100 * msTicks
    · exact (if_pos (decide_eq_true hx)).trans (if_neg (by rw [decide_eq_true hx]; decide)).symm
    · exact (if_neg (by rw [decide_eq_false hx]; decide)).trans (if_pos (by rw [decide_eq_false hx]; decide)).symm

theorem slotOf_putSlot_same (d : Dev) (s : Nat) (k : KeySlot) : slotOf (putSlot d s k) s = k := by
  unfold slotOf putSlot kvD
  rw [kvGet_kvPut_same]
  rfl

theorem slotOf_putSlot_other (d : Dev) {s s' : Nat} (k : KeySlot) (h : s ≠ s') : slotOf (putSlot d s k) s' = slotOf d s' := by
  unfold slotOf putSlot kvD
  rw [kvGet_kvPut_other _ _ h]

/-- A device that differs from another at most by engine copies that are dropped. -/
structure CopiesDropped (d e : Dev) : Prop where
  regs : e.regs = d.regs
  tbl : e.tbl = d.tbl
  attr : ∀ s, (slotOf e s).attr = (slotOf d s).attr
  cached : ∀ s, (slotOf d s).cached = false → (slotOf e s).cached = false

theorem CopiesDropped.refl (d : Dev) : CopiesDropped d d := ⟨.refl _, .refl _, fun _ => .refl _, fun _ h => h⟩

theorem CopiesDropped.trans {d e f : Dev} (h : CopiesDropped d e) (g : CopiesDropped e f) : CopiesDropped d f :=
  ⟨g.regs.trans h.regs, g.tbl.trans h.tbl, fun s => (g.attr s).trans (h.attr s), fun s hs => g.cached s (h.cached s hs)⟩

theorem CopiesDropped.usable {d e : Dev} (h : CopiesDropped d e) (s use : Nat) (l : List Nat) : slotUsable e s use l = slotUsable d s use l := by
  unfold slotUsable lcOf debugOpen rf rd
  rw [h.attr, h.regs]

theorem CopiesDropped.table {d e : Dev} (h : CopiesDropped d e) (a : Nat) : trd e a = trd d a := by
  unfold trd
  rw [h.tbl]

theorem recheckStep_drops (d : Dev) (i : Nat) : CopiesDropped d (recheckStep d i) := by
  unfold recheckStep
  dsimp only
  generalize (if fld (trd d (saAddr i)) 52 2 % 2 = 0 then [1] else [2]) = kt
  split
  · generalize fld (trd d (saAddr i)) 44 8 = s
    refine ⟨.refl _, .refl _, fun s' => ?_, fun s' h => ?_⟩
    · by_cases hs : s = s'
      · rw [← hs, slotOf_putSlot_same]
      · rw [slotOf_putSlot_other _ _ hs]
    · by_cases hs : s = s'
      · rw [← hs, slotOf_putSlot_same]
      · rwa [slotOf_putSlot_other _ _ hs]
  · exact .refl d

/-- The SA's slot may not be used, so the recheck of the SA leaves no copy of it. -/
theorem recheckStep_drop {d : Dev} {i : Nat}
    (h : slotUsable d (fld (trd d (saAddr i)) 44 8) 0 (if fld (trd d (saAddr i)) 52 2 % 2 = 0 then [1] else [2]) = false) :
    (slotOf (recheckStep d i) (fld (trd d (saAddr i)) 44 8)).cached = false := by
  unfold recheckStep
  dsimp only
  rw [h]
  cases hc : (slotOf d (fld (trd d (saAddr i)) 44 8)).cached with
  | true =>
    rw [if_pos (by decide), slotOf_putSlot_same]
  | false =>
    rw [if_neg (by decide)]
    exact hc

theorem recheckFold_drops (l : List Nat) : ∀ d, CopiesDropped d (l.foldl recheckStep d) := by
  induction l with
  | nil => exact .refl
  | cons i l ih => exact fun d => (recheckStep_drops d i).trans (ih _)

theorem recheckFold_drop {i : Nat} {l : List Nat} (hi : i ∈ l) : ∀ {d : Dev},
    slotUsable d (fld (trd d (saAddr i)) 44 8) 0 (if fld (trd d (saAddr i)) 52 2 % 2 = 0 then [1] else [2]) = false →
    (slotOf (l.foldl recheckStep d) (fld (trd d (saAddr i)) 44 8)).cached = false := by
  induction l with
  | nil => exact absurd hi (List.not_mem_nil)
  | cons j l ih =>
    intro d h
    rcases List.mem_cons.mp hi with rfl | hi
    · exact (recheckFold_drops l _).cached _ (recheckStep_drop h)
    · have hs := recheckStep_drops d j
      have := ih hi (d := recheckStep d j)
      rw [hs.table, hs.usable] at this
      exact this h

theorem macsecRecheck_drops {p : Nat} (hdue : recheckDue d (kvGet d.car.recheckAt p) = true) :
    (macsecRecheck d p).regs = d.regs ∧ (macsecRecheck d p).tbl = d.tbl ∧ ∀ i < 512,
      bit (trd d (saAddr i)) 63 = true → fld (trd d (saAddr i)) 56 6 = p →
      slotUsable d (fld (trd d (saAddr i)) 44 8) 0 (if fld (trd d (saAddr i)) 52 2 % 2 = 0 then [1] else [2]) = false →
      (slotOf (macsecRecheck d p) (fld (trd d (saAddr i)) 44 8)).cached = false := by
  rw [(macsecRecheck_eq d p).trans (if_pos hdue)]
  have hf := recheckFold_drops (recheckList (recheckNoted d p) p) (recheckNoted d p)
  refine ⟨hf.regs, hf.tbl, fun i hi hb hp hu => ?_⟩
  refine recheckFold_drop (d := recheckNoted d p) (List.mem_filter.mpr ⟨List.mem_range.mpr hi, ?_⟩) hu
  have hn : trd (recheckNoted d p) (saAddr i) = trd d (saAddr i) := rfl
  rw [hn, hb, hp]
  exact beq_self_eq_true p

end

/-- Settles O53: CAR_CMD and its end by operation, the mailbox commands, slot integrity, TRNG and DRBG, the recheck of MACsec keys. -/
theorem keyCommandsAct : Obligations.KeyCommandsAct := by
  intro s t d
  have hd : devAt s.dev t = d := rfl
  clear_value d
  refine ⟨fun m x hm => ?_, fun h => lands_congr (hd ▸ lands_carCmdDone t s) (carDone_idle h), fun c hc => ?_,
    hd ▸ lands_slotIntegrityPass t none s, fun x hx => lands_congr (hd ▸ lands_slotIntegrityPass t (some x) s) (if_neg hx), fun ch p => ?_,
    hd ▸ lands_trngHealthFail t s, fun h => lands_congr (hd ▸ lands_trngRecovery t s) (if_pos h),
    fun h => lands_congr (hd ▸ lands_drbgReseed t s) (if_pos h), fun h => lands_congr (hd ▸ lands_drbgReseed t s) (if_neg (Nat.not_le.mpr h)),
    fun p h => ⟨_, hd ▸ lands_macsecKeyRecheck t p s, macsecRecheck_drops ?_⟩, fun p x hx h => ?_⟩
  · intro data out go
    refine ⟨fun hb => ?_, fun hb => lands_congr (hd ▸ lands_carCmdWrite t m x s) ((regPut_carGo x (by decide) hm).trans (if_pos hb))⟩
    have hgo : ∀ op, carGo d (masterCode m) op x.val = go op := fun op => if_neg (by rw [hb]; exact Bool.false_ne_true)
    exact ⟨lands_congr (hd ▸ lands_carCmdWrite t m x s) ((regPut_carGo x (by decide) hm).trans (hgo 1)),
      lands_congr (hd ▸ lands_carCmdGenerate t m x s) ((regPut_carGo x (by decide) hm).trans (hgo 2)),
      lands_congr (hd ▸ lands_carCmdDestroy t m x s) ((regPut_carGo x (by decide) hm).trans (hgo 3)),
      lands_congr (hd ▸ lands_carCmdWrapExport t m x s) ((regPut_carGo x (by decide) hm).trans (hgo 4)),
      lands_congr (hd ▸ lands_carCmdUnwrapImport t m x s) ((regPut_carGo x (by decide) hm).trans (hgo 5)),
      lands_congr (hd ▸ lands_carCmdDerive t m x s) ((regPut_carGo x (by decide) hm).trans (hgo 6))⟩
  · have hfin : ∀ {r : Nat} {e : Dev}, carEffect d c = (r, e) → Lands t (.carCmdDone t) s (carEnded r e) :=
      fun he => lands_congr (hd ▸ lands_carCmdDone t s) (carDone_effect hc he)
    intro fin value refused
    refine ⟨fun h ho => hfin (carEffect_reserved h ho), fun h ho hb => hfin (carEffect_badAttr h hb ho),
      fun h hb hp => ⟨fun ho hg => ?_, fun ho ht h5 h6 => ?_⟩, fun h ho => ?_, fun ho hk => ?_, fun ho hk hb => ?_⟩
    · exact hfin ((if_pos ho).trans (keyWriteOp_done h hb hp hg))
    · refine hfin (Eq.trans ?_ (keyGenOp_done h hb hp ht h5 h6 rfl))
      unfold carEffect
      rw [ho]
      rfl
    · refine hfin (Eq.trans ?_ (keyDestroyOp_done c.master h))
      unfold carEffect
      rw [ho]
      rfl
    · refine hfin (Eq.trans (Eq.trans ?_ (wrapExportOp_refused (slotUsable_empty hk))) ?_)
      · unfold carEffect
        rw [ho]
        rfl
      · rw [show refuseCode d c.slot = 7 from if_pos hk]
    · refine hfin (Eq.trans (Eq.trans ?_ (wrapExportOp_refused (slotUsable_not hb))) ?_)
      · unfold carEffect
        rw [ho]
        rfl
      · rw [show refuseCode d c.slot = 2 from if_neg hk]
  · have hW := hd ▸ lands_keyWrite t ch s
    have hG := hd ▸ lands_keyGenerate t ch s
    have hA := hd ▸ lands_keyAttest t ch s
    have hD := hd ▸ lands_devAttest t ch s
    have h2 : ch ≠ 2 → ch.val ≠ 2 := fun h hv => h (Fin.ext hv)
    refine ⟨fun hc => ⟨fun h hp hl hn => ?_, fun h hp hl hn h8 => ?_, fun h hp hl hn => ?_⟩,
      fun x hx => ⟨lands_congr hW (mboxKeyWriteOp_busy hx), lands_congr hG (mboxKeyGenOp_busy hx)⟩, fun h hl hr => ?_, fun h hl hr hk hb x e hs => ?_,
      fun hl hr => ⟨fun h => lands_congr hA (keyAttestOp_rootless h hl hr), fun h => lands_congr hD (devAttestOp_rootless h hl hr)⟩⟩
    · intro r
      exact lands_congr hW (mboxKeyWriteOp_served hc h hp hl (h2 hn) rfl)
    · have hr : keyGenOp (opened d ch.val) (mboxMaster ch.val) (octetAt p 0) (bytesWord (slice p 8 8)) = (1, opened d ch.val) :=
        if_pos (reservedSlot_of h8)
      have hE := mboxKeyGenOp_served hc h hp hl (h2 hn) hr fun hz => Nat.one_ne_zero hz.1
      dsimp only at hE
      exact lands_congr hG hE
    · intro r h0 hl0
      have hE := mboxKeyGenOp_served hc h hp hl (h2 hn) (r := r) rfl fun hz => hz.2 hl0
      rw [h0] at hE
      exact lands_congr hG hE
    · exact ⟨fun k e hs => lands_congr hD (devAttestOp_signed h hl hr hs), fun e hs => lands_congr hD (devAttestOp_unsigned h hl hr hs)⟩
    · exact lands_congr hA (keyAttestOp_signed h hl hr hk hb hs)
  · cases hk : kvGet d.car.recheckAt p.val with
    | none => rfl
    | some x =>
      rw [recheckDue_some, decide_eq_false (Nat.not_lt.mpr (h x hk))]
      rfl
  · refine lands_congr (hd ▸ lands_macsecKeyRecheck t p s) ((macsecRecheck_eq d p.val).trans (if_neg ?_))
    rw [hx, recheckDue_some, decide_eq_true h]
    exact Bool.false_ne_true

end Sys2Proof.Machine
end

section
/-! PROOF. The Manifest, life-cycle transitions, tamper (spec ch. 13). -/

namespace Sys2Proof.Machine
open Safety

section
variable {mem : List Host.Cell} {d : Dev}

/-! ### Submissions and the journal -/

theorem regPut_manifest {m : Master} (v : W64) (h : Accepts d m .manifest) : regPut mem d m .manifest 0xe0 v
    = if bit v 1 then manSubSeal (if bit v 0 then manSubGo d else d) else if bit v 0 then manSubGo d else d := by
  rw [regPut_accepts _ _ _ _ _ _ h (by decide) (.inl (by decide))]
  unfold regWrite
  exact (if_neg (by decide)).trans (if_pos rfl)

/-- The record that MAN_SUB_GO submits. -/
def submission (d : Dev) : ManRec :=
  { type := fld (rd d .manifest 0xb0) 0 16, source := fld (rd d .manifest 0xb0) 16 8,
    body := (List.range 5).flatMap fun i => wordBytes (rd d .manifest (0xb8 + i * 8)) }

theorem manSubGo_rejected (h : subTypeOk (fld (rd d .manifest 0xb0) 0 16) = false) : manSubGo d = wr d .manifest 0xe8 2 :=
  if_pos (by rw [h]; rfl)

theorem manSubmit_staged {r : ManRec} (h : d.man.staging.length < 128) :
    manSubmit d r = setMan d fun x => { x with staging := x.staging ++ [r] } :=
  if_neg fun hs => absurd hs.2 (Nat.not_le.mpr h)

/-- A valid submission, while nothing can come before it, is staged with the SEQ it will have. -/
theorem manSubGo_staged (h : subTypeOk (fld (rd d .manifest 0xb0) 0 16) = true) (hs : d.man.signing = none) (hd : d.man.sealDue = none)
    (hr : d.man.refused = 0) (ha : d.man.staging.all (fun r => r.type != 0xF0) = true) (hl : d.man.sinceSeal + d.man.staging.length < 64) :
    manSubGo d = wr (setMan d fun x => { x with staging := x.staging ++ [submission d] }) .manifest 0xe8
      (mkWord [(0, 1), (32, (d.man.head + d.man.staging.length) % 2 ^ 32)]) := by
  have hlen : d.man.staging.length < 128 := by omega
  unfold manSubGo
  dsimp only
  rw [if_neg (by rw [h]; exact Bool.false_ne_true), hs, hd, ha, decide_eq_true hr, decide_eq_true hl, decide_eq_false (Nat.not_le.mpr hlen)]
  exact congrArg (fun e => wr e .manifest 0xe8 (mkWord [(0, 1), (32, (d.man.head + d.man.staging.length) % 2 ^ 32)])) (manSubmit_staged hlen)

theorem manWriteOp_unverified (hu : domUp d 2 = true) {r : ManRec} {rest : List ManRec} (h : d.man.staging = r :: rest) :
    manWriteOp d false = raise d .manifest 0 := by
  unfold manWriteOp
  rw [if_neg (by rw [hu]; exact Bool.false_ne_true), h]
  rfl

/-- The device with the oldest staged record taken. -/
def unstaged (d : Dev) (rest : List ManRec) : Dev := setMan d fun x => { x with staging := rest }

theorem manWriteOp_record (hu : domUp d 2 = true) {r : ManRec} {rest : List ManRec} (h : d.man.staging = r :: rest) (ht : r.type ≠ 0xF0) :
    manWriteOp d true = gapWrite (sealAuto (manStore (unstaged d rest) r.type r.source true (timeBytes (unstaged d rest)) r.body)) := by
  unfold manWriteOp
  rw [if_neg (by rw [hu]; exact Bool.false_ne_true), h]
  exact (if_neg (by decide)).trans (if_neg ht)

theorem manWriteOp_seal (hu : domUp d 2 = true) {r : ManRec} {rest : List ManRec} (h : d.man.staging = r :: rest) (ht : r.type = 0xF0)
    (hc : octetAt r.body 1 = 0) (hs : d.man.signing = none) : manWriteOp d true = gapWrite (sealWrite (unstaged d rest) (octetAt r.body 0)) := by
  unfold manWriteOp
  rw [if_neg (by rw [hu]; exact Bool.false_ne_true), h]
  refine (if_neg (by decide)).trans ((if_pos ht).trans ?_)
  dsimp only
  rw [if_pos hc, if_neg (show ¬ (setMan d fun x => { x with staging := rest }).man.signing.isSome = true from by
    rw [show (setMan d fun x => { x with staging := rest }).man.signing = none from hs]; exact Bool.false_ne_true)]
  rfl

/-- The device with the anchor of a seal and the first record of its signature written. -/
def anchored (d : Dev) (n : Nat) : Dev :=
  manStore (anchorWrite d) 0xF2 0 false (leBytes 4 n) ((signN (slotValue (slotOf d 2)) d.man.prevChain 96).take 48)

theorem sealSignedOp_of (hu : domUp d 2 = true) {n : Nat} (h : d.man.signing = some n) : sealSignedOp d =
    sealNext (sealEnd (wf (manStore (anchored d n) 0xF3 0 false (leBytes 4 n) ((signN (slotValue (slotOf d 2)) d.man.prevChain 96).drop 48))
      .manifest 0x98 32 32 (anchored d n).man.head) n (anchored d n).man.head) := by
  unfold sealSignedOp
  rw [h]
  exact if_neg (by rw [hu]; exact Bool.false_ne_true)

/-! ### Mailbox commands of the Manifest -/

theorem manifestSealOp_served {ch : Nat} (h : Served d ch 0x60 []) : manifestSealOp d ch = sealReq (opened d ch) 1 (some ch) := by
  unfold manifestSealOp
  rw [mboxStart_served h none (fun _ hb => nomatch hb) _ rfl]

theorem manifestReadOp_served {ch : Nat} {p l : List Byte} {e : EccEvent} {r : Nat} {d' : Dev} (h : Served d ch 0x61 p) (hl : p.length = 12)
    (hr : manifestRead p (mramRead (opened d ch) e) = (some (r, l), d')) : manifestReadOp d ch e = mboxReply d' ch r l := by
  unfold manifestReadOp
  rw [mboxStart_served h none (fun _ hb => nomatch hb) _ (by simpa using hl), hr]

theorem manifestRead_badCount {p : List Byte} (h : leNat (slice p 4 2) = 0 ∨ 63 < leNat (slice p 4 2)) :
    manifestRead p d = (some (0x101, []), d) :=
  if_pos (.inr h)

/-! ### Life-cycle transitions -/

theorem lcTransitionOp_nonce {ch : Nat} (hp : privileged d ch 3 = true) (h : Served d ch 0x70 []) (ht : trngOk (opened d ch) = true) :
    lcTransitionOp d ch = mboxReply { (draw (opened d ch) 32).2 with car := { (draw (opened d ch) 32).2.car with
      lcNonce := some (draw (opened d ch) 32).1 } } ch 0 (draw (opened d ch) 32).1 := by
  unfold lcTransitionOp
  rw [mboxStart_served h (some 3) (fun b hb => by cases hb; exact hp) _ rfl]
  dsimp only
  rw [if_pos rfl, ht]
  rfl

theorem lcTransitionOp_token {ch : Nat} {p : List Byte} (hp : privileged d ch 3 = true) (h : Served d ch 0x70 p) (hl : p.length = 256)
    {r : Nat} {e : Dev} (hr : lcToken p (opened d ch) = (r, e)) : lcTransitionOp d ch = mboxReply e ch (special r) [] := by
  have hn : p ≠ [] := fun h0 => absurd hl (by rw [h0]; decide)
  unfold lcTransitionOp
  rw [mboxStart_served h (some 3) (fun b hb => by cases hb; exact hp) _ (by simpa using .inr hl)]
  dsimp only
  rw [if_neg hn, hr]

/-- A token of a transition from another state than the one the device is in is a bad transition. -/
theorem lcToken_elsewhere {p : List Byte} (h : octetAt p 2 ≠ lcOf d) : lcToken p d = (4, d) := by
  unfold lcToken
  dsimp only
  cases lcAuthority (octetAt p 2) (octetAt p 3) with
  | none => rfl
  | some a => exact if_pos (.inl h)

/-- The device with the record and the seal of a transition to LC_SCRAP that a token requests. -/
def scrapRecorded (d : Dev) (p : List Byte) : Dev :=
  sealReq (manPush d 2 1 (leBytes 1 (lcOf d) ++ leBytes 1 5 ++ leBytes 1 0 ++ slice p 32 16)) 2 none

theorem lcAuthority_scrap {src : Nat} (h : src = 0 ∨ src = 1 ∨ src = 4) : lcAuthority src 5 = some 0 := by
  rcases h with rfl | rfl | rfl <;> rfl

theorem lcToken_scrap {p : List Byte} (hs : octetAt p 2 = lcOf d) (h5 : octetAt p 3 = 5) (hl : lcOf d = 0 ∨ lcOf d = 1 ∨ lcOf d = 4)
    (hv : leNat (p.take 2) = 2) (ht : tokenHere d p = true) (hn : d.car.lcNonce = some (slice p 32 32)) {e : Dev} (he : scrapRecorded d p = e) :
    lcToken p d = (0, { e with car := { e.car with lcNonce := none, lcNext := some (5, e.now) } }) := by
  have hsrc : ¬(lcOf d ≠ lcOf d ∨ fieldRefused d 5 = true) := not_or.mpr ⟨not_not.mpr rfl, Bool.false_ne_true⟩
  subst he
  unfold lcToken
  dsimp only
  rw [hs, h5, lcAuthority_scrap hl]
  exact (if_neg hsrc).trans ((if_neg (not_or.mpr ⟨not_not.mpr hv, Bool.false_ne_true⟩)).trans
    ((if_neg (by rw [ht]; exact Bool.false_ne_true)).trans (if_neg (not_not.mpr hn))))

theorem lcResetOp_of {x y : Nat} (h : d.car.lcNext = some (x, y)) (hh : halted d = false) :
    lcResetOp d = if d.now < y + 10 * msTicks then d else chipReset (sessionClose d 4) 5 := by
  unfold lcResetOp
  rw [h]
  dsimp only
  rw [hh]
  exact ite_congr (propext ⟨fun hx => hx.resolve_left Bool.false_ne_true, .inr⟩) (fun _ => rfl) fun _ => rfl

/-! ### Tamper -/

theorem tamperDetectOp_detected {b : Nat} (hk : b ≤ 4 ∨ 8 ≤ b ∧ b ≤ 11) (he : rb d .carapace 0xa0 b = true) (hd : domCond d 1 ≠ 0)
    (h1 : b = 1 → pwrState d < 4) (h2 : b = 2 → pwrState d ≠ 5) (h3 : b = 3 → pwrState d < 3) :
    tamperDetectOp d b = sessionClose (manTamper (tamperOp d b (pwrState d))) 5 := by
  unfold tamperDetectOp
  dsimp only
  rw [if_neg hd]
  refine if_neg ?_
  rintro (hn | hn | hn)
  · have : (decide (b ≤ 4) || decide (8 ≤ b ∧ b ≤ 11) || b == 15) = true := by simpa using .inl hk
    rw [this] at hn
    exact Bool.false_ne_true hn
  · simp only [Bool.not_eq_true', Bool.and_eq_false_iff, Bool.not_eq_false', Bool.and_eq_true, beq_iff_eq, decide_eq_true_eq] at hn
    rcases hn with (⟨hb, hs⟩ | ⟨hb, hs⟩) | ⟨hb, hs⟩
    · exact absurd (h1 hb) (Nat.not_lt.mpr hs)
    · exact h2 hb hs
    · exact absurd (h3 hb) (Nat.not_lt.mpr hs)
  · rw [he] at hn
    exact Bool.false_ne_true hn.2

theorem tamperDetectOp_unknown {b : Nat} (hk : ¬(b ≤ 4 ∨ 8 ≤ b ∧ b ≤ 11)) (h15 : b ≠ 15) : tamperDetectOp d b = d :=
  if_pos (.inl (by simp; omega))

theorem tamperDetectOp_disabled {b : Nat} (h15 : b ≠ 15) (h : rb d .carapace 0xa0 b = false) : tamperDetectOp d b = d :=
  if_pos (.inr (.inr ⟨h15, by rw [h]; rfl⟩))

end

/-- Settles O54: submissions, records and seals of the Manifest, its mailbox commands, the life-cycle transition, tamper detection. -/
theorem evidenceAndLifeCycleAct : Obligations.EvidenceAndLifeCycleAct := by
  intro s t d
  have hd : devAt s.dev t = d := rfl
  clear_value d
  refine ⟨fun m hm => ?_, fun hu r rest h => ?_, fun hu n h => lands_congr (hd ▸ lands_sealSigned t s) (sealSignedOp_of hu h), fun ch p => ?_,
    fun x y h hh => ?_, fun b => ?_⟩
  · have hS := lands_congr (hd ▸ lands_manifestSubmit t m s) (regPut_manifest 1 hm)
    exact ⟨fun h => lands_congr hS (manSubGo_rejected h), fun h hs hq hr ha hl => lands_congr hS (manSubGo_staged h hs hq hr ha hl),
      lands_congr (hd ▸ lands_manifestSubSeal t m s) (regPut_manifest 2 hm)⟩
  · exact ⟨lands_congr (hd ▸ lands_manifestRecordWrite t false s) (manWriteOp_unverified hu h),
      fun ht => lands_congr (hd ▸ lands_manifestRecordWrite t true s) (manWriteOp_record hu h ht),
      fun ht hc hs => lands_congr (hd ▸ lands_manifestRecordWrite t true s) (manWriteOp_seal hu h ht hc hs)⟩
  · have hR := fun e => hd ▸ lands_manifestRead t ⟨ch, e⟩ s
    have hL := hd ▸ lands_lcTransition t ch s
    refine ⟨fun h => lands_congr (hd ▸ lands_manifestSeal t ch s) (manifestSealOp_served h), fun h hl => ?_, fun hp => ?_⟩
    · exact ⟨fun hc => lands_congr (hR .clean) (manifestReadOp_served h hl (manifestRead_badCount hc)),
        fun r l e hr => lands_congr (hR .clean) (manifestReadOp_served h hl hr),
        fun w r l e hr => lands_congr (hR (.corrected w)) (manifestReadOp_served h hl hr),
        fun w r l e hr => lands_congr (hR (.uncorrectable w)) (manifestReadOp_served h hl hr)⟩
    · refine ⟨fun h ht => lands_congr hL (lcTransitionOp_nonce hp h ht),
        fun h hl hs => lands_congr hL (lcTransitionOp_token hp h hl (lcToken_elsewhere hs)), fun h hl hs h5 hlc hv ht hn => ?_⟩
      intro e
      have hE := lcTransitionOp_token hp h hl (lcToken_scrap hs h5 hlc hv ht hn (e := e) rfl)
      exact lands_congr hL hE
  · have hL := lands_congr (hd ▸ lands_lcTransitionReset t s) (lcResetOp_of h hh)
    exact ⟨fun ht => lands_congr hL (if_neg (Nat.not_lt.mpr ht)), fun ht => lands_congr hL (if_pos ht)⟩
  · have hT := hd ▸ lands_tamperDetect t b s
    exact ⟨fun hk he h0 h1 h2 h3 => lands_congr hT (tamperDetectOp_detected hk he h0 h1 h2 h3),
      fun hk h15 => lands_congr hT (tamperDetectOp_unknown hk h15), fun h15 h => lands_congr hT (tamperDetectOp_disabled h15 h)⟩

end Sys2Proof.Machine
end

section
/-! PROOF. The Scarab cluster: votes, digests, self-tests, modes (spec ch. 14). -/

namespace Sys2Proof.Machine
open Safety

/-! ### Writes that have a command of their own -/

section
variable {d : Dev} {m : Master} {pg : Page}

theorem writeCause_accepts {off : Nat} (h : Accepts d m pg) (h8 : off % 8 = 0) (hs : off < 0x800) : writeCause d m (pg.base + off) 3 = 0 := by
  have hb := base_range pg
  have hp := pageOf_base pg h.page (off := off) (by omega)
  have hd : domOff d pg.domain = false := by simp [domOff, h.on]
  unfold writeCause
  rw [h.live, if_neg (by simp), if_neg (by omega), if_neg (by omega), hp]
  dsimp only
  rw [hd, if_neg (by simp), if_neg (by omega), h.owner]
  rfl

theorem guardedAt_accepts {off : Nat} (eff : Dev → Dev) (h : Accepts d m pg) (h8 : off % 8 = 0) (hs : off < 0x800) :
    guardedAt d m pg off eff = eff d :=
  if_pos (writeCause_accepts h h8 hs)

end

section
variable {mem : List Host.Cell} {d : Dev}

/-! ### Votes -/

/-- The first minority of a core within a second (R393). -/
def minorityFirst (d : Dev) (n kind : Nat) : Dev :=
  let e := irq (lastEvent (cnt (setScarab d fun x => { x with lastMin := kvPut x.lastMin n (locNow d) }) (.scarab 0) (0xa0 + n * 8) 1) n kind)
    (.scarab 0) 0
  setScarab (wf (wb (raise e (.scarab 0) 0) (.scarab 0) 0x80 2 true) (.scarab 0) 0x80 3 2 n) fun x => { x with resyncAt := some d.now }

theorem minorityOp_first {n : Nat} (kind : Nat) (h : ∀ x, kvGet d.scarab.lastMin n = some x → x + secUnits ≤ locNow d) :
    minorityOp d n kind = minorityFirst d n kind := by
  unfold minorityOp
  cases hk : kvGet d.scarab.lastMin n with
  | none => rfl
  | some x =>
    dsimp only
    rw [decide_eq_false (Nat.not_lt.mpr (h x hk))]
    rfl

theorem minorityOf_equal (a : W64) : minorityOf a a a = 3 := if_pos ⟨rfl, rfl⟩

theorem minorityOf_zero {a b : W64} (h : a ≠ b) : minorityOf b a a = 0 :=
  (if_neg fun hn => h hn.1.symm).trans ((if_neg h.symm).trans ((if_neg h.symm).trans (if_pos rfl)))

theorem minorityOf_one {a b : W64} (h : a ≠ b) : minorityOf a b a = 1 :=
  (if_neg fun hn => h hn.1).trans ((if_neg h).trans (if_pos rfl))

theorem minorityOf_two {a b : W64} (h : a ≠ b) : minorityOf a a b = 2 :=
  (if_neg fun hn => h hn.2).trans (if_pos rfl)

theorem minorityOf_all {a b c : W64} (hab : a ≠ b) (hbc : b ≠ c) (hac : a ≠ c) : minorityOf a b c = 4 :=
  (if_neg fun hn => hab hn.1).trans ((if_neg hab).trans ((if_neg hac).trans (if_neg hbc)))

theorem voteOp_equal (a : W64) (kind : Nat) : voteOp d a a a kind = d := if_pos (.inr (minorityOf_equal a))

/-- A vote of three cores in TMR. -/
structure FullVote (d : Dev) : Prop where
  votes : voting d = true
  steady : resyncing d = false
  whole : d.scarab.left = none

theorem voteOp_differ (hv : FullVote d) {a b c : W64} {n : Nat} (kind : Nat) (hn : minorityOf a b c = n) (h3 : n ≠ 3) :
    voteOp d a b c kind = if n = 4 then clusterHalt d 2 4 else minorityOp d n kind := by
  obtain ⟨h1, h2, h4⟩ := hv
  unfold voteOp
  dsimp only
  rw [hn, h1, if_neg (show ¬((!true) = true ∨ n = 3) from not_or.mpr ⟨Bool.false_ne_true, h3⟩), h2, if_neg Bool.false_ne_true, h4]

theorem voteOp_minority (hv : FullVote d) {a b c : W64} {n : Nat} (kind : Nat) (hn : minorityOf a b c = n) (h3 : n < 3)
    (hl : ∀ x, kvGet d.scarab.lastMin n = some x → x + secUnits ≤ locNow d) : voteOp d a b c kind = minorityFirst d n kind :=
  (voteOp_differ hv kind hn (Nat.ne_of_lt h3)).trans ((if_neg (by omega)).trans (minorityOp_first kind hl))

/-! ### Digests -/

/-- The digests of a compare shown, the voted one kept. -/
def digestShown (d : Dev) (a b c v : W64) : Dev :=
  setScarab (wr (wr (wr (setScarab d fun x => { x with digDone := digestsDue d }) (.scarab 0) 0xc8 a) (.scarab 0) 0xd0 b) (.scarab 0) 0xd8 c)
    fun x => { x with voted := v }

theorem rd_setScarab (d : Dev) (f : ScarabSt → ScarabSt) (pg : Page) (off : Nat) : rd (setScarab d f) pg off = rd d pg off := rfl

theorem rd_digestShown (d : Dev) (a b c v : W64) {pg : Page} {off : Nat}
    (h : ∀ o, o = 0xc8 ∨ o = 0xd0 ∨ o = 0xd8 → (Page.scarab 0).base + o ≠ pg.base + off) : rd (digestShown d a b c v) pg off = rd d pg off := by
  unfold digestShown
  rw [rd_setScarab, rd_wr_far _ c (h _ (.inr (.inr rfl))), rd_wr_far _ b (h _ (.inr (.inl rfl))), rd_wr_far _ a (h _ (.inl rfl)), rd_setScarab]

theorem rd_digestShown_stat (d : Dev) (a b c v : W64) : rd (digestShown d a b c v) (.scarab 0) 0x80 = rd d (.scarab 0) 0x80 := by
  refine rd_digestShown d a b c v fun o ho => ?_
  rcases ho with rfl | rfl | rfl <;> decide

theorem rd_digestShown_pwr (d : Dev) (a b c v : W64) : rd (digestShown d a b c v) .pwr 0x90 = rd d .pwr 0x90 := by
  refine rd_digestShown d a b c v fun o ho => ?_
  rcases ho with rfl | rfl | rfl <;> decide

theorem digestShown_parts (d : Dev) (a b c v : W64) : (digestShown d a b c v).scarab.left = d.scarab.left
    ∧ (digestShown d a b c v).scarab.lastMin = d.scarab.lastMin ∧ (digestShown d a b c v).fcn = d.fcn
    ∧ locNow (digestShown d a b c v) = locNow d := by
  unfold digestShown
  generalize digestsDue d = n
  refine ⟨rfl, rfl, ?_, ?_⟩ <;> unfold setScarab
  · simp only [wr_fcn]
  · unfold locNow
    simp only [wr_time, wr_now]
    rfl

theorem digestShown_votes (h : FullVote d) (a b c v : W64) : FullVote (digestShown d a b c v) := by
  obtain ⟨hl, -, hf, -⟩ := digestShown_parts d a b c v
  obtain ⟨h1, h2, h3⟩ := h
  refine ⟨?_, ?_, hl.trans h3⟩
  · unfold voting trio lockBroken clusterHalted domCond rb rf at h1 ⊢
    rw [rd_digestShown_stat, rd_digestShown_pwr, hf]
    exact h1
  · unfold resyncing rb at h2 ⊢
    rw [rd_digestShown_stat]
    exact h2

/-- A compare that is due shows its digests and votes on them. -/
theorem digestVoteOp_due (hv : voting d = true) (h : d.scarab.digDone < digestsDue d) (a c : W64) :
    digestVoteOp d a a c = voteOp (digestShown d a a c a) a a c 2 := by
  unfold digestVoteOp
  dsimp only
  rw [if_neg (not_or.mpr ⟨by rw [hv]; exact Bool.false_ne_true, Nat.not_le.mpr h⟩), if_pos (.inl rfl)]
  rfl

theorem digestVoteOp_equal (hv : voting d = true) (h : d.scarab.digDone < digestsDue d) (a : W64) :
    digestVoteOp d a a a = digestShown d a a a a := by
  rw [digestVoteOp_due hv h, voteOp_equal]

theorem digestVoteOp_minority (hv : FullVote d) (h : d.scarab.digDone < digestsDue d) {a b : W64} (hab : a ≠ b)
    (hl : ∀ x, kvGet d.scarab.lastMin 2 = some x → x + secUnits ≤ locNow d) :
    digestVoteOp d a a b = minorityFirst (digestShown d a a b a) 2 2 := by
  obtain ⟨-, hm, -, hn⟩ := digestShown_parts d a a b a
  rw [digestVoteOp_due hv.votes h, voteOp_minority (digestShown_votes hv a a b a) 2 (minorityOf_two hab) (by decide) (by rw [hm, hn]; exact hl)]

theorem digestVoteOp_early (h : digestsDue d ≤ d.scarab.digDone) (a b c : W64) : digestVoteOp d a b c = d := if_pos (.inr h)

/-! ### Self-tests, resynchronisation, modes -/

theorem selftestOp_run (hv : voting d = true) (hr : resyncing d = false) (ok : Bool) : selftestOp d ok = selftestRun d ok :=
  (if_neg (by rw [hv]; exact Bool.false_ne_true)).trans (if_neg (by rw [hr]; exact Bool.false_ne_true))

theorem selftestOp_waits (hv : voting d = true) (hr : resyncing d = true) (ok : Bool) :
    selftestOp d ok = setScarab d fun x => { x with testDue := some ok } :=
  (if_neg (by rw [hv]; exact Bool.false_ne_true)).trans (if_pos hr)

theorem resyncDoneOp_of {x : Instant} (hv : voting d = true) (hr : resyncing d = true) (hx : d.scarab.resyncAt = some x)
    (ht : d.scarab.testDue = none) : resyncDoneOp d = if d.now < x + 2000 then d else
      setScarab (digestStart (irq (cnt (wb d (.scarab 0) 0x80 2 false) (.scarab 0) 0xb8 1) (.scarab 0) 1) (x + 1992))
        fun x => { x with resyncAt := none, resynced := true, testDue := none } := by
  unfold resyncDoneOp
  rw [hx, ht]
  dsimp only
  rw [hv, hr]
  refine ite_congr (propext ⟨fun h => ?_, fun h => .inr (.inr h)⟩) (fun _ => rfl) fun _ => rfl
  exact (h.resolve_left Bool.false_ne_true).resolve_left Bool.false_ne_true

theorem regPut_scarabMode {m : Master} (h : Accepts d m (.scarab 0)) : regPut mem d m (.scarab 0) 0x90 1 = modeReqOp d := by
  rw [regPut_accepts _ _ _ _ _ _ h (by decide) (.inl (by decide))]
  unfold regWrite
  exact (if_neg (by decide)).trans rfl

theorem kcoreinfoOp_tmr (core : Nat) (hu : domUp d 3 = true) (hl : lockBroken d = false) (ht : trio d = false) : kcoreinfoOp d core
    = setScarab (emit d (.csr (mkWord [(0, 0), (2, 0), (4, d.scarab.resynced.toNat)]))) fun x => { x with resynced := false } := by
  unfold kcoreinfoOp
  rw [if_neg (by rw [hu]; exact Bool.false_ne_true), hl, ht]
  rfl

theorem kcoreinfoOp_trio (core : Nat) (hu : domUp d 3 = true) (hl : lockBroken d = false) (ht : trio d = true) : kcoreinfoOp d core
    = setScarab (emit d (.csr (mkWord [(0, 1), (2, core), (4, 0)]))) fun x => { x with resynced := false } := by
  unfold kcoreinfoOp
  rw [if_neg (by rw [hu]; exact Bool.false_ne_true), hl, ht]
  rfl

end

/-- Settles O55: votes of outputs and digests by who differs, the voters' self-test, the resynchronisation, TRIO and kcoreinfo. -/
theorem scarabCommandsAct : Obligations.ScarabCommandsAct := by
  intro s t d pg
  have hd : devAt s.dev t = d := rfl
  clear_value d
  intro minority
  refine ⟨fun hv hr hl => ?_, fun hv => lands_congr (hd ▸ lands_voterMismatch t s) (if_pos hv), ?_, fun x hv hr hx ht => ?_, fun m hm => ?_,
    fun c hu hl => ⟨fun ht => lands_congr (hd ▸ lands_kcoreinfoRead t c s) (kcoreinfoOp_tmr c.val hu hl ht),
      fun ht => lands_congr (hd ▸ lands_kcoreinfoRead t c s) (kcoreinfoOp_trio c.val hu hl ht)⟩⟩
  · have hf : FullVote d := ⟨hv, hr, hl⟩
    have hV := fun a b c => hd ▸ lands_scarabOutputMinority t a b c s
    have hD := fun a b c => hd ▸ lands_digestCompare t a b c s
    refine ⟨fun a => lands_congr (hV a a a) (voteOp_equal a 1), fun a b h => ?_, fun a b c hab hbc hac => ?_, fun h => ?_,
      fun h a b c => lands_congr (hD a b c) (digestVoteOp_early h a b c)⟩
    · exact ⟨fun hx => lands_congr (hV b a a) (voteOp_minority hf 1 (minorityOf_zero h) (by decide) hx),
        fun hx => lands_congr (hV a b a) (voteOp_minority hf 1 (minorityOf_one h) (by decide) hx),
        fun hx => lands_congr (hV a a b) (voteOp_minority hf 1 (minorityOf_two h) (by decide) hx)⟩
    · exact lands_congr (hV a b c) ((voteOp_differ hf 1 (minorityOf_all hab hbc hac) (by decide)).trans (if_pos rfl))
    · exact ⟨fun a => lands_congr (hD a a a) (digestVoteOp_equal hv h a),
        fun a b hab hx => lands_congr (hD a a b) (digestVoteOp_minority hf h hab hx)⟩
  · intro ms due at0 run
    have hT := fun ok => hd ▸ lands_voterSelftest t ok s
    have hN := fun m ok => hd ▸ lands_scarabSelftestNow t m ok s
    refine ⟨fun h ok => lands_congr (hT ok) (if_pos h), fun hv hr => ⟨fun h => ?_, fun m hm => ?_⟩, fun hv hr h ok => ?_⟩
    · have hD := fun ok => lands_congr (hT ok) ((if_neg (Nat.not_lt.mpr h)).trans (selftestOp_run (d := at0) hv hr ok))
      exact ⟨hD true, hD false⟩
    · have hg : ∀ ok, guardedAt (quayTouch d (.scarab 0)) m (.scarab 0) 0x88 (fun d => selftestOp d ok) = selftestRun d ok := by
        intro ok
        rw [quayTouch_on d (.scarab 0) hm.on, guardedAt_accepts _ hm (by decide) (by decide)]
        exact selftestOp_run hv hr ok
      exact ⟨lands_congr (hN m true) (hg true), lands_congr (hN m false) (hg false)⟩
    · exact lands_congr (hT ok) ((if_neg (Nat.not_lt.mpr h)).trans (selftestOp_waits (d := at0) hv hr ok))
  · have hR := lands_congr (hd ▸ lands_resyncDone t s) (resyncDoneOp_of hv hr hx ht)
    exact ⟨fun h => lands_congr hR (if_neg (Nat.not_lt.mpr h)), fun h => lands_congr hR (if_pos h)⟩
  · have hM := lands_congr (hd ▸ lands_scarabModeReq t m s) (regPut_scarabMode hm)
    exact ⟨fun h => lands_congr hM (if_pos h), fun h => lands_congr hM (if_neg (by rw [h]; exact Bool.false_ne_true))⟩

end Sys2Proof.Machine
end

section
/-! PROOF. The Fault Concentrator: fault events, the chip reset's assertion, FAULT_N, the self-test, FCN_SRC_s (spec ch. 15). -/

namespace Sys2Proof.Machine
open Safety

section
variable {mem : List Host.Cell} {d : Dev}

/-! ### Events and the chip reset -/

theorem faultEventOp_of {s b : Nat} {p : Page} (h : sourcePage s = some (p, b)) : faultEventOp d s = raise d p b := by
  unfold faultEventOp
  rw [h]

theorem chipResetAssertOp_none (h : d.fcn.chipRst = none) : chipResetAssertOp d = d := by
  unfold chipResetAssertOp
  rw [h]

theorem chipResetAssertOp_of {x : Instant} (h : d.fcn.chipRst = some x) : chipResetAssertOp d =
    if d.now < leftAt d x ∨ secIntact d ∧ d.now < x + 5 * msTicks ∧ (d.man.signing.isSome ∨ d.man.staging ≠ []) then d else chipReset d 2 := by
  unfold chipResetAssertOp
  rw [h]

/-- Whether the seal of a chip reset is still to be signed. -/
theorem sealOpen_iff : (d.man.signing.isSome = true ∨ d.man.staging ≠ []) ↔ d.man.signing ≠ none ∨ d.man.staging ≠ [] := by
  rw [Option.isSome_iff_ne_none]

/-! ### FAULT_N -/

theorem faultMinOp_of {x : Instant} (h : d.fcn.minUntil = some x) : faultMinOp d = if d.now < x then d
    else if d.fcn.relPend = true ∧ (!d.fcn.safe) = true then
      setFcn d fun f => { f with minUntil := none, relPend := false, faultLow := false, held := false }
    else setFcn d fun f => { f with minUntil := none } := by
  unfold faultMinOp
  rw [h]

theorem regPut_faultn {m : Master} (v : W64) (h : Accepts d m (.fcn 0)) : regPut mem d m (.fcn 0) 0x90 v = faultnOp d v := by
  rw [regPut_accepts _ _ _ _ _ _ h (by decide) (.inl (by decide))]
  unfold regWrite
  exact (if_neg (by decide)).trans (if_pos ⟨rfl, rfl⟩)

/-- A RELEASE without ASSERT, outside the safe state (R423). -/
theorem faultnOp_release {v : W64} (hs : d.fcn.safe = false) (h1 : bit v 1 = false) (h0 : bit v 0 = true) : faultnOp d v =
    if (!fcnLocked d) = true ∨ (!d.fcn.held) = true then d
    else if d.fcn.minUntil.isSome then setFcn d fun x => { x with relPend := true }
    else setFcn d fun x => { x with faultLow := false, held := false } := by
  unfold faultnOp
  rw [h1, h0, hs, if_neg Bool.false_ne_true]
  refine ite_congr (propext ⟨fun h => ?_, fun h => .inr (.inr h)⟩) (fun _ => rfl) fun _ => rfl
  exact (h.resolve_left Bool.false_ne_true).resolve_left Bool.false_ne_true

/-! ### The self-test -/

theorem fcnSelftestOp_awake (ok : Bool) (h : pwrState d < 3) : fcnSelftestOp d ok =
    if ok = true then wb (wf (setFcn d fun f => { f with lastTest := locNow d, exitTest := false }) (.fcn 0) 0xa8 32 32
        ((rf (setFcn d fun f => { f with lastTest := locNow d, exitTest := false }) (.fcn 0) 0xa8 32 32 + 1) % 2 ^ 32)) (.fcn 0) 0x88 2 true
    else raise (wb (setFcn d fun f => { f with lastTest := locNow d, exitTest := false }) (.fcn 0) 0x88 2 false) (.fcn 0) 2 :=
  if_neg (Nat.not_le.mpr h)

theorem fcnSelftestDue_true (h : d.fcn.exitTest = true ∨ d.fcn.lastTest + 100 * 65536000000 ≤ locNow d) : fcnSelftestDue d = true := by
  unfold fcnSelftestDue
  rcases h with h | h
  · rw [h, Bool.true_or]
  · rw [decide_eq_true h, Bool.or_true]

theorem fcnSelftestDue_false (h : d.fcn.exitTest = false) (ht : locNow d < d.fcn.lastTest + 100 * 65536000000) : fcnSelftestDue d = false := by
  unfold fcnSelftestDue
  rw [h, decide_eq_false (Nat.not_le.mpr ht), Bool.or_false]

/-! ### FCN_SRC_s -/

/-- The page that holds FCN_SRC_s. -/
def srcPage (n : Nat) : Page := .fcn (if n < 256 then 1 else 2)

theorem fcnSrcAt_eq (n : Nat) : fcnSrcAt n = (srcPage n, 0x800 + n % 256 * 8) := by
  unfold fcnSrcAt srcPage
  split <;> rfl

theorem regPut_fcnSrc {m : Master} (n : Fin 512) (v : W64) (h : Accepts d m (srcPage n.val)) :
    regPut mem d m (srcPage n.val) (0x800 + n.val % 256 * 8) v = fcnSrcWriteOp d n.val v := by
  have hn := n.isLt
  rw [regPut_accepts _ _ _ _ _ _ h (by omega) (.inr ⟨by omega, rfl⟩)]
  unfold regWrite srcPage
  refine (if_neg (by omega)).trans ?_
  dsimp only
  by_cases hs : n.val < 256
  · rw [if_pos hs]
    refine (if_neg fun hx => absurd hx.1 (by decide)).trans ((if_neg fun hx => absurd hx.1 (by decide)).trans
      ((if_pos ⟨.inl rfl, by omega⟩).trans ?_))
    exact congrArg (fcnSrcWriteOp d · v) (show (1 - 1) * 256 + (0x800 + n.val % 256 * 8 - 0x800) / 8 = n.val by omega)
  · rw [if_neg hs]
    refine (if_neg fun hx => absurd hx.1 (by decide)).trans ((if_neg fun hx => absurd hx.1 (by decide)).trans
      ((if_pos ⟨.inr rfl, by omega⟩).trans ?_))
    exact congrArg (fcnSrcWriteOp d · v) (show (2 - 1) * 256 + (0x800 + n.val % 256 * 8 - 0x800) / 8 = n.val by omega)

/-- What R412 forbids of a write of FCN_SRC_s, besides the lock of the page. -/
def srcRefuses (n : Nat) (old v : W64) : Bool :=
  bit old 15 || decide (4 < fld v 0 3) || decide (fld v 0 3 < fld old 12 3) || (bit v 6 && fld old 16 2 == 0) || (bit v 7 && fld old 16 2 != 2)
    || (bit v 8 && decide (fld v 0 3 < 3)) || n == 65

theorem fcnSrcWriteOp_of {n : Nat} (v : W64) (hs : (sourcePage n).isSome = true) (hl : locked d (srcPage n) = false) : fcnSrcWriteOp d n v =
    if srcRefuses n (rd d (srcPage n) (0x800 + n % 256 * 8)) v = true then invalidValue d (srcPage n)
    else writeFields d (srcPage n) (0x800 + n % 256 * 8) v := by
  have hn : ¬ (sourcePage n).isNone = true := by
    rw [Option.isNone_iff_eq_none]
    exact fun h => by rw [h] at hs; exact Bool.false_ne_true hs
  unfold fcnSrcWriteOp fcnSrc
  rw [fcnSrcAt_eq]
  exact (if_neg hn).trans (if_neg (by rw [hl]; exact Bool.false_ne_true))

theorem srcRefuses_true {n : Nat} {old v : W64} (h : bit old 15 = true ∨ 5 ≤ fld v 0 3 ∨ fld v 0 3 < fld old 12 3 ∨ bit v 6 = true ∧ fld old 16 2 = 0
    ∨ bit v 7 = true ∧ fld old 16 2 ≠ 2 ∨ bit v 8 = true ∧ fld v 0 3 < 3) : srcRefuses n old v = true := by
  simp only [srcRefuses, Bool.or_eq_true, Bool.and_eq_true, decide_eq_true_eq, beq_iff_eq, bne_iff_ne, ne_eq]
  rcases h with h | h | h | h | h | h
  · simp only [h, true_or]
  · simp only [show 4 < fld v 0 3 by omega, true_or, or_true]
  · simp only [h, true_or, or_true]
  · simp only [h, and_self, true_or, or_true]
  · simp only [h, not_false_eq_true, and_self, true_or, or_true]
  · simp only [h, and_self, true_or, or_true]

theorem srcRefuses_false {n : Nat} {old v : W64} (h15 : bit old 15 = false) (h65 : n ≠ 65) (h4 : fld v 0 3 ≤ 4) (hc : fld old 12 3 ≤ fld v 0 3)
    (h6 : bit v 6 = true → fld old 16 2 ≠ 0) (h7 : bit v 7 = true → fld old 16 2 = 2) (h8 : bit v 8 = true → 3 ≤ fld v 0 3) :
    srcRefuses n old v = false := by
  unfold srcRefuses
  rw [h15, decide_eq_false (Nat.not_lt.mpr h4), decide_eq_false (Nat.not_lt.mpr hc), beq_eq_false_iff_ne.mpr h65]
  have e6 : (bit v 6 && fld old 16 2 == 0) = false := by
    cases hb : bit v 6 with
    | false => rfl
    | true => rw [beq_eq_false_iff_ne.mpr (h6 hb)]; rfl
  have e7 : (bit v 7 && fld old 16 2 != 2) = false := by
    cases hb : bit v 7 with
    | false => rfl
    | true => rw [h7 hb]; rfl
  have e8 : (bit v 8 && decide (fld v 0 3 < 3)) = false := by
    cases hb : bit v 8 with
    | false => rfl
    | true => rw [decide_eq_false (Nat.not_lt.mpr (h8 hb))]; rfl
  rw [e6, e7, e8]
  rfl

end

/-- Settles O56: events by their sources, the assertion of the chip reset, FAULT_N, self-tests and FCN_SRC_s. -/
theorem faultCommandsAct : Obligations.FaultCommandsAct := by
  intro s t d pg
  have hd : devAt s.dev t = d := rfl
  clear_value d
  have hSup := fun r => hd ▸ lands_supplyOutOfWindow t r s
  have hTj := fun b => hd ▸ lands_tjThreshold t b s
  refine ⟨fun src p b h => lands_congr (hd ▸ lands_faultEvent t src s) (faultEventOp_of h), hSup _, hSup _, hSup _, hSup _, hSup _, hSup _,
    hTj false, hTj true, fun h => lands_congr (hd ▸ lands_chipResetAssert t s) (chipResetAssertOp_none h), fun x hx => ?_, fun x hx => ?_,
    fun m v hm => ?_, fun hp => ?_, fun m src v => ?_⟩
  · have hC := lands_congr (hd ▸ lands_chipResetAssert t s) (chipResetAssertOp_of hx)
    refine ⟨fun h => lands_congr hC (if_pos (.inl h)), fun hi h hs => lands_congr hC (if_pos (.inr ⟨hi, h, sealOpen_iff.mpr hs⟩)),
      fun h hs => lands_congr hC (if_neg (not_or.mpr ⟨Nat.not_lt.mpr h, fun ⟨hi, h5, hw⟩ => ?_⟩))⟩
    rcases hs with hs | hs | ⟨hn, he⟩
    · exact Bool.false_ne_true (hs.symm.trans hi)
    · exact Nat.not_lt.mpr hs h5
    · exact (sealOpen_iff.mp hw).elim (fun h => h hn) fun h => h he
  · have hM := lands_congr (hd ▸ lands_faultnMinEnd t s) (faultMinOp_of hx)
    refine ⟨fun h => lands_congr hM (if_pos h), fun h hr => lands_congr hM ((if_neg (Nat.not_lt.mpr h)).trans (if_neg fun hb => ?_)),
      fun h hr hs => lands_congr hM ((if_neg (Nat.not_lt.mpr h)).trans (if_pos ⟨hr, by rw [hs]; rfl⟩))⟩
    exact Bool.false_ne_true (hr.symm.trans hb.1)
  · have hR := fun h1 : bit v 1 = false => lands_congr (hd ▸ lands_faultnRelease t m v s) ((regPut_faultn (setBit v 0 true) hm).trans
      (faultnOp_release hm.live ((bit_setBit_other v true (by decide)).trans h1) (bit_setBit_same v 0 true (by decide))))
    refine ⟨lands_congr (hd ▸ lands_faultnAssert t m v s) ((regPut_faultn (setBit v 1 true) hm).trans
      (if_pos (bit_setBit_same v 1 true (by decide)))), fun h1 hl hh => ?_, fun h1 hl => lands_congr (hR h1) (if_pos (.inl (by rw [hl]; rfl)))⟩
    have hL := lands_congr (hR h1) (if_neg (show ¬((!fcnLocked d) = true ∨ (!d.fcn.held) = true) by rw [hl, hh]; decide))
    exact ⟨fun hn => lands_congr hL (if_neg (by rw [hn]; exact Bool.false_ne_true)),
      fun hn => lands_congr hL (if_pos (Option.isSome_iff_ne_none.mpr hn))⟩
  · intro e pass fail
    have hT := fun ok => hd ▸ lands_fcnSelftest t ok s
    have hPass := (fcnSelftestOp_awake true hp).trans (if_pos rfl)
    have hFail := (fcnSelftestOp_awake false hp).trans (if_neg Bool.false_ne_true)
    refine ⟨fun h => ?_, fun h ht ok => lands_congr (hT ok) (if_neg (by rw [fcnSelftestDue_false h ht]; exact Bool.false_ne_true)), fun m hm => ?_⟩
    · have hdue := fcnSelftestDue_true h
      exact ⟨lands_congr (hT true) ((if_pos hdue).trans hPass), lands_congr (hT false) ((if_pos hdue).trans hFail)⟩
    · have hg := fun ok => guardedAt_accepts (fun d => fcnSelftestOp d ok) hm (off := 0xa8) (by decide) (by decide)
      exact ⟨lands_congr (hd ▸ lands_fcnSelftestNow t m true s) ((hg true).trans hPass),
        lands_congr (hd ▸ lands_fcnSelftestNow t m false s) ((hg false).trans hFail)⟩
  · intro p off old scope hm hl hs
    have hS := lands_congr (hd ▸ lands_fcnSrcWrite t m src v s) ((regPut_fcnSrc src v hm).trans (fcnSrcWriteOp_of v hs hl))
    exact ⟨fun h => lands_congr hS (if_pos (srcRefuses_true h)), fun h15 h65 h4 hc h6 h7 h8 =>
      lands_congr hS (if_neg fun hr => Bool.false_ne_true ((srcRefuses_false h15 h65 h4 hc h6 h7 h8).symm.trans hr))⟩

end Sys2Proof.Machine
end

section
/-! PROOF. Debug sessions and the test access port (spec ch. 16). -/

namespace Sys2Proof.Machine
open Safety

section
variable {mem : List Host.Cell} {d : Dev}

/-! ### The mailbox commands -/

theorem dbgChallengeOp_drawn {ch : Nat} {l : List Byte} {e : Dev} (hp : privileged d ch 2 = true) (h : Served d ch 0x30 [])
    (hc : challengeOp (opened d ch) = (some l, e)) : dbgChallengeOp d ch = mboxReply e ch 0 l := by
  unfold dbgChallengeOp
  rw [mboxStart_served h (some 2) (fun b hb => by cases hb; exact hp) _ rfl, hc]

theorem dbgChallengeOp_stopped {ch : Nat} {e : Dev} (hp : privileged d ch 2 = true) (h : Served d ch 0x30 [])
    (hc : challengeOp (opened d ch) = (none, e)) : dbgChallengeOp d ch = mboxReply e ch 6 [] := by
  unfold dbgChallengeOp
  rw [mboxStart_served h (some 2) (fun b hb => by cases hb; exact hp) _ rfl, hc]

theorem dbgUnlockOp_close {ch : Nat} (hp : privileged d ch 2 = true) (h : Served d ch 0x31 []) :
    dbgUnlockOp d ch = mboxReply (sessionClose (opened d ch) 1) ch 0 [] := by
  unfold dbgUnlockOp
  rw [mboxStart_served h (some 2) (fun b hb => by cases hb; exact hp) _ rfl]
  dsimp only
  rw [if_pos rfl]

theorem dbgUnlockOp_token {ch : Nat} {p : List Byte} {r : Nat} {e : Dev} (hp : privileged d ch 2 = true) (h : Served d ch 0x31 p)
    (hl : p.length = 256) (hr : tokenOp (opened d ch) p ch = (r, e)) : dbgUnlockOp d ch = mboxReply e ch (special r) [] := by
  have hn : p ≠ [] := fun h0 => absurd hl (by rw [h0]; decide)
  unfold dbgUnlockOp
  rw [mboxStart_served h (some 2) (fun b hb => by cases hb; exact hp) _ (by simpa using .inr hl)]
  dsimp only
  rw [if_neg hn, hr]

theorem tokenOp_accepted {p : List Byte} {path : Nat} (h : tokenResult d p = 0) : tokenOp d p path = (0, sessionOpen d p path) := by
  unfold tokenOp
  rw [h]
  rfl

theorem tokenOp_rejected {p : List Byte} {path : Nat} (h : tokenResult d p ≠ 0) :
    tokenOp d p path = (tokenResult d p, tokenReject d p path (tokenResult d p)) := by
  unfold tokenOp
  dsimp only
  rw [if_neg h]

/-! ### The end of a session, of a nonce and of a lockout -/

theorem regBits_dbgClose {m : Master} (h : Accepts d m .dbg) : regBits mem d m .dbg 0x90 1 0 = sessionClose (rewritten d .dbg 0x90) 1 := by
  have hf : writeFields d .dbg 0x90 (((rd d .dbg 0x90 &&& keepBits .dbg 0x90) ||| 1) &&& ~~~0) = rewritten d .dbg 0x90 :=
    writeFields_act _ _ _ _ _ rfl (by decide)
  have hb : bit (((rd d .dbg 0x90 &&& keepBits .dbg 0x90) ||| 1) &&& ~~~0) 0 = true := by
    rw [bit_act]
    exact Bool.or_true _
  rw [regBits_set mem d m .dbg 0x90 1 h (by decide) (.inl (by decide))]
  unfold regWrite
  refine (if_neg (by decide)).trans ((if_pos rfl).trans ?_)
  dsimp only
  rw [if_pos hb, hf]
  rfl

theorem dbgLevel_rewritten (d : Dev) : dbgLevel (rewritten d .dbg 0x90) = dbgLevel d := by
  unfold dbgLevel rf rewritten
  rw [rd_wr_off _ _ _ (by decide)]

theorem lockoutEndOp_of {x : Nat} (h : d.dbg.lockAt = some x) : lockoutEndOp d =
    if x + 60 * secUnits ≤ locNow d then setDbg (wb d .dbg 0x80 9 false) fun y => { y with lockAt := none } else d := by
  unfold lockoutEndOp
  rw [h]

/-! ### The TAP in P5, and where it serves BYPASS only -/

theorem mayDrive_off (h : tapOff d = true) : mayDrive d = false := by
  unfold mayDrive
  rw [h]
  exact Bool.and_false _

theorem bypassOp_off (h : tapOff d = true) : bypassOp d = d := if_pos h

theorem bypassOp_on (h : tapOff d = false) : bypassOp d = emit (tapLoad d 0) (.tdo [0]) := if_neg (by rw [h]; exact Bool.false_ne_true)

theorem extestOp_bypass (b : List Bool) (h : mayDrive d = false) : extestOp d b = bypassOp d := if_neg (by rw [h]; exact Bool.false_ne_true)

theorem clampOp_bypass (h : mayDrive d = false) : clampOp d = bypassOp d := if_neg (by rw [h]; exact Bool.false_ne_true)

theorem sampleOp_bypass (b : List Bool) (h : scrap d = true ∨ tapOff d = true) : sampleOp d b = bypassOp d := if_pos h

theorem tapTokenOp_bypass (o : List Byte) (h : scrap d = true ∨ tapOff d = true) : tapTokenOp d o = bypassOp d := if_pos h

theorem tapCloseOp_bypass (h : scrap d = true ∨ tapAsleep d = true ∨ tapOff d = true) : tapCloseOp d = bypassOp d := if_pos h

theorem dbgChalOp_bypass (h : scrap d = true ∨ tapOff d = true) : dbgChalOp d = bypassOp d := if_pos h

theorem dmiOp_bypass (r : DmiReq) (h : scrap d = true ∨ tapOff d = true) : dmiOp mem d r = bypassOp d := if_pos h

/-! ### The TAP in service -/

theorem dmiWakes_awake (h : tapAsleep d = false) : dmiWakes d = false := by
  obtain ⟨-, hp⟩ := Bool.or_eq_false_iff.mp h
  unfold dmiWakes
  rw [hp]
  rfl

section
variable (ho : tapOff d = false) (hs : scrap d = false)
include ho hs

/-- The TAP is powered and not scrapped. -/
theorem tapServes : ¬(scrap d = true ∨ tapOff d = true) := by
  rw [ho, hs]
  decide

theorem sampleOp_serves (b : List Bool) : sampleOp d b = bsrOut (setDbg d fun x => { x with drive := 0, bsr := b }) b :=
  if_neg (tapServes ho hs)

theorem tapTokenOp_asleep (o : List Byte) (h : tapAsleep d = true) : tapTokenOp d o = emit (tapLoad d 0) (.tdo [0xFE]) :=
  (if_neg (tapServes ho hs)).trans (if_pos h)

theorem tapTokenOp_awake (o : List Byte) (h : tapAsleep d = false) (hf : firmwareRuns d = true) : tapTokenOp d o =
    emit (tokenOp (tapLoad d 0) (fitLen 256 o) 4).2 (.tdo (leBytes 1 (tokenOp (tapLoad d 0) (fitLen 256 o) 4).1)) :=
  (if_neg (tapServes ho hs)).trans ((if_neg (by rw [h]; exact Bool.false_ne_true)).trans (if_neg (by rw [hf]; exact Bool.false_ne_true)))

theorem tapCloseOp_awake (h : tapAsleep d = false) : tapCloseOp d = emit (tapLoad (sessionClose d 1) 0) (.tdo [0]) :=
  if_neg (by rw [ho, hs, h]; decide)

theorem dbgChalOp_awake (h : tapAsleep d = false) (hf : firmwareRuns d = true) : dbgChalOp d = tapChallenge (tapLoad d 0) :=
  (if_neg (tapServes ho hs)).trans ((if_neg (by rw [dmiWakes_awake h]; exact Bool.false_ne_true)).trans
    ((if_neg (by rw [h]; exact Bool.false_ne_true)).trans (if_neg (by rw [hf]; exact Bool.false_ne_true))))

theorem dmiOp_wakes (r : DmiReq) (h : dmiWakes d = true) : dmiOp mem d r = dmiWait (tapLoad d 0) (some r) :=
  (if_neg (tapServes ho hs)).trans (if_pos h)

theorem dmiOp_awake (r : DmiReq) (h : tapAsleep d = false) : dmiOp mem d r = dmiNow mem (tapLoad d 0) r :=
  (if_neg (tapServes ho hs)).trans (if_neg (by rw [dmiWakes_awake h]; exact Bool.false_ne_true))

end

/-! ### What DMI answers by the level of the session (Table 16.1) -/

theorem mayInvade_level {core : Nat} (h : dbgLevel d ≠ 2) : mayInvade d core = false := by
  unfold mayInvade
  rw [beq_eq_false_iff_ne.mpr h]
  rfl

theorem dmiNow_closed (r : DmiReq) (h : dbgLevel d = 0) : dmiNow mem d r = emit d (.tdo []) := by
  cases r with
  | trace => exact if_pos h
  | readCore c => exact if_pos h
  | readReg a => exact if_pos h
  | writeReg a v => exact if_neg (by rw [h]; decide)
  | invasive core => exact if_neg (by rw [mayInvade_level (by rw [h]; decide)]; exact Bool.false_ne_true)

theorem dmiNow_readReg (a : Nat) (h : dbgLevel d ≠ 0) :
    dmiNow mem d (.readReg a) = emit (readOp mem d .debug a 3).2 (.tdo (wordBytes (readOp mem d .debug a 3).1)) := if_neg h

theorem dmiNow_readCore (c : Fin 7) (h : dbgLevel d ≠ 0) :
    dmiNow mem d (.readCore c) = emit (freeNat d).2 (.tdo (leBytes 8 (freeNat d).1)) := if_neg h

theorem dmiNow_trace (h : dbgLevel d ≠ 0) : dmiNow mem d .trace = emit (freeNat d).2 (.tdo (leBytes 8 (freeNat d).1)) := if_neg h

end

/-- Settles O57: challenge, unlock and close; ends by time; the instructions of the TAP by power, life cycle, sleep and session. -/
theorem debugCommandsAct : Obligations.DebugCommandsAct := by
  intro s t d
  have hd : devAt s.dev t = d := rfl
  clear_value d
  intro e skip
  have hBy := hd ▸ lands_bypass t s
  have hId := hd ▸ lands_idcode t s
  have hCl := hd ▸ lands_clamp t s
  have hEx := fun b => hd ▸ lands_extest t b s
  have hSa := fun b => hd ▸ lands_samplePreload t b s
  have hCh := hd ▸ lands_dbgChal t s
  have hTo := fun o => hd ▸ lands_dbgToken t o s
  have hDc := hd ▸ lands_dbgClose t s
  have hDm := fun r => hd ▸ lands_dmi t r s
  refine ⟨fun ch hp => ?_, fun m hm => ?_, fun h0 hx hu => ?_, fun h => lands_congr (hd ▸ lands_dbgNonceExpiry t s) (if_pos h),
    fun h => lands_congr (hd ▸ lands_dbgNonceExpiry t s) (if_neg (Nat.not_le.mpr h)), fun x hx => ?_, fun ho => ?_, fun ho => ?_⟩
  · have hC := hd ▸ lands_dbgChallenge t ch s
    have hU := hd ▸ lands_dbgUnlock t ch s
    refine ⟨fun h => ⟨fun l e hc => lands_congr hC (dbgChallengeOp_drawn hp h hc), fun e hc => lands_congr hC (dbgChallengeOp_stopped hp h hc)⟩,
      fun h => lands_congr hU (dbgUnlockOp_close hp h), fun p h hl => ⟨fun hr => ?_, fun hr => ?_⟩⟩
    · have hE := dbgUnlockOp_token hp h hl (tokenOp_accepted hr)
      rw [show special 0 = 0 from if_pos rfl] at hE
      exact lands_congr hU hE
    · have hE := dbgUnlockOp_token hp h hl (tokenOp_rejected hr)
      rw [show special (tokenResult (opened d ch.val) p) = 0x100 + tokenResult (opened d ch.val) p from if_neg hr] at hE
      exact lands_congr hU hE
  · have hC := lands_congr (hd ▸ lands_dbgCtrlClose t m s) (regBits_dbgClose hm)
    intro w
    have hw : dbgLevel w = dbgLevel d := dbgLevel_rewritten d
    exact ⟨fun h => lands_congr hC (if_pos (hw.trans h)), fun h => lands_congr hC (if_neg (by rw [hw]; exact h))⟩
  · have hS := hd ▸ lands_dbgSessionExpiry t s
    exact ⟨fun h => lands_congr hS (if_pos ⟨h0, hx, h, hu⟩), fun h => lands_congr hS (if_neg fun hb => absurd hb.2.2.1 (Nat.not_le.mpr h))⟩
  · have hL := lands_congr (hd ▸ lands_dbgLockoutEnd t s) (lockoutEndOp_of hx)
    exact ⟨fun h => lands_congr hL (if_pos h), fun h => lands_congr hL (if_neg (Nat.not_le.mpr h))⟩
  · have hb := bypassOp_off ho
    have hm := mayDrive_off ho
    exact ⟨lands_congr hBy hb, lands_congr hId (if_pos ho), lands_congr hCl ((clampOp_bypass hm).trans hb),
      lands_congr hCh ((dbgChalOp_bypass (.inr ho)).trans hb), lands_congr hDc ((tapCloseOp_bypass (.inr (.inr ho))).trans hb),
      fun b => ⟨lands_congr (hEx b) ((extestOp_bypass b hm).trans hb), lands_congr (hSa b) ((sampleOp_bypass b (.inr ho)).trans hb)⟩,
      fun o => lands_congr (hTo o) ((tapTokenOp_bypass o (.inr ho)).trans hb), fun r => lands_congr (hDm r) ((dmiOp_bypass r (.inr ho)).trans hb)⟩
  · have hb := bypassOp_on ho
    refine ⟨lands_congr hBy hb, lands_congr hId (if_neg (by rw [ho]; exact Bool.false_ne_true)),
      fun h => ⟨fun b => lands_congr (hEx b) (if_pos h), lands_congr hCl (if_pos h)⟩,
      fun h => ⟨fun b => lands_congr (hEx b) ((extestOp_bypass b h).trans hb), lands_congr hCl ((clampOp_bypass h).trans hb)⟩, fun hs => ?_, fun hs => ?_⟩
    · exact ⟨fun r => lands_congr (hDm r) ((dmiOp_bypass r (.inl hs)).trans hb), fun b => lands_congr (hSa b) ((sampleOp_bypass b (.inl hs)).trans hb),
        lands_congr hCh ((dbgChalOp_bypass (.inl hs)).trans hb), fun o => lands_congr (hTo o) ((tapTokenOp_bypass o (.inl hs)).trans hb),
        lands_congr hDc ((tapCloseOp_bypass (.inl hs)).trans hb)⟩
    · refine ⟨fun b => lands_congr (hSa b) (sampleOp_serves ho hs b), fun ha => ⟨fun o => lands_congr (hTo o) (tapTokenOp_asleep ho hs o ha),
          lands_congr hDc ((tapCloseOp_bypass (.inr (.inl ha))).trans hb)⟩, fun ha => ?_, fun hw r => lands_congr (hDm r) (dmiOp_wakes ho hs r hw)⟩
      have hNow := fun r => lands_congr (hDm r) (dmiOp_awake ho hs r ha)
      refine ⟨lands_congr hDc (tapCloseOp_awake ho hs ha), fun hf => ⟨lands_congr hCh (dbgChalOp_awake ho hs ha hf), fun o => ?_⟩,
        fun h r => lands_congr (hNow r) (dmiNow_closed (d := e) r h), fun h => ?_, fun h => ?_⟩
      · have hT := lands_congr (hTo o) (tapTokenOp_awake ho hs o ha hf)
        intro r
        refine ⟨fun h => ?_, fun h => ?_⟩
        · rw [tokenOp_accepted (d := tapLoad d 0) h] at hT
          exact hT
        · rw [tokenOp_rejected (d := tapLoad d 0) h] at hT
          exact hT
      · exact ⟨fun a => lands_congr (hNow _) (dmiNow_readReg (d := e) a h), fun c => lands_congr (hNow _) (dmiNow_readCore (d := e) c h),
          lands_congr (hNow _) (dmiNow_trace (d := e) h)⟩
      · exact ⟨fun a v => lands_congr (hNow _) (if_pos h), fun c => ⟨fun hi => lands_congr (hNow _) (if_pos hi),
          fun hi => lands_congr (hNow _) (if_neg fun hx => Bool.false_ne_true (hi.symm.trans hx))⟩⟩

end Sys2Proof.Machine
end

section
/-! PROOF. The redundant pair: the claim bus, heartbeats, digests, self-tests, status and yield (spec ch. 17). -/

namespace Sys2Proof.Machine
open Safety

/-! ### What keeps the yield and PAIR_VIEW -/

/-- The yield under way and PAIR_VIEW are the same. -/
structure ViewKept (d e : Dev) : Prop where
  yield : e.pair.yield = d.pair.yield
  view : rd e (.pair 1) 0x80 = rd d (.pair 1) 0x80

namespace ViewKept

variable {d e f : Dev}

theorem refl (d : Dev) : ViewKept d d := ⟨rfl, rfl⟩

theorem trans (h : ViewKept d e) (g : ViewKept e f) : ViewKept d f := ⟨g.yield.trans h.yield, g.view.trans h.view⟩

theorem same (hp : e.pair.yield = d.pair.yield) (hr : e.regs = d.regs) : ViewKept d e := ⟨hp, rd_of_regs hr _ _⟩

theorem regs (h : ViewKept d e) (hp : f.pair.yield = e.pair.yield) (hr : f.regs = e.regs) : ViewKept d f := h.trans (same hp hr)

theorem wr (h : ViewKept d e) {pg : Page} {off : Nat} (v : W64) (hf : pg.base + off ≠ (Page.pair 1).base + 0x80) :
    ViewKept d (wr e pg off v) :=
  h.trans ⟨rfl, rd_wr_far e v hf⟩

theorem wf (h : ViewKept d e) {pg : Page} {off lo len x : Nat} (hf : pg.base + off ≠ (Page.pair 1).base + 0x80) :
    ViewKept d (wf e pg off lo len x) := h.wr _ hf

theorem wb (h : ViewKept d e) {pg : Page} {off i : Nat} {b : Bool} (hf : pg.base + off ≠ (Page.pair 1).base + 0x80) :
    ViewKept d (wb e pg off i b) := h.wr _ hf

theorem cnt (h : ViewKept d e) {pg : Page} {off n : Nat} (hf : pg.base + off ≠ (Page.pair 1).base + 0x80) :
    ViewKept d (cnt e pg off n) := h.wr _ hf

theorem irq (h : ViewKept d e) {pg : Page} {b : Nat} (hf : pg.base + 0x20 ≠ (Page.pair 1).base + 0x80) : ViewKept d (irq e pg b) :=
  h.trans ⟨congrArg PairSt.yield (irq_rest e pg b).2.1, rd_irq_far e b hf⟩

theorem ite (c : Prop) [Decidable c] (h : ViewKept d e) (g : ViewKept d f) : ViewKept d (if c then e else f) := by split <;> assumption

theorem foldl {α : Type} {g : Dev → α → Dev} (h : ∀ d x, ViewKept d (g d x)) (l : List α) : ∀ d, ViewKept d (l.foldl g d) := by
  induction l with
  | nil => exact refl
  | cons x l ih => exact fun d => (h d x).trans (ih _)

/-- No register of a port's page is PAIR_VIEW. -/
theorem port_far (p : Nat) {off : Nat} (h : off < 0x1000) : (tsPage p).base + off ≠ (Page.pair 1).base + 0x80 := by
  have hp := (portFin p).isLt
  show 0x00200000 + (portFin p).val * 0x4000 + 2 * 0x1000 + off ≠ 0x00530000 + 1 * 0x1000 + 0x80
  omega

theorem cbsOne (d : Dev) (p t : Nat) : ViewKept d (cbsOne d p t) := by
  unfold Machine.cbsOne
  rcases cbsCfg d p t with ⟨en, idle, hi⟩
  exact ite _ (same rfl rfl) (same rfl rfl)

theorem cbsSync (d : Dev) (p : Nat) : ViewKept d (cbsSync d p) := ite _ (foldl (fun d t => cbsOne d p t) _ d) (refl d)

theorem tsqPut (d : Dev) (p : Nat) (w0 w1 : W64) : ViewKept d (tsqPut d p w0 w1) := by
  unfold Machine.tsqPut
  dsimp only
  refine ite _ ?_ ?_
  · exact (((refl d).cnt (port_far p (by decide))).wb (port_far p (by decide))).irq (port_far p (by decide))
  · refine ViewKept.irq (ViewKept.wf ?_ (port_far p (by decide))) (port_far p (by decide))
    exact (refl d).regs rfl rfl

theorem freeCopy (d : Dev) (c : Copy) : ViewKept d (freeCopy d c) := by
  have hd : ViewKept d (dropEntry d c) := by
    unfold dropEntry tsqEntry
    cases c.tsId with
    | none => exact refl d
    | some i => exact ite _ (tsqPut ..) (refl d)
  unfold Machine.freeCopy emptied
  exact hd.trans (ite _ (refl _) (same rfl rfl))

theorem gatesClose (d : Dev) : ViewKept d (gatesClose d) := by
  refine foldl (fun d i => ?_) _ d
  dsimp only
  cases kvGet d.tx (20 + i) with
  | none => exact refl d
  | some f =>
    refine ViewKept.trans ?_ (freeCopy _ _)
    exact (cbsSync d (20 + i)).regs rfl rfl

end ViewKept

section
variable {mem : List Host.Cell} {d : Dev}

/-! ### Rounds of the claim bus -/

theorem roundStartOp_absent (h : d.pair.strapEn = false) : roundStartOp d = d := if_pos (.inl (by rw [h]; rfl))

/-- Whether a round may begin: bit 11 of the last one has ended, as either unit's clock has it. -/
def roundPast (d : Dev) : Option Instant → Bool
  | none => false
  | some x => decide (d.now + 10 < x + 12 * claimBit)

theorem roundStartOp_eq (h : d.pair.strapEn = true) : roundStartOp d = if roundPast d d.pair.roundAt = true then d
    else
      let e := setPair d fun p => { p with round := some d.now, roundAt := some d.now, number := claimNumber d }
      if claimNumber d = 0 then e else emit e (.claim [true]) := by
  unfold roundStartOp
  rw [h]
  cases d.pair.roundAt with
  | none => rfl
  | some x => exact ite_congr (propext ⟨fun h => h.resolve_left Bool.false_ne_true, .inr⟩) (fun _ => rfl) fun _ => rfl

theorem roundPast_false (h : ∀ x, d.pair.roundAt = some x → x + 12 * claimBit ≤ d.now + 10) : roundPast d d.pair.roundAt = false := by
  cases hx : d.pair.roundAt with
  | none => rfl
  | some x => exact decide_eq_false (Nat.not_lt.mpr (h x hx))

theorem roundPast_true {x : Instant} (h : d.pair.roundAt = some x) (hx : d.now + 10 < x + 12 * claimBit) : roundPast d d.pair.roundAt = true := by
  rw [h]
  exact decide_eq_true hx

/-- The device with the outcome of a round shown. -/
def roundShown (d : Dev) (n : Nat) (drove : List Bool) (win : Bool) : Dev :=
  cnt (wb (setPair (if n = 0 then d else emit d (.claim drove)) fun p => { p with round := none }) (.pair 0) 0xc0 0 win) (.pair 0) 0x100 1

/-- What a win or a loss that changes HOLDING leaves. -/
def roundJudged (d f : Dev) (win : Bool) : Dev :=
  let g := if win && d.pair.takeover && !holding d then cnt f (.pair 0) 0x120 1 else f
  let h := if win ≠ holding d then pairRecord (irq g (.pair 0) 0) (if win then 1 else if yielded d then 3 else 2) 0 else g
  if holding d ∧ !win then gatesClose h else h

theorem roundEndOp_early {bus : List Bool} {x : Instant} (h : d.pair.round = some x) (hx : d.now < x + 9 * claimBit) : roundEndOp d bus = d := by
  unfold roundEndOp
  rw [h]
  exact if_pos (.inr (by dsimp only; rw [decide_eq_false (Nat.not_le.mpr hx)]; rfl))

theorem roundEndOp_done {bus drove : List Bool} {lost : Bool} {n : Nat} {x : Instant} (hs : d.pair.strapEn = true) (h : d.pair.round = some x)
    (hx : x + 9 * claimBit ≤ d.now) (hn : (if claimNumber d = 0 then 0 else d.pair.number) = n)
    (ha : arbitrate n bus 8 false false = (drove, lost, false)) {win : Bool} (hw : (n != 0 && !lost) = win) :
    roundEndOp d bus = viewRound (yieldRound (roundJudged d (roundShown d n drove win) win) (!win && bus.any id)) := by
  unfold roundEndOp
  rw [h, hs]
  dsimp only
  rw [decide_eq_true hx, if_neg (by decide), hn, ha]
  dsimp only
  rw [Bool.not_false, Bool.and_true, hw]
  rfl

theorem roundShown_kept (d : Dev) (n : Nat) (drove : List Bool) (win : Bool) : ViewKept d (roundShown d n drove win) := by
  unfold roundShown
  have h0 : ViewKept d (if n = 0 then d else emit d (.claim drove)) := .ite _ (.refl d) (.same rfl rfl)
  refine ViewKept.cnt (ViewKept.wb ?_ (by decide)) (by decide)
  exact h0.regs rfl rfl

theorem roundJudged_kept {d f : Dev} (h : ViewKept d f) (win : Bool) : ViewKept d (roundJudged d f win) := by
  unfold roundJudged
  have hg : ViewKept d (if win && d.pair.takeover && !holding d then cnt f (.pair 0) 0x120 1 else f) := .ite _ (h.cnt (by decide)) h
  generalize (if win && d.pair.takeover && !holding d then cnt f (.pair 0) 0x120 1 else f) = g at hg
  have hr : ∀ n, ViewKept d (pairRecord (irq g (.pair 0) 0) n 0) := fun n => (hg.irq (by decide)).regs rfl rfl
  have hh := ViewKept.ite (win ≠ holding d) (hr (if win then 1 else if yielded d then 3 else 2)) hg
  exact .ite _ (hh.trans (.gatesClose _)) hh

/-- A round ends quietly where no yield is under way and no HOLDING expected. -/
theorem roundClosed_quiet {e : Dev} (h : ViewKept d e) (hy : d.pair.yield = none) (hv : rf d (.pair 1) 0x80 0 2 = 0) (b : Bool) :
    viewRound (yieldRound e b) = setPair e fun p => { p with views := 0 } := by
  have h1 : yieldRound e b = e := by
    unfold yieldRound
    rw [h.yield, hy]
  have h2 : rf e (.pair 1) 0x80 0 2 = 0 := by
    unfold rf at hv ⊢
    rw [h.view]
    exact hv
  rw [h1]
  unfold viewRound
  dsimp only
  rw [h2]
  exact if_pos (by simp)

theorem roundJudged_same {f : Dev} {win : Bool} (h : win = holding d) : roundJudged d f win = f := by
  unfold roundJudged
  rw [← h]
  cases win <;> simp

theorem roundJudged_won {f : Dev} (h : holding d = false) :
    roundJudged d f true = pairRecord (irq (if d.pair.takeover then cnt f (.pair 0) 0x120 1 else f) (.pair 0) 0) 1 0 := by
  unfold roundJudged
  rw [h]
  cases d.pair.takeover <;> rfl

theorem roundJudged_lost {f : Dev} (h : holding d = true) (hy : d.pair.yield = none) :
    roundJudged d f false = gatesClose (pairRecord (irq f (.pair 0) 0) 2 0) := by
  have hn : yielded d = false := by
    unfold yielded
    rw [hy]
  unfold roundJudged
  rw [h, hn]
  rfl

/-! ### Heartbeats -/

theorem regPut_pairKick {m : Master} (h : Accepts d m (.pair 0)) : regPut mem d m (.pair 0) 0x90 1 = pairKickOp d := by
  rw [regPut_accepts _ _ _ _ _ _ h (by decide) (.inl (by decide))]
  unfold regWrite
  exact (if_neg (by decide)).trans rfl

theorem regPut_offline {m : Master} (h : Accepts d m (.pair 0)) : regPut mem d m (.pair 0) 0x98 1 = offlineStart d := by
  rw [regPut_accepts _ _ _ _ _ _ h (by decide) (.inl (by decide))]
  unfold regWrite
  exact (if_neg (by decide)).trans rfl

/-- Whether 20 µs have passed since the last heartbeat instant. -/
def hbDue (d : Dev) : Option Instant → Bool
  | some x => decide (x + hbTicks ≤ d.now)
  | none => true

/-- Whether a kick is not older than 20 µs. -/
def hbKicked (d : Dev) : Option Instant → Bool
  | some x => decide (d.now ≤ x + hbTicks)
  | none => false

/-- The device at a heartbeat instant. -/
def hbNoted (d : Dev) : Dev := setPair d fun p => { p with sentAt := some d.now }

/-- The heartbeat that a device sends with a key. -/
def hbSent (f : Dev) (key : List Byte) : Dev :=
  let l := hbPayload f (f.pair.seq + 1)
  let l1 := l ++ gmac key (hbIv l) l
  hbFrame (emit (setPair f fun p => { p with seq := f.pair.seq + 1 }) (.heartbeat 0 l1)) l1

/-- What a device that is kicked sends, where it can use its key. -/
def hbKeyed : Option (List Byte) × Dev → Dev
  | (none, e) => e
  | (some key, e) => hbSent e key

theorem hbSendOp_early {x : Instant} (h : d.pair.sentAt = some x) (hx : d.now < x + hbTicks) : hbSendOp d = d := by
  unfold hbSendOp
  rw [h]
  exact if_pos (.inr (.inr (.inl (show (!decide (x + hbTicks ≤ d.now)) = true by rw [decide_eq_false (Nat.not_le.mpr hx)]; rfl))))

theorem hbSendOp_due (ho : pairOn d = true) (hu : domUp d 2 = true) (he : d.pwr.entry = none) (hs : d.fcn.safe = false)
    (hd : hbDue d d.pair.sentAt = true) :
    hbSendOp d = if hbKicked d d.pair.kickAt = true then hbKeyed (pairKey (hbNoted d) 2) else hbNoted d := by
  unfold hbSendOp
  refine (if_neg (show ¬((!pairOn d) = true ∨ (!domUp d 2) = true ∨ (!hbDue d d.pair.sentAt) = true ∨ d.pwr.entry.isSome = true
    ∨ d.fcn.safe = true) by rw [ho, hu, he, hs, hd]; decide)).trans ?_
  cases hk : hbKicked d d.pair.kickAt with
  | false =>
    exact (if_pos (show (!hbKicked d d.pair.kickAt) = true by rw [hk]; rfl)).trans (if_neg Bool.false_ne_true).symm
  | true =>
    refine (if_neg (show ¬(!hbKicked d d.pair.kickAt) = true by rw [hk]; decide)).trans (Eq.trans ?_ (if_pos rfl).symm)
    unfold hbNoted
    generalize pairKey (setPair d fun p => { p with sentAt := some d.now }) 2 = q
    rcases q with ⟨_ | key, e⟩ <;> rfl

/-- A heartbeat of an authentic key that arrives on a path. -/
structure HbHeard (d e : Dev) (key l : List Byte) : Prop where
  on : pairOn d = true
  up : domUp d 2 = true
  full : l.length = 64
  key : pairKey d 3 = (some key, e)

theorem hbRxOp_short (ho : pairOn d = true) (hu : domUp d 2 = true) (path : Nat) {l : List Byte} (h : l.length ≠ 64) :
    hbRxOp d path l = cnt d (.pair 0) 0x108 1 := by
  unfold hbRxOp
  exact (if_neg (by rw [ho, hu]; decide)).trans (if_pos h)

theorem hbRxOp_keyless (ho : pairOn d = true) (hu : domUp d 2 = true) (path : Nat) {l : List Byte} (h : l.length = 64) {e : Dev}
    (hk : pairKey d 3 = (none, e)) : hbRxOp d path l = cnt e (.pair 0) 0x108 1 := by
  unfold hbRxOp
  refine (if_neg (by rw [ho, hu]; decide)).trans ((if_neg (not_not.mpr h)).trans ?_)
  rw [hk]
  rfl

theorem hbRxOp_forged {e : Dev} {key l : List Byte} (h : HbHeard d e key l) (path : Nat) (hg : gmac key (hbIv l) (l.take 48) ≠ l.drop 48) :
    hbRxOp d path l = cnt e (.pair 0) 0x108 1 := by
  unfold hbRxOp
  refine (if_neg (by rw [h.on, h.up]; decide)).trans ((if_neg (not_not.mpr h.full)).trans ?_)
  rw [h.key]
  exact if_pos (.inl hg)

theorem hbRxOp_replayed {e : Dev} {key l : List Byte} (h : HbHeard d e key l) {path x : Nat} (he : e.pair.partner = some (leNat (slice l 8 4)))
    (hs : kvGet e.pair.seqs path = some x) (hx : leNat (slice l 12 4) ≤ x) : hbRxOp d path l = cnt e (.pair 0) 0x108 1 := by
  unfold hbRxOp
  refine (if_neg (by rw [h.on, h.up]; decide)).trans ((if_neg (not_not.mpr h.full)).trans ?_)
  rw [h.key]
  dsimp only
  rw [hs, he, beq_self_eq_true]
  exact if_pos (.inr (.inl ⟨rfl, show (!decide (x < leNat (slice l 12 4))) = true by rw [decide_eq_false (Nat.not_lt.mpr hx)]; rfl⟩))

/-- The device that has accepted a heartbeat of the partner that it knows. -/
def hbAccepted (d e : Dev) (path : Nat) (l : List Byte) : Dev :=
  setPair e fun p => { p with seqs := kvPut p.seqs path (leNat (slice l 12 4)), seen := kvPut p.seen path d.now,
                              miss := kvPut p.miss path 0, hb := l, takeover := false, lost := false }

theorem hbAccepted_partner {e : Dev} {path ep : Nat} {l : List Byte} {b : Bool} (hb : b = true) (he : e.pair.partner = some ep) :
    (setPair e fun p => { p with partner := some ep, seqs := kvPut (if b then p.seqs else []) path (leNat (slice l 12 4)),
                                 seen := kvPut p.seen path d.now, miss := kvPut p.miss path 0, hb := l, takeover := false, lost := false })
      = hbAccepted d e path l := by
  unfold setPair hbAccepted
  rw [← he, hb]
  rfl

theorem hbRxOp_accepted {e : Dev} {key l : List Byte} (h : HbHeard d e key l) {path x : Nat} (hg : gmac key (hbIv l) (l.take 48) = l.drop 48)
    (he : e.pair.partner = some (leNat (slice l 8 4))) (hs : kvGet e.pair.seqs path = some x) (hx : x < leNat (slice l 12 4))
    (hl : d.pair.lost = false) (hu : octetAt l 1 ≠ d.pair.unit.toNat) (hh : (e.pair.seqs.map (·.2)).foldl max 0 < leNat (slice l 12 4)) :
    hbRxOp d path l = digestCompareOp (splitCheck (wr (hbAccepted d e path l) (.pair 0) 0xd0 (bytesWord l))) := by
  have hsame : (e.pair.partner == some (leNat (slice l 8 4))) = true := by rw [he, beq_self_eq_true]
  unfold hbRxOp
  refine (if_neg (by rw [h.on, h.up]; decide)).trans ((if_neg (not_not.mpr h.full)).trans ?_)
  rw [h.key]
  dsimp only
  refine (if_neg (show ¬(gmac key (hbIv l) (l.take 48) ≠ l.drop 48
      ∨ (e.pair.partner == some (leNat (slice l 8 4))) = true ∧ (!_) = true
      ∨ (!(e.pair.partner == some (leNat (slice l 8 4)))) = true ∧ octetAt l 2 ≠ 0) from ?_)).trans ?_
  · rw [hs, hsame]
    rintro (hn | ⟨-, hn⟩ | ⟨hn, -⟩)
    · exact hn hg
    · exact absurd hn (show ¬(!decide (x < leNat (slice l 12 4))) = true by rw [decide_eq_true hx]; decide)
    · exact Bool.false_ne_true hn
  · rw [hbAccepted_partner hsame he, hsame,
      if_pos (show (!true || decide ((e.pair.seqs.map (·.2)).foldl max 0 < leNat (slice l 12 4)) || e.pair.seqs.isEmpty) = true by
        rw [decide_eq_true hh]; rfl), if_neg hu, if_neg (show ¬ d.pair.lost = true by rw [hl]; exact Bool.false_ne_true)]

/-- A path that has gone on without a heartbeat, where one was accepted. -/
theorem hbMissOp_of {path : Nat} {x : Instant} (ho : pairOn d = true) (hx : kvGet d.pair.seen path = some x) : hbMissOp d path =
    (let e := setPair d fun p => { p with miss := kvPut p.miss path ((d.now - x) / hbTicks) }
     if kvD d.pair.miss path 0 < 3 ∧ 3 ≤ (d.now - x) / hbTicks then
       if 3 ≤ missCount d (1 - path) ∧ (!d.pair.lost) = true then
         pairRecord (irq (raise (setPair (raise e (.pair 0) 1) fun p => { p with lost := true, takeover := p.takeover || !holding d })
           (.pair 0) 2) (.pair 0) 1) 4 0
       else raise e (.pair 0) 1
     else e) := by
  have hm : missCount d path = (d.now - x) / hbTicks := by
    unfold missCount
    rw [hx]
  unfold hbMissOp
  rw [hm]
  exact if_neg (not_or.mpr ⟨by rw [ho]; decide, by rw [hx]; exact Bool.false_ne_true⟩)

/-! ### Digests -/

/-- The interval that a closing digest ends. -/
def digestMs (d : Dev) : Nat := (timeOf d (fld (rd d (.pair 0) 0xb8) 32 3) / 65536 - 100000) / 1000000

/-- The device with the digest of an interval closed. -/
def digestClosed (d : Dev) (ms : Nat) : Dev :=
  setPair d fun p => { p with digest := some (ms - 1, kvD p.digests (ms - 1) 0), digests := p.digests.filter fun x => decide (ms - 1 < x.1) }

/-- Whether the digest of an interval is closed already. -/
def digestHas (ms : Nat) : Option (Nat × W64) → Bool
  | some (k, _) => k + 1 == ms
  | none => false

theorem digestCloseOp_eq (d : Dev) (ok : Bool) : digestCloseOp d ok =
    if (!bit (rd d (.pair 0) 0xb8) 35) = true ∨ (!pairOn d) = true ∨ digestMs d = 0 ∨ digestHas (digestMs d) d.pair.digest = true then d
    else if ok = true then digestCompareOp (digestClosed d (digestMs d))
    else cnt (setPair (digestClosed d (digestMs d)) fun p => { p with cmpMs := some (digestMs d - 1) }) (.pair 0) 0x118 1 := by
  unfold digestCloseOp
  rcases d.pair.digest with _ | ⟨k, x⟩ <;> rfl

theorem digestHas_true {ms : Nat} {q : Option (Nat × W64)} (h0 : ms ≠ 0) {x : W64} (h : q = some (ms - 1, x)) : digestHas ms q = true := by
  rw [h]
  exact beq_iff_eq.mpr (Nat.succ_pred_eq_of_ne_zero h0)

theorem digestHas_false {ms : Nat} {q : Option (Nat × W64)} (h : ∀ k x, q = some (k, x) → k + 1 ≠ ms) : digestHas ms q = false := by
  rcases q with _ | ⟨k, x⟩
  · rfl
  · exact beq_eq_false_iff_ne.mpr (h k x rfl)

theorem digestCloseOp_none (h : digestMs d = 0 ∨ ∃ x, d.pair.digest = some (digestMs d - 1, x)) (ok : Bool) : digestCloseOp d ok = d := by
  rw [digestCloseOp_eq]
  by_cases h0 : digestMs d = 0
  · exact if_pos (.inr (.inr (.inl h0)))
  · obtain ⟨x, hx⟩ := h.resolve_left h0
    exact if_pos (.inr (.inr (.inr (digestHas_true h0 hx))))

theorem digestCloseOp_closes (hb : bit (rd d (.pair 0) 0xb8) 35 = true) (ho : pairOn d = true) (h0 : digestMs d ≠ 0)
    (h : ∀ k x, d.pair.digest = some (k, x) → k + 1 ≠ digestMs d) (ok : Bool) : digestCloseOp d ok =
    if ok = true then digestCompareOp (digestClosed d (digestMs d))
    else cnt (setPair (digestClosed d (digestMs d)) fun p => { p with cmpMs := some (digestMs d - 1) }) (.pair 0) 0x118 1 := by
  refine (digestCloseOp_eq d ok).trans (if_neg ?_)
  rw [hb, ho, digestHas_false h]
  rintro (hn | hn | hn | hn)
  · exact Bool.false_ne_true hn
  · exact Bool.false_ne_true hn
  · exact h0 hn
  · exact Bool.false_ne_true hn

/-! ### The standby's self-tests -/

theorem rotAdvanceOp_off (h : rotOn d = false) : rotAdvanceOp d = setPair d fun p => { p with rotWait := false, rotRun := false } :=
  if_pos (by rw [h]; rfl)

theorem rotAdvanceOp_on (h : rotOn d = true) : rotAdvanceOp d = if d.pair.rotRun = true ∧ d.now < d.pair.rotAt + 5 * msTicks then d
    else setPair (if d.pair.rotWait = true then raise d (.pair 0) 7 else d) fun p =>
      { p with rotWait := true, rotRun := true, rotAt := d.now, bank := if p.rotRun then (p.bank + 1) % 32 else p.bank } :=
  if_neg (by rw [h]; exact Bool.false_ne_true)

/-- The withdrawn bank returns. -/
def bankDone (d : Dev) : Dev :=
  setPair d fun p => { p with rotWait := false, rotPasses := if p.bank % 32 = 31 then (p.rotPasses + 1) % 256 else p.rotPasses,
                              rotDone := p.rotDone || p.bank % 32 == 31 }

theorem rotTestOp_idle (c : Option Nat) (h : d.pair.rotWait = false) : rotTestOp d c = d := if_pos (by rw [h]; rfl)

theorem rotTestOp_passed (h : d.pair.rotWait = true) : rotTestOp d none = bankDone d := if_neg (by rw [h]; exact Bool.false_ne_true)

theorem rotTestOp_failed {c : Nat} (h : d.pair.rotWait = true) (hc : ¬ c ∈ d.retired1) :
    rotTestOp d (some c) = bankDone (raise { d with retired1 := d.retired1 ++ [c] } .chip 0) := by
  unfold rotTestOp
  refine (if_neg (by rw [h]; exact Bool.false_ne_true)).trans ?_
  dsimp only
  rw [if_neg (show ¬ d.retired1.contains c = true by rw [List.contains_iff_mem]; exact hc)]
  rfl

/-! ### Status and yield -/

theorem pairStatusOp_served {ch : Nat} (h : Served d ch 0x50 []) (ht : trngOk (opened d ch) = true) {o : Dev} (ho : opened d ch = o) :
    pairStatusOp d ch = mboxReply (setPair (draw o 32).2 fun p => { p with nonce := some (draw o 32).1, nonceAt := (draw o 32).2.now }) ch 0
      (wordBytes (pairStat o) ++ wordBytes (pairHealth o) ++ fitLen 48 o.pair.hb ++ (draw o 32).1) := by
  subst ho
  unfold pairStatusOp
  rw [mboxStart_served h none (fun _ hb => nomatch hb) _ rfl]
  dsimp only
  rw [ht, if_neg (by decide)]

/-- What the yield's check leaves of the nonce. -/
def yieldChecked (d : Dev) (p : List Byte) : Dev :=
  if yieldResult p d = 0 ∨ 4 ≤ yieldResult p d then setPair d fun q => { q with nonce := none } else d

/-- The controllers quiet for a yield (Table 17.5 step 1). -/
def yieldQuiet (e : Dev) : Dev := (List.range 24).foldl (fun d k => canQuiet (setCan d k { can d k with yielded := true }) k (can d k)) e

section
variable {ch : Nat} {p : List Byte} (h : Served d ch 0x51 p) (hp : privileged d ch 4 = true) (hl : p.length = 256) (hy : d.pair.yield = none)
include h hp hl hy

theorem pairYieldOp_refused (hr : yieldResult p (opened d ch) ≠ 0) :
    pairYieldOp d ch = mboxReply (yieldChecked (opened d ch) p) ch (0x100 + yieldResult p (opened d ch)) [] := by
  have hn : ¬(opened d ch).pair.yield.isSome = true := by
    rw [show (opened d ch).pair.yield = none from hy]
    exact Bool.false_ne_true
  unfold pairYieldOp
  rw [mboxStart_served h (some 4) (fun b hb => by cases hb; exact hp) _ (by simpa using hl)]
  dsimp only
  rw [if_neg hn, if_pos hr]
  dsimp only
  rw [show special (yieldResult p (opened d ch)) = 0x100 + yieldResult p (opened d ch) from if_neg hr]
  rfl

theorem pairYieldOp_accepted (hr : yieldResult p (opened d ch) = 0) {e : Dev} (he : (setPair (opened d ch) fun q => { q with nonce := none }) = e) :
    pairYieldOp d ch = setPair (yieldQuiet e) fun q => { q with yield := some { ch := ch, at0 := (yieldQuiet e).now } } := by
  have hn : ¬(opened d ch).pair.yield.isSome = true := by
    rw [show (opened d ch).pair.yield = none from hy]
    exact Bool.false_ne_true
  subst he
  unfold pairYieldOp
  rw [mboxStart_served h (some 4) (fun b hb => by cases hb; exact hp) _ (by simpa using hl)]
  dsimp only
  rw [if_neg hn, if_neg (not_not.mpr hr), if_pos (.inl hr)]
  rfl

end

theorem yieldReleaseOp_of {y : YieldSt} (h : d.pair.yield = some y) :
    yieldReleaseOp d = setPair d fun p => { p with yield := some { y with released := true } } := by
  unfold yieldReleaseOp
  rw [h]

end

/-- Settles O58: the claim bus, kicks and heartbeats, digests, the rotation, the offline test, status and yield. -/
theorem pairCommandsAct : Obligations.PairCommandsAct := by
  intro s t d pg
  have hd : devAt s.dev t = d := rfl
  clear_value d
  have hStart := hd ▸ lands_claimRoundStart t s
  have hEnd := fun bus (h : bus.length = 8) => hd ▸ lands_claimRoundEnd t bus s (beq_iff_eq.mpr h)
  have hSend := hd ▸ lands_heartbeatSend t s
  have hRx := fun path l => hd ▸ lands_heartbeatReceived t path l s
  have hRot := hd ▸ lands_rotBankAdvance t s
  have hBank := fun c => hd ▸ lands_rotBankTest t c s
  refine ⟨fun hs hx => ?_, fun h => lands_congr hStart (roundStartOp_absent h), fun x h hx => ?_,
    fun bus x hl h hx => lands_congr (hEnd bus hl) (roundEndOp_early h hx), fun bus drove lost x hl hs h hx hy hv => ?_,
    fun m hm => lands_congr (hd ▸ lands_pairKick t m s) (regPut_pairKick hm), fun ho hu he hs => ?_, fun ho hu path l => ?_, fun path x ho hx => ?_, ?_,
    fun h => lands_congr hRot (rotAdvanceOp_off h), fun h => ?_, fun h => ?_, fun h c => lands_congr (hBank c) (rotTestOp_idle c h),
    fun m hm hh ho => ?_, fun m hm hh => ?_, fun h => lands_congr (hd ▸ lands_offlineTestEnd t s) (if_pos h),
    fun h => lands_congr (hd ▸ lands_offlineTestEnd t s) (if_neg (by rw [h]; exact Bool.false_ne_true)), fun ch => ?_,
    fun y hy => lands_congr (hd ▸ lands_yieldClaimRelease t s) (yieldReleaseOp_of hy),
    fun h => lands_congr (hd ▸ lands_pairNonceExpiry t s) (if_pos h), fun h => lands_congr (hd ▸ lands_pairNonceExpiry t s) (if_neg (Nat.not_le.mpr h))⟩
  · have hS := lands_congr hStart ((roundStartOp_eq hs).trans (if_neg (by rw [roundPast_false hx]; exact Bool.false_ne_true)))
    exact ⟨fun h => lands_congr hS (if_pos h), fun h => lands_congr hS (if_neg h)⟩
  · cases hs : d.pair.strapEn with
    | false => exact lands_congr hStart (roundStartOp_absent hs)
    | true => exact lands_congr hStart ((roundStartOp_eq hs).trans (if_pos (roundPast_true h hx)))
  · intro n ha e win f
    have hE := fun w (hw : (n != 0 && !lost) = w) => lands_congr (hEnd bus hl) ((roundEndOp_done hs h hx rfl ha hw).trans
      (roundClosed_quiet (roundJudged_kept (roundShown_kept d n drove w) w) hy hv _))
    refine ⟨fun hw => ?_, fun hw hh => ?_, fun hw hh => ?_⟩
    · have hW := hE win rfl
      rw [roundJudged_same hw] at hW
      exact hW
    · have hW := hE true hw
      rw [roundJudged_won hh, show roundShown d n drove true = f from congrArg (roundShown d n drove) hw.symm] at hW
      exact hW
    · have hW := hE false hw
      rw [roundJudged_lost hh hy, show roundShown d n drove false = f from congrArg (roundShown d n drove) hw.symm] at hW
      exact hW
  · refine ⟨fun x h hx => lands_congr hSend (hbSendOp_early h hx), fun hx => ?_⟩
    intro e
    have hdue : hbDue d d.pair.sentAt = true := by
      cases hq : d.pair.sentAt with
      | none => rfl
      | some x => exact decide_eq_true (hx x hq)
    have hS := lands_congr hSend (hbSendOp_due ho hu he hs hdue)
    refine ⟨fun hk => lands_congr hS (if_neg ?_), fun x key f hk hn hkey => lands_congr hS ((if_pos ?_).trans (congrArg hbKeyed hkey))⟩
    · cases hq : d.pair.kickAt with
      | none => exact Bool.false_ne_true
      | some x => exact fun hc => absurd (of_decide_eq_true hc) (Nat.not_le.mpr (hk x hq))
    · rw [hk]
      exact decide_eq_true hn
  · refine ⟨fun h => lands_congr (hRx path l) (hbRxOp_short ho hu path.val h),
      fun h e hk => lands_congr (hRx path l) (hbRxOp_keyless ho hu path.val h hk), fun h key e hk => ?_⟩
    have hh : HbHeard d e key l := ⟨ho, hu, h, hk⟩
    refine ⟨fun hg => lands_congr (hRx path l) (hbRxOp_forged hh path.val hg), fun x hg he hs => ?_⟩
    exact ⟨fun hx => lands_congr (hRx path l) (hbRxOp_replayed hh he hs hx),
      fun hx hl hn hm => lands_congr (hRx path l) (hbRxOp_accepted hh hg he hs hx hl hn hm)⟩
  · have hM := lands_congr (hd ▸ lands_heartbeatMiss t path s) (hbMissOp_of ho hx)
    intro n e
    refine ⟨fun h => lands_congr hM (if_neg fun hc => ?_), fun h3 hw ho => lands_congr hM ((if_pos ⟨hw, h3⟩).trans
      (if_neg fun hc => absurd hc.1 (Nat.not_le.mpr ho)))⟩
    exact h.elim (fun h => absurd hc.2 (Nat.not_le.mpr h)) fun h => absurd hc.1 (Nat.not_lt.mpr h)
  · have hC := fun ok => hd ▸ lands_digestIntervalClose t ok s
    intro ms
    refine ⟨fun h ok => lands_congr (hC ok) (digestCloseOp_none h ok), fun hb ho h0 h => ?_⟩
    exact ⟨lands_congr (hC true) ((digestCloseOp_closes hb ho h0 h true).trans (if_pos rfl)),
      lands_congr (hC false) ((digestCloseOp_closes hb ho h0 h false).trans (if_neg Bool.false_ne_true))⟩
  · have hR := lands_congr hRot (rotAdvanceOp_on h)
    intro next
    refine ⟨fun hr hn => lands_congr hR (if_pos ⟨hr, hn⟩), fun hn => ?_⟩
    have hN := lands_congr hR (if_neg fun hc => hn.elim (fun hf => Bool.false_ne_true (hf.symm.trans hc.1)) fun hl => absurd hc.2 (Nat.not_lt.mpr hl))
    refine ⟨fun hw => ?_, fun hw => ?_⟩
    · rw [hw, if_neg Bool.false_ne_true] at hN
      exact hN
    · rw [hw, if_pos rfl] at hN
      exact hN
  · exact ⟨lands_congr (hBank none) (rotTestOp_passed h), fun c hc => lands_congr (hBank (some c)) (rotTestOp_failed h hc)⟩
  · exact lands_congr (hd ▸ lands_offlineTest t m s) ((regPut_offline hm).trans (if_neg (by rw [hh, ho]; decide)))
  · exact lands_congr (hd ▸ lands_offlineTest t m s) ((regPut_offline hm).trans (if_pos (.inl hh)))
  · have hY := hd ▸ lands_pairYield t ch s
    refine ⟨fun h ht => ?_, fun p h hp hl hy => ?_⟩
    · exact lands_congr (hd ▸ lands_pairStatus t ch s) (pairStatusOp_served h ht rfl)
    · intro e
      refine ⟨fun hr => lands_congr hY (pairYieldOp_accepted h hp hl hy hr (e := e) rfl), fun hr => ?_, fun h1 h3 => ?_⟩
      · have hE := pairYieldOp_refused h hp hl hy (Nat.ne_of_gt (Nat.lt_of_lt_of_le (by decide) hr))
        rw [show yieldChecked (opened d ch.val) p = e from if_pos (.inr hr)] at hE
        exact lands_congr hY hE
      · have hE := pairYieldOp_refused h hp hl hy (Nat.ne_of_gt h1)
        rw [show yieldChecked (opened d ch.val) p = opened d ch.val from if_neg fun hc => by omega] at hE
        exact lands_congr hY hE

end Sys2Proof.Machine
end

section
/-! PROOF. Update sessions, activation, confirmation (spec ch. 18). -/

namespace Sys2Proof.Machine
open Safety

section
variable {mem : List Host.Cell} {d : Dev}

/-! ### The mailbox commands of the update session -/

/-- A channel's registers are not UPD_BOOT. -/
theorem rd_opened_upd (d : Dev) (ch : Fin 4) : rd (opened d ch.val) .upd 0x80 = rd d .upd 0x80 := by
  have hf : (mboxPg ch.val).base + 0x88 ≠ Page.upd.base + 0x80 := by
    revert ch
    decide
  unfold opened setMbox wf
  dsimp only
  rw [rd_wr_far _ _ hf, rd_wr_far _ _ hf]
  rfl

theorem hostLoading_opened {ch : Fin 4} {code : Nat} {p : List Byte} (h : Served d ch.val code p) : hostLoading (opened d ch.val) = false := by
  have hr : romServes (opened d ch.val) = romServes d := by
    unfold romServes rb rf
    rw [rd_opened_upd]
  unfold hostLoading
  rw [hr, h.known.2]
  rfl

section
variable {ch : Fin 4} {p : List Byte} (hp : privileged d ch.val 1 = true) (h : Served d ch.val 0x20 p) (hl : p.length = 6048)
include hp h hl

theorem updOpenOp_locked {x : UpdSession} (hs : d.boot.session = some x) : updOpenOp d ch.val
    = mboxReply (updRecord (cnt (opened d ch.val) .upd 0x108 1) 10 0xFF ch.val 1 (fitLen 8192 p)) ch.val (special 1) [] := by
  have hi : (opened d ch.val).boot.session.isSome = true := by
    rw [show (opened d ch.val).boot.session = some x from hs]
    rfl
  unfold updOpenOp
  rw [mboxStart_served h (some 1) (fun b hb => by cases hb; exact hp) _ (by simpa using hl)]
  dsimp only
  rw [if_pos hi]

/-- The result of UPD_OPEN while the lock is free: the first check that fails, or a pending image. -/
def openResult (d : Dev) (hdr : List Byte) : Nat :=
  let c := hdrCheck d hdr true false
  if c ≠ 0 then c else if d.boot.pending.isSome then 7 else 0

/-- The device whose update lock a channel takes (R485). -/
def openTaken (d : Dev) (ch : Nat) (hdr : List Byte) : Dev :=
  let k := 1 - d.boot.active
  let e := setBoot (setSlotSt (cnt d .upd 0x100 1) k 1) fun b => { b with session := some { ch := ch, target := k, hdr := hdr, lastAt := d.now } }
  irq (updRecord { e with memOut := e.memOut ++ [(slotBase k, hdr)] } 1 k ch 0 hdr) .upd 0

theorem updOpenOp_free (hs : d.boot.session = none) : updOpenOp d ch.val =
    if openResult (opened d ch.val) (fitLen 8192 p) ≠ 0 then
      mboxReply (updRecord (opened d ch.val) 10 0xFF ch.val (openResult (opened d ch.val) (fitLen 8192 p)) (fitLen 8192 p)) ch.val
        (special (openResult (opened d ch.val) (fitLen 8192 p))) []
    else mboxReply (openTaken (opened d ch.val) ch.val (fitLen 8192 p)) ch.val 0
      (leBytes 4 (1 - d.boot.active) ++ leBytes 4 (hdrBody (fitLen 8192 p) / 4096)) := by
  have hi : ¬ (opened d ch.val).boot.session.isSome = true := by
    rw [show (opened d ch.val).boot.session = none from hs]
    exact Bool.false_ne_true
  have hh := hostLoading_opened h
  unfold updOpenOp
  rw [mboxStart_served h (some 1) (fun b hb => by cases hb; exact hp) _ (by simpa using hl)]
  dsimp only
  rw [if_neg hi, hh]
  unfold openResult
  dsimp only
  generalize (if hdrCheck (opened d ch.val) (fitLen 8192 p) true false ≠ 0 then hdrCheck (opened d ch.val) (fitLen 8192 p) true false
    else if (opened d ch.val).boot.pending.isSome = true then 7 else 0) = r
  by_cases hr : r = 0
  · rw [if_neg (not_not.mpr hr), if_neg (not_not.mpr hr)]
    rfl
  · rw [if_pos hr, if_pos hr]

end

theorem openResult_check {hdr : List Byte} (h : hdrCheck d hdr true false ≠ 0) : openResult d hdr = hdrCheck d hdr true false := if_pos h

theorem openResult_pending {hdr : List Byte} (h : hdrCheck d hdr true false = 0) (hp : d.boot.pending ≠ none) : openResult d hdr = 7 :=
  (if_neg (not_not.mpr h)).trans (if_pos (Option.isSome_iff_ne_none.mpr hp))

theorem openResult_free {hdr : List Byte} (h : hdrCheck d hdr true false = 0) (hp : d.boot.pending = none) : openResult d hdr = 0 :=
  (if_neg (not_not.mpr h)).trans (if_neg (by rw [hp]; exact Bool.false_ne_true))

theorem asHolder_free {ch : Nat} (f : UpdSession → Answer × Dev) (h : d.boot.session = none) : asHolder d ch f = (some (special 9, []), d) := by
  unfold asHolder
  rw [h]

theorem asHolder_holder {ch : Nat} {x : UpdSession} (f : UpdSession → Answer × Dev) (h : d.boot.session = some x) (hx : x.ch = ch) :
    asHolder d ch f = f x := by
  unfold asHolder
  rw [h]
  exact if_pos hx

theorem updBlockOp_free {ch : Nat} {p : List Byte} (good : Bool) (hp : privileged d ch 1 = true) (h : Served d ch 0x21 p) (hl : p.length = 4112)
    (hs : d.boot.session = none) : updBlockOp d ch good = mboxReply (opened d ch) ch (special 9) [] := by
  unfold updBlockOp
  rw [mboxStart_served h (some 1) (fun b hb => by cases hb; exact hp) _ (by simpa using hl), asHolder_free (d := opened d ch) _ hs]

/-- The device with a block of the holder's image written. -/
def blockWritten (d : Dev) (x : UpdSession) (p : List Byte) : Dev :=
  let off := leNat (p.take 4)
  let y := { x with got := if x.got.contains (off / 4096) then x.got else x.got ++ [off / 4096], lastAt := d.now }
  let e := setBoot d fun b => { b with session := some y }
  { e with memOut := e.memOut ++ [(slotBase x.target + 8192 + off, p.drop 16)] }

/-- What UPD_BLOCK answers its holder. -/
def blockAnswer (d : Dev) (x : UpdSession) (p : List Byte) (good : Bool) : Nat × Dev :=
  if leNat (p.take 4) % 4096 ≠ 0 ∨ hdrBody x.hdr ≤ leNat (p.take 4) then (special 10, d)
  else if crc32 (p.drop 16) ≠ leNat (slice p 4 4) then (special 11, d)
  else if good = true then (0, blockWritten d x p)
  else (special 15, raise (updRelease (blockWritten d x p) 0) .upd 2)

theorem blockAnswer_formed {x : UpdSession} {p : List Byte} (good : Bool) (h0 : leNat (p.take 4) % 4096 = 0)
    (h1 : leNat (p.take 4) < hdrBody x.hdr) (hc : crc32 (p.drop 16) = leNat (slice p 4 4)) : blockAnswer d x p good =
    if good = true then (0, blockWritten d x p) else (special 15, raise (updRelease (blockWritten d x p) 0) .upd 2) :=
  (if_neg (not_or.mpr ⟨not_not.mpr h0, Nat.not_le.mpr h1⟩)).trans (if_neg (not_not.mpr hc))

section
variable {ch : Nat} {x : UpdSession} (hp : privileged d ch 1 = true) (hs : d.boot.session = some x) (hx : x.ch = ch)
include hp hs hx

theorem updBlockOp_holder {p : List Byte} {good : Bool} {r : Nat} {e : Dev} (h : Served d ch 0x21 p) (hl : p.length = 4112)
    (hr : blockAnswer (opened d ch) x p good = (r, e)) : updBlockOp d ch good = mboxReply e ch r [] := by
  unfold updBlockOp
  rw [mboxStart_served h (some 1) (fun b hb => by cases hb; exact hp) _ (by simpa using hl), asHolder_holder (d := opened d ch) _ hs hx]
  unfold blockAnswer at hr
  dsimp only
  by_cases h10 : leNat (p.take 4) % 4096 ≠ 0 ∨ hdrBody x.hdr ≤ leNat (p.take 4)
  · rw [if_pos h10] at hr ⊢
    cases hr
    rfl
  by_cases h11 : crc32 (p.drop 16) ≠ leNat (slice p 4 4)
  · rw [if_neg h10, if_pos h11] at hr ⊢
    cases hr
    rfl
  rw [if_neg h10, if_neg h11] at hr ⊢
  cases good <;> (cases hr; rfl)

/-- What UPD_FINISH answers its holder of an image that is not for host load. -/
def finishAnswer (mem : List Host.Cell) (d : Dev) (ch : Nat) (x : UpdSession) : Nat × Dev :=
  if x.got.length < hdrBody x.hdr / 4096 then (special 12, d)
  else if bodyOk mem x.target x.hdr = false then (special 13, updRecord (updRelease (cnt d .upd 0x120 1) 0) 3 x.target ch 13 x.hdr)
  else (0, irq (updRecord (updRelease d 2) 2 x.target ch 0 x.hdr) .upd 1)

theorem updFinishOp_holder {r : Nat} {e : Dev} (h : Served d ch 0x22 [])
    (h2 : x.target ≠ 2 ∨ x.got.length < hdrBody x.hdr / 4096 ∨ bodyOk mem x.target x.hdr = false)
    (hr : finishAnswer mem (opened d ch) ch x = (r, e)) : updFinishOp mem d ch .clean = mboxReply e ch r [] := by
  have hm : (if x.target < 2 then mramRead (opened d ch) .clean else opened d ch) = opened d ch := ite_self _
  unfold updFinishOp
  rw [mboxStart_served h (some 1) (fun b hb => by cases hb; exact hp) _ rfl, asHolder_holder (d := opened d ch) _ hs hx]
  unfold finishAnswer at hr
  dsimp only
  rw [hm]
  by_cases h12 : x.got.length < hdrBody x.hdr / 4096
  · rw [if_pos h12] at hr ⊢
    cases hr
    rfl
  rw [if_neg h12] at hr ⊢
  cases hb : bodyOk mem x.target x.hdr with
  | false =>
    rw [if_pos hb] at hr
    cases hr
    rw [if_pos (.inl rfl)]
  | true =>
    have ht : x.target ≠ 2 := h2.resolve_right (not_or.mpr ⟨h12, by rw [hb]; decide⟩)
    rw [if_neg (by rw [hb]; decide)] at hr
    cases hr
    rw [if_neg (show ¬((!true) = true ∨ slotLost .clean x.target = true) from not_or.mpr ⟨Bool.false_ne_true, Bool.false_ne_true⟩), if_neg ht]

theorem updAbortOp_holder (h : Served d ch 0x24 []) :
    updAbortOp d ch = mboxReply (updRecord (updRelease (opened d ch) 0) 4 x.target ch 0 x.hdr) ch 0 [] := by
  unfold updAbortOp
  rw [mboxStart_served h (some 1) (fun b hb => by cases hb; exact hp) _ rfl, asHolder_holder (d := opened d ch) _ hs hx]

end

theorem updActivateOp_served {ch : Nat} {p : List Byte} (hp : privileged d ch 1 = true) (h : Served d ch 0x23 p) (hl : p.length = 2)
    {r : Nat} {e : Dev} (hr : activate mem (opened d ch) (octetAt p 0) ch = (r, e)) : updActivateOp mem d ch .clean =
    mboxReply (if r = 0 ∧ octetAt p 1 = 1 then setBoot e fun b => { b with actAt := some e.now } else e) ch (special r) [] := by
  unfold updActivateOp
  rw [mboxStart_served h (some 1) (fun b hb => by cases hb; exact hp) _ (by simpa using hl)]
  dsimp only
  rw [show mramRead (opened d ch) .clean = opened d ch from rfl, hr]

theorem activate_slot {s ch : Nat} (h : 1 < s) : activate mem d s ch = (14, d) := if_pos h

/-! ### Confirmation and the lock's timeout -/

theorem regPut_updConfirm {m : Master} (h : Accepts d m .upd) : regPut mem d m .upd 0xb8 1 = updConfirmOp d := by
  rw [regPut_accepts _ _ _ _ _ _ h (by decide) (.inl (by decide))]
  unfold regWrite
  exact (if_neg (by decide)).trans rfl

/-- The device whose pending image p has confirmed itself, but for the record. -/
def confirmed (d : Dev) (p : Nat) : Dev :=
  let e := revoke d
  let e1 := if slotSt e d.boot.active = 3 then setSlotSt e d.boot.active 2 else e
  setBoot (setSlotSt e1 p 3) fun b =>
    { b with active := p, pending := none, attempts := 0, confirm := none, rollback := max b.rollback (imgRollback b.hdr) }

theorem revoke_active (d : Dev) : (revoke d).boot.active = d.boot.active := by
  unfold revoke
  cases ownerOf d d.boot.hdr with
  | none => rfl
  | some i => rfl

theorem updConfirmOp_of {p : Nat} {x : Instant} (hp : d.boot.pending = some p) (hx : d.boot.confirm = some x) : updConfirmOp d =
    if x ≤ d.now then d else updRecord (confirmed d p) 7 p 0xFF 0 (confirmed d p).boot.hdr := by
  unfold updConfirmOp confirmed
  rw [hp, hx]
  dsimp only
  rw [revoke_active]

theorem updConfirmOp_none (h : d.boot.pending = none ∨ d.boot.confirm = none) : updConfirmOp d = d := by
  unfold updConfirmOp
  rcases h with h | h
  · rw [h]
  · rw [h]
    cases d.boot.pending <;> rfl

theorem updTimeoutOp_of {x : UpdSession} (h : d.boot.session = some x) : updTimeoutOp d = if x.lastAt + 5000 * msTicks ≤ d.now then
    updRecord (updRelease (cnt d .upd 0x110 1) 0) 5 x.target x.ch 0 x.hdr else d := by
  unfold updTimeoutOp
  rw [h]

end

/-- Settles O59: the commands of the update session by lock, holder and checks, activation, confirmation, the lock's timeout. -/
theorem updateCommandsAct : Obligations.UpdateCommandsAct := by
  intro s t d
  have hd : devAt s.dev t = d := rfl
  clear_value d
  refine ⟨fun ch p hp => ?_, fun m hm => ?_, fun x hx => ?_⟩
  · have hO := hd ▸ lands_updOpen t ch s
    have hB := fun good => hd ▸ lands_updBlock t ⟨ch, good⟩ s
    have hF := hd ▸ lands_updFinish t ⟨ch, .clean⟩ s
    have hA := hd ▸ lands_updActivate t ⟨ch, .clean⟩ s
    refine ⟨fun h hl => ?_, fun h hl hs good => lands_congr (hB good) (updBlockOp_free good hp h hl hs), fun x hs hx => ?_, fun h hl => ?_⟩
    · intro hdr
      refine ⟨fun x hs => lands_congr hO (updOpenOp_locked hp h hl hs), fun hs hc => ?_, fun hs hc hq => ?_, fun hs hc hq => ?_⟩
      · have hE := updOpenOp_free hp h hl hs
        rw [openResult_check hc, if_pos hc] at hE
        exact lands_congr hO hE
      · have hE := updOpenOp_free hp h hl hs
        rw [openResult_pending (d := opened d ch.val) hc hq, if_pos (by decide)] at hE
        exact lands_congr hO hE
      · have hE := updOpenOp_free hp h hl hs
        rw [openResult_free (d := opened d ch.val) hc hq, if_neg (by decide)] at hE
        exact lands_congr hO hE
    · refine ⟨fun h hl => ⟨fun ho good => ?_, fun h0 h1 hc good => ?_, fun h0 h1 hc hg => ?_⟩, fun h => ⟨fun h12 => ?_, fun h12 hb => ?_, fun h12 hb h2 => ?_⟩,
        fun h => lands_congr (hd ▸ lands_updAbort t ch s) (updAbortOp_holder hp hs hx h)⟩
      · exact lands_congr (hB good) (updBlockOp_holder hp hs hx h hl (if_pos ho))
      · exact lands_congr (hB good) (updBlockOp_holder hp hs hx h hl
          ((if_neg (not_or.mpr ⟨not_not.mpr h0, Nat.not_le.mpr h1⟩)).trans (if_pos hc)))
      · intro e e1
        have he : blockWritten (opened d ch.val) x p = e1 := by
          unfold blockWritten
          dsimp only
          rw [hg]
          rfl
        have hgood := fun good => blockAnswer_formed (d := opened d ch.val) good h0 h1 hc
        rw [he] at hgood
        exact ⟨lands_congr (hB true) (updBlockOp_holder hp hs hx h hl (hgood true)),
          lands_congr (hB false) (updBlockOp_holder hp hs hx h hl (hgood false))⟩
      · exact lands_congr hF (updFinishOp_holder hp hs hx h (.inr (.inl h12)) (if_pos h12))
      · exact lands_congr hF (updFinishOp_holder hp hs hx h (.inr (.inr hb)) ((if_neg (Nat.not_lt.mpr h12)).trans (if_pos hb)))
      · exact lands_congr hF (updFinishOp_holder hp hs hx h (.inl h2) ((if_neg (Nat.not_lt.mpr h12)).trans
          (if_neg (by rw [hb]; decide))))
    · refine ⟨fun h1 => ?_, ?_⟩
      · have hE := updActivateOp_served hp h hl (activate_slot (mem := s.mem) (d := opened d ch.val) (ch := ch.val) h1)
        rw [if_neg (fun hc => absurd hc.1 (by decide))] at hE
        exact lands_congr hA hE
      · intro r
        have hE := updActivateOp_served (mem := s.mem) hp h hl (r := r.1) (e := r.2) rfl
        refine ⟨fun h0 h1 => ?_, fun h0 h1 => ?_, fun h0 => ?_⟩
        · rw [if_pos ⟨h0, h1⟩, h0] at hE
          exact lands_congr hA hE
        · rw [if_neg (fun hc => h1 hc.2), h0] at hE
          exact lands_congr hA hE
        · rw [if_neg (fun hc => h0 hc.1)] at hE
          exact lands_congr hA hE
  · have hC := lands_congr (hd ▸ lands_updConfirm t m s) (regPut_updConfirm hm)
    refine ⟨fun p x hp hx hn => lands_congr hC ((updConfirmOp_of hp hx).trans (if_neg (Nat.not_le.mpr hn))),
      fun h => lands_congr hC (updConfirmOp_none h), fun x hx hn => ?_⟩
    cases hp : d.boot.pending with
    | none => exact lands_congr hC (updConfirmOp_none (.inl hp))
    | some p => exact lands_congr hC ((updConfirmOp_of hp hx).trans (if_pos hn))
  · have hL := lands_congr (hd ▸ lands_updLockTimeout t s) (updTimeoutOp_of hx)
    exact ⟨fun h => lands_congr hL (if_pos h), fun h => lands_congr hL (if_neg (Nat.not_le.mpr h))⟩

end Sys2Proof.Machine
end

section
/-! PROOF. Boot, resets of the chip and of PCIe, loss of supplies (spec ch. 18, 19). -/

namespace Sys2Proof.Machine
open Safety

section
variable {mem : List Host.Cell} {d : Dev}

/-! ### Resets that a deadline or a pin asks for -/

theorem confirmTimeoutOp_of {x : Instant} (hh : halted d = false) (h : d.boot.confirm = some x) :
    confirmTimeoutOp d = if d.now < x then d else chipReset (setBoot d fun b => { b with late := true }) 3 := by
  unfold confirmTimeoutOp
  rw [h, hh]
  exact ite_congr (propext ⟨fun h => h.resolve_left Bool.false_ne_true, .inr⟩) (fun _ => rfl) fun _ => rfl

theorem activationOp_of {x : Instant} (hh : halted d = false) (h : d.boot.actAt = some x) :
    activationOp d = if d.now < x + 10 * msTicks then d else chipReset d 4 := by
  unfold activationOp
  rw [h, hh]
  exact ite_congr (propext ⟨fun h => h.resolve_left Bool.false_ne_true, .inr⟩) (fun _ => rfl) fun _ => rfl

theorem resetNOp_resets (h : halted d = false) : resetNOp d = chipReset (freeNat d).2 ((freeNat d).1 % 256) :=
  if_neg (by rw [h]; exact Bool.false_ne_true)

theorem powerUpTimeoutOp_of (h : d.boot.outer = false) : powerUpTimeoutOp d = if d.now < d.pwr.enFrom + 10 * msTicks then d
    else setPwr d fun x => { x with pwrEn := false, enFrom := d.now + 100 * msTicks, enAt := some (d.now + 100 * msTicks) } := by
  unfold powerUpTimeoutOp
  rw [h]
  exact ite_congr (propext ⟨fun h => h.resolve_left Bool.false_ne_true, .inr⟩) (fun _ => rfl) fun _ => rfl

/-! ### The ROM's boot -/

/-- The root secret of a boot, and whether its draw succeeded. -/
def bootRoot (d : Dev) : Bool × Dev := rootDraw (lcApply (setScarab (digestStart d d.now) fun x => { x with testAt := locNow d }))

/-- The device of a boot with its device slots. -/
def bootSlots (d : Dev) : Dev := restoreWrapped (deriveDevice (bootRoot d).2)

/-- The device of a boot in its mode, its boot window open. -/
def bootMode (d : Dev) : Dev :=
  let e := bootSlots d
  let trioOn := d.boot.trio && (lcOf e == 0 || lcOf e == 1 || lcOf e == 4)
  wb (wf (wb e (.scarab 0) 0x80 9 d.boot.trio) (.scarab 0) 0x80 0 2 trioOn.toNat) (.scarab 0) 0x80 8 true

/-- What a boot starts of a device in its mode e: straps, entropy source and life cycle say. -/
def bootImage (mem : List Host.Cell) (d e : Dev) : Dev :=
  if lcOf (bootSlots d) = 5 then scrapHalt e
  else
    let f := setBoot e fun b => { b with boots := (b.boots + 1) % 2 ^ 32 }
    if (!(bootRoot d).1) = true then chrysalisEnter f 3
    else if d.boot.sel = 2 then chrysalisEnter f 1
    else if d.boot.sel = 1 then setBoot (wf f .upd 0x80 10 2 1) fun b => { b with due := false }
    else selectImage f mem .clean

theorem bootSelectOp_idle (h : d.boot.due = false ∨ d.boot.outer = false) (e : EccEvent) : bootSelectOp mem d e = d := by
  refine if_pos ?_
  rcases h with h | h
  · exact .inl (by rw [h]; rfl)
  · exact .inr (.inl (by rw [h]; rfl))

theorem bootSelectOp_boots (hd : d.boot.due = true) (ho : d.boot.outer = true) (hh : halted d = false) (hu : domUp d 2 = true) :
    bootSelectOp mem d .clean = bootImage mem d
      (if (bootMode d).boot.late then setBoot (raise (bootMode d) .upd 3) fun b => { b with late := false } else bootMode d) :=
  (if_neg (by rw [hd, ho, hh, hu]; decide)).trans rfl

/-! ### Power-on reset -/

/-- The device whose reset a power-on reset makes: its straps sampled. -/
def strapped (d : Dev) (x : Straps) : Dev :=
  let e := setBoot { d with time := { d.time with stopped := false } } fun b =>
    { b with sel := if x.bootSel.val = 3 then 0 else x.bootSel.val, trio := x.scarabTrio, outer := true }
  { e with pair := { e.pair with strapEn := x.pairEn, unit := x.pairUnit } }

/-- What a power-on reset makes of a device that was reset. -/
def coldStart (e : Dev) : Dev :=
  let e1 := wr (wr (wr { e with time := {}, fcn := {} } (.fcn 0) 0x98 0) (.fcn 0) 0xa0 0) (.fcn 0) 0x148 0
  { e1 with ports := e1.ports.map fun (x : Nat × PortSt) => (x.1, ({ record := x.2.recFlash, recFlash := x.2.recFlash } : PortSt)) }

theorem powerOnResetOp_cold (x : Straps) (hs : d.fcn.safe = false) (hv : d.car.vbatOk = true) :
    powerOnResetOp d x = coldStart (chipReset (strapped d x) 1) :=
  (if_neg (by rw [hs]; exact Bool.false_ne_true)).trans (if_pos hv)

theorem coldStart_parts (e : Dev) : (coldStart e).time = {} ∧ (coldStart e).fcn = {} ∧ (coldStart e).boot = e.boot ∧ (coldStart e).pair = e.pair := by
  unfold coldStart
  dsimp only
  simp only [wr_time, wr_fcn, wr_boot, wr_pair, and_self]

theorem resetFrom_strapped (d : Dev) (x : Straps) : resetFrom (strapped d x) = updDrop (strapped d x) := by
  unfold resetFrom
  exact congrArg updDrop (if_neg (show ¬ false = true from Bool.false_ne_true))

theorem powerOnResetOp_straps (x : Straps) (hs : d.fcn.safe = false) (hv : d.car.vbatOk = true) {e : Dev} (he : powerOnResetOp d x = e) :
    e.time = {} ∧ e.fcn = {} ∧ e.boot.trio = x.scarabTrio ∧ e.boot.outer = true ∧ e.boot.due = true
      ∧ e.pair.strapEn = x.pairEn ∧ e.pair.unit = x.pairUnit ∧ e.boot.sel = if x.bootSel.val = 3 then 0 else x.bootSel.val := by
  subst he
  rw [powerOnResetOp_cold x hs hv]
  obtain ⟨ht, hf, hb, hp⟩ := coldStart_parts (chipReset (strapped d x) 1)
  obtain ⟨hsel, htrio, houter⟩ := updDrop_boot (strapped d x)
  obtain ⟨hen, hunit⟩ := chipReset_pair (strapped d x) 1
  rw [ht, hf, hb, hp, chipReset_boot, hen, hunit, resetFrom_strapped, (updDrop_pair _).1]
  exact ⟨rfl, rfl, htrio, houter, rfl, rfl, rfl, hsel⟩

/-! ### PCIE_PERST_N -/

theorem kvGet_filter_none {α : Type} {keep : Nat × α → Bool} {a : Nat} (h : ∀ v, keep (a, v) = false) (l : List (Nat × α)) :
    kvGet (l.filter keep) a = none := by
  induction l with
  | nil => rfl
  | cons e l ih =>
    obtain ⟨k, v⟩ := e
    by_cases hk : keep (k, v) = true
    · rw [List.filter_cons_of_pos hk]
      have hne : k ≠ a := by
        rintro rfl
        exact Bool.false_ne_true ((h v).symm.trans hk)
      exact (if_neg hne).trans ih
    · rw [List.filter_cons_of_neg hk]
      exact ih

/-- What PERST_N keeps of the registers: those of no HOST page, and the locks of these. -/
def perstKeeps (e : Nat × W64) : Bool := perstAt e.1 (pageOf e.1)
where
  /-- Whether PERST_N keeps the register at an address of a page. -/
  perstAt (a : Nat) : Option Page → Bool
    | some (.host i) => a == (Page.host i).base + 0x60
    | _ => true

theorem perstOp_of (h : d.fcn.safe = false) : perstOp d =
    (let e := hostClear { d with regs := d.regs.filter perstKeeps } false
     { e with host := { e.host with qs := e.host.qs.filter fun e => decide (16 ≤ e.1), msixT := [], pba := [], held := [] } }) := by
  have hk : ∀ keep : Nat × W64 → Bool, keep = perstKeeps → d.regs.filter keep = d.regs.filter perstKeeps := fun _ h => h ▸ rfl
  unfold perstOp
  rw [if_neg (by rw [h]; exact Bool.false_ne_true)]
  dsimp only
  rw [hk _ (funext fun e => ?_)]
  unfold perstKeeps
  rcases pageOf e.1 with _ | pg
  · rfl
  · cases pg <;> rfl

theorem rd_perst (i : Fin 3) {off : Nat} (ho : off < 0x1000) (h60 : off ≠ 0x60) (r : List (Nat × W64)) :
    stGet regReset (r.filter perstKeeps) ((Page.host i).base + off) = rd resetDev (.host i) off := by
  have hk : ∀ v, perstKeeps ((Page.host i).base + off, v) = false := by
    intro v
    unfold perstKeeps
    dsimp only
    rw [pageOf_base (.host i) rfl off ho]
    exact beq_eq_false_iff_ne.mpr fun h => h60 (Nat.add_left_cancel h)
  unfold stGet
  rw [kvGet_filter_none hk]
  rfl

/-! ### Loss of supplies -/

/-- What a loss of supply leaves of the boot: no image and no deadline, and a boot that is due. -/
structure ImageLost (b : BootSt) : Prop where
  image   : b.image = none
  confirm : b.confirm = none
  session : b.session = none
  due     : b.due = true

/-- A device that lost its supplies, VBAT among them where it lost it: the root secret and what VBAT keeps. -/
def vbatLost (vbatOk : Bool) (d : Dev) : Dev :=
  if vbatOk then d
  else
    let e := wf (dropRoot d) .carapace 0x80 32 32 0
    wr { e with car := { e.car with vbatOk := false } } .carapace 0xa8 0

theorem vbatLost_boot (v : Bool) (d : Dev) : (vbatLost v d).boot = d.boot := ite_part Dev.boot _ rfl rfl

theorem vbatLost_car (d : Dev) : (vbatLost false d).car.root = none ∧ (vbatLost false d).car.vbatOk = false := ⟨rfl, rfl⟩

theorem supplyLossOp_vbat (d : Dev) (aon v : Bool) : ∃ e : Dev, supplyLossOp d aon v = vbatLost v e ∧ ImageLost e.boot := by
  refine ⟨_, rfl, ?_⟩
  rw [wr_boot, wr_boot, wr_boot]
  cases aon <;> exact ⟨rfl, rfl, rfl, rfl⟩

theorem supplyLossOp_boot (d : Dev) (aon v : Bool) : ImageLost (supplyLossOp d aon v).boot := by
  obtain ⟨e, he, hl⟩ := supplyLossOp_vbat d aon v
  rw [he, vbatLost_boot]
  exact hl

theorem supplyLossOp_car (d : Dev) (aon : Bool) :
    (supplyLossOp d aon false).car.root = none ∧ (supplyLossOp d aon false).car.vbatOk = false := by
  obtain ⟨e, he, -⟩ := supplyLossOp_vbat d aon false
  rw [he]
  exact vbatLost_car e

end

/-- Settles O60: deadlines and RESET_N, the ROM's boot, the power-on reset, PERST_N, a late power-up, a loss of supply. -/
theorem bootAndResetsAct : Obligations.BootAndResetsAct := by
  intro s t d
  have hd : devAt s.dev t = d := rfl
  clear_value d
  refine ⟨fun hh => ⟨fun x hx => ?_, fun x hx => ?_, lands_congr (hd ▸ lands_resetN t s) (resetNOp_resets hh)⟩,
    fun hh => lands_congr (hd ▸ lands_resetN t s) (if_pos hh), ?_, fun x hs => ?_,
    fun hs => lands_congr (hd ▸ lands_pciePerstN t s) (if_pos hs), fun hs => ?_,
    fun ho => lands_congr (hd ▸ lands_powerUpTimeout t s) (if_pos (.inl ho)), fun ho hn => ?_, fun ho hn => ?_, fun aon v => ?_⟩
  · have hL := lands_congr (hd ▸ lands_confirmTimeout t s) (confirmTimeoutOp_of hh hx)
    exact ⟨fun hn => lands_congr hL (if_neg (Nat.not_lt.mpr hn)), fun hn => lands_congr hL (if_pos hn)⟩
  · have hL := lands_congr (hd ▸ lands_activationReset t s) (activationOp_of hh hx)
    exact ⟨fun hn => lands_congr hL (if_neg (Nat.not_lt.mpr hn)), fun hn => lands_congr hL (if_pos hn)⟩
  · intro wipe goes
    have hB : goes (bootSelectOp s.mem d .clean) := by
      have h := lands_bootSelect ⟨t, .clean⟩ s
      dsimp only at h
      rw [hd] at h
      exact h
    refine ⟨fun h => bootSelectOp_idle h .clean ▸ hB, fun hdue ho hh hu => ?_⟩
    intro r e trioOn e1 hlate
    have hI : goes (bootImage s.mem d e1) :=
      ((bootSelectOp_boots (mem := s.mem) hdue ho hh hu).trans
        (congrArg (bootImage s.mem d) (if_neg fun hx => Bool.false_ne_true (hlate.symm.trans hx)))) ▸ hB
    have hgo : ∀ {x}, bootImage s.mem d e1 = x → goes x := fun h => h ▸ hI
    refine ⟨fun h5 => hgo (if_pos h5), fun h5 => ?_⟩
    intro f
    have hN : r.1 = false → (!r.1) = true := fun h => by rw [h]; rfl
    have hR : ∀ h : r.1 = true, ¬ (!r.1) = true := fun h => by rw [h]; decide
    refine ⟨fun hr => hgo ((if_neg h5).trans (if_pos (hN hr))),
      fun hr h2 => hgo ((if_neg h5).trans ((if_neg (hR hr)).trans (if_pos h2))),
      fun hr h1 => hgo ((if_neg h5).trans ((if_neg (hR hr)).trans ((if_neg (by rw [h1]; decide)).trans (if_pos h1)))),
      fun hr h0 => hgo ((if_neg h5).trans ((if_neg (hR hr)).trans ((if_neg (by rw [h0]; decide)).trans (if_neg (by rw [h0]; decide)))))⟩
  · intro e
    refine ⟨?_, fun hv => powerOnResetOp_straps x hs hv rfl⟩
    have h := lands_powerOnReset t x s
    rw [hd] at h
    have hw : (fun _ m => if d.fcn.safe then m else wipeSram m : Dev → List Host.Cell → List Host.Cell) = fun _ m => wipeSram m :=
      funext fun _ => funext fun _ => if_neg (by rw [hs]; exact Bool.false_ne_true)
    dsimp only at h
    rw [hw] at h
    exact h
  · refine ⟨_, lands_congr (hd ▸ lands_pciePerstN t s) (perstOp_of hs), rfl, rfl, fun i off ho h60 => ?_⟩
    exact rd_perst i ho h60 d.regs
  · exact lands_congr (hd ▸ lands_powerUpTimeout t s) ((powerUpTimeoutOp_of ho).trans (if_pos hn))
  · exact lands_congr (hd ▸ lands_powerUpTimeout t s) ((powerUpTimeoutOp_of ho).trans (if_neg (Nat.not_lt.mpr hn)))
  · intro e
    obtain ⟨hi, hc, hs, hdue⟩ := supplyLossOp_boot d aon v
    have h := lands_supplyLoss t aon v s
    rw [hd] at h
    refine ⟨h, hi, hc, hs, hdue, ?_⟩
    rintro rfl
    exact supplyLossOp_car d aon

end Sys2Proof.Machine
end
